-- ==== Sys2Proof/Word.lean ====
section
/-! DEFINITION. The words the Kredom computes with, the tile, and the two kinds of sparse store the state is made of. -/

namespace Sys2Proof

/-- A byte. -/
abbrev Byte := BitVec 8
/-- A 16-bit element of a tile. -/
abbrev Elem := BitVec 16
/-- A 64-bit scalar word. -/
abbrev Word := BitVec 64
/-- A vector tile: 16 rows of 64 elements of 16 bits; element (i, j) is bits [16(64i + j) + 15 : 16(64i + j)] (R16, R26). -/
abbrev Tile := BitVec 16384
/-- A sparse file of values by number; a number that is not listed holds the file's default value. -/
abbrev Sparse (α : Type) := List (Nat × α)

end Sys2Proof
end

