-- ==== Sys2Proof/Machine/Map.lean ====
section
/-! DEFINITION. Sparse stores: reading and writing a number-keyed file, and byte memory in one canonical form. -/

namespace Sys2Proof.Machine

/-- The value at number `k`: the first entry of that number, or the default `d`. -/
def look {α : Type} (d : α) : Sparse α → Nat → α
  | [], _ => d
  | (k', v) :: r, k => if k' = k then v else look d r k

/-- Enters `v` at number `k`, keeping the numbers in rising order. -/
def put {α : Type} : Sparse α → Nat → α → Sparse α
  | [], k, v => [(k, v)]
  | (k', v') :: r, k, v =>
    if k' = k then (k, v) :: r
    else if k < k' then (k, v) :: (k', v') :: r
    else (k', v') :: put r k v

/-- Removes number `k`. -/
def del {α : Type} (m : Sparse α) (k : Nat) : Sparse α := m.filter (fun p => p.1 != k)

/-- Writes `v` at number `k`; writing the default removes the entry, so equal files are equal lists. -/
def setv {α : Type} [DecidableEq α] (d : α) (m : Sparse α) (k : Nat) (v : α) : Sparse α :=
  if v = d then del m k else put m k v

/-- A sparse file in canonical form: strictly rising numbers, no entry equal to the default. -/
def canon {α : Type} [DecidableEq α] (d : α) (m : Sparse α) : Bool :=
  decide (m.Pairwise (fun p q => p.1 < q.1)) && m.all (fun p => decide (p.2 ≠ d))

/-- Byte memory: (address, byte) pairs in canonical form. An address that is not listed reads as zero
(DESIGN CHOICE, notes/assumptions/3.md; for a scratchpad way taken from the cache state it is R199's zero fill). -/
abbrev Memory := Sparse (BitVec 8)

/-- The canonical form of memory. -/
def Memory.wf (m : Memory) : Bool := canon 0#8 m

/-- The byte at address `a`. -/
def memByte (m : Memory) (a : Nat) : BitVec 8 := look 0#8 m a

/-- Stores one byte. -/
def memPut (m : Memory) (a : Nat) (b : BitVec 8) : Memory := setv 0#8 m a b

/-- `n` bytes from address `a`, as a little-endian number (R5). -/
def memNat (m : Memory) (a : Nat) : Nat → Nat
  | 0 => 0
  | n + 1 => (memByte m a).toNat + 256 * memNat m (a + 1) n

/-- Stores the low `n` bytes of `v` at address `a`, little-endian (R5). -/
def memPutNat (m : Memory) (a : Nat) : Nat → Nat → Memory
  | 0, _ => m
  | n + 1, v => memPutNat (memPut m a (BitVec.ofNat 8 v)) (a + 1) n (v / 256)

end Sys2Proof.Machine
end

