-- ==== Sys2Proof/Machine/Bits.lean ====
section
/-! DEFINITION. Bit fields, sign extension, and the elements of a tile. -/

namespace Sys2Proof.Machine

/-- Bits [lo + len − 1 : lo] of a number. -/
def fld (w lo len : Nat) : Nat := w / 2 ^ lo % 2 ^ len

/-- Bit `i` of a number. -/
def bitAt (w i : Nat) : Bool := w / 2 ^ i % 2 == 1

/-- A number read as two's complement at width `w`. -/
def toSigned (w x : Nat) : Int := if x % 2 ^ w < 2 ^ (w - 1) then (x % 2 ^ w : Nat) else (x % 2 ^ w : Nat) - (2 ^ w : Nat)

/-- The low `w` bits of an integer (R29: a wrapped result). -/
def wrapInt (w : Nat) (x : Int) : Nat := (x % (2 ^ w : Nat)).toNat

/-- The low `n` bits of `x`, sign-extended to 64 bits. -/
def sext64 (n x : Nat) : Nat := wrapInt 64 (toSigned n x)

/-- Number of ones in the low `n` bits. -/
def popcount : Nat → Nat → Nat
  | 0, _ => 0
  | n + 1, x => x % 2 + popcount n (x / 2)

/-- Leading zeros of `x` at width `w`; `w` when `x` is zero. -/
def leadZeros (w x : Nat) : Nat := if x % 2 ^ w = 0 then w else w - 1 - Nat.log2 (x % 2 ^ w)

/-- Trailing zeros of `x` at width `w`; `w` when `x` is zero. -/
def trailZeros : Nat → Nat → Nat
  | 0, _ => 0
  | n + 1, x => if x % 2 = 1 then 0 else 1 + trailZeros n (x / 2)

/-- Bitwise complement at width `w`. -/
def notBits (w x : Nat) : Nat := 2 ^ w - 1 - x % 2 ^ w

/-- Element `k` (row-major) of a tile. -/
def elemAt (t : Tile) (k : Nat) : Nat := t.toNat >>> (16 * k) % 65536

/-- A number packed from 16-bit elements, the first lowest. -/
def packElems : List Nat → Nat
  | [] => 0
  | e :: r => e % 65536 + 65536 * packElems r

/-- The tile of 1,024 elements given by row-major position. -/
def tileOf (f : Nat → Nat) : Tile := BitVec.ofNat 16384 (packElems ((List.range 1024).map f))

/-- The tile whose every element is `e`. -/
def tileSplat (e : Nat) : Tile := tileOf (fun _ => e)

/-- Row `i` of a tile as 128 bytes. -/
def tileRow (t : Tile) (i : Nat) : Nat := t.toNat / 2 ^ (1024 * i) % 2 ^ 1024

/-- A tile from its rows. -/
def packRows : List Nat → Nat
  | [] => 0
  | r :: rest => r % 2 ^ 1024 + 2 ^ 1024 * packRows rest

/-- Value `k` of a pair of tiles: the low tile's element in [15:0], the high tile's in [31:16] (R28). -/
def pairAt (lo hi : Tile) (k : Nat) : Nat := elemAt lo k + 65536 * elemAt hi k

end Sys2Proof.Machine
end

