-- ==== Sys2Proof/Syntax.lean ====
section
/-! DEFINITION. The operations and events of the Kredom: one constructor per row of spec/opcode_table.json.
Slot instructions carry the fields of their encodings (spec/03_bundles.md to 11_content_named.md); events carry the
context, core, queue or port they are of, and what the outside supplies. Field numbers are plain numbers, bounded by WellFormed. -/

namespace Sys2Proof

/-- Fields of an sa trigger (Tables 3.7 and 6.1): trigger source, operand source, 32-bit width, write condition, condition number. -/
structure SaOps where
  t : Nat
  o : Nat
  w : Bool
  wc : Bool
  k : Nat
  deriving DecidableEq, Repr

/-- Fields of an ag trigger: `sub` is the shift of `lea` or the loop level of `aff` (Table 3.7). -/
structure AgOps where
  t : Nat
  o : Nat
  sub : Nat
  deriving DecidableEq, Repr

/-- Fields of an ls trigger: ordering, scope and landing class (Table 3.7); a reduction reads `ord` as release and size (R207). -/
structure LsOps where
  t : Nat
  o : Nat
  ord : Nat
  scope : Nat
  lnd : Nat
  deriving DecidableEq, Repr

/-- Fields of a va0 or va1 trigger of class 0x2: `u` is 0 for va0 and 1 for va1 (Table 3.7). -/
structure VaOps where
  u : Nat
  t : Nat
  o : Nat
  fmt : Nat
  sat : Bool
  rnd : Nat
  mask : Bool
  deriving DecidableEq, Repr

/-- Fields of a va0 or va1 trigger of class 0x3, with its 8-bit immediate (R60). -/
structure VaImmOps where
  u : Nat
  t : Nat
  o : Nat
  imm : Nat
  deriving DecidableEq, Repr

/-- Fields of a vp or vf trigger of class 0x2 (Table 3.7). -/
structure VpOps where
  t : Nat
  o : Nat
  fmt : Nat
  sat : Bool
  rnd : Nat
  mask : Bool
  deriving DecidableEq, Repr

/-- Fields of a vp trigger of class 0x3. -/
structure VpImmOps where
  t : Nat
  o : Nat
  imm : Nat
  deriving DecidableEq, Repr

/-- Fields of a vc trigger: modifier [7:4] and [3:0] (Table 7.8). -/
structure VcOps where
  t : Nat
  o : Nat
  hi : Nat
  lo : Nat
  deriving DecidableEq, Repr

/-- Fields of a matrix slot (R69, R179): bank, tile or edge; descriptor; flags; tokens; K − 1; landing. -/
structure MxOps where
  zb : Nat
  md : Nat
  ta : Bool
  tb : Bool
  acc : Bool
  inc : Bool
  gth : Bool
  cmode : Nat
  stg : Bool
  tout : Nat
  tin0 : Nat
  tin1 : Nat
  tin2 : Nat
  kk : Nat
  land : Nat
  deriving DecidableEq, Repr

/-- Fields of a copy slot (R70): pattern register, counter register, tokens, step tag, scope, fill select, method override. -/
structure CpOps where
  cp : Nat
  a : Nat
  tout : Nat
  tin0 : Nat
  tin1 : Nat
  tin2 : Nat
  stg : Bool
  scope : Nat
  fill : Bool
  method : Nat
  deriving DecidableEq, Repr

/-- One constructor per row of the table of operations and events. -/
inductive Instr where
  /-- BUNDLE_ISSUE (R58): A context issues one whole bundle: its index word or literal is decoded and every slot takes effect, or none does if a slot cannot issue or traps. -/
  | bundleIssue (c : Nat)
  /-- COPY_MOVE (R60): Copies the value of a source name into a destination name under the kind rules of Table 3.6. -/
  | copyMove (dst src : Nat)
  /-- IMMEDIATE_MOVE (R60): Writes a 32-bit immediate into a destination, sign-extended, zero-extended or broadcast by kind. -/
  | immediateMove (dst imm : Nat)
  /-- SA_ADD (R110): Scalar add modulo 2^W. -/
  | saAdd (o : SaOps)
  /-- SA_SUB (R110): Scalar subtract modulo 2^W. -/
  | saSub (o : SaOps)
  /-- SA_MUL (R110): Low W bits of the product. -/
  | saMul (o : SaOps)
  /-- SA_MULH (R110): High W bits of the signed product. -/
  | saMulh (o : SaOps)
  /-- SA_MULHC (R110): High W bits of the unsigned product. -/
  | saMulhc (o : SaOps)
  /-- SA_DIV (R48): Signed divide rounded toward zero, trapping DIV0 or returning all ones by fpctl.ediv. -/
  | saDiv (o : SaOps)
  /-- SA_DIVC (R48): Unsigned divide rounded toward zero. -/
  | saDivc (o : SaOps)
  /-- SA_REM (R48): Signed remainder with the sign of the dividend. -/
  | saRem (o : SaOps)
  /-- SA_REMC (R48): Unsigned remainder. -/
  | saRemc (o : SaOps)
  /-- SA_AND (R110): Bitwise and. -/
  | saAnd (o : SaOps)
  /-- SA_OR (R110): Bitwise or. -/
  | saOr (o : SaOps)
  /-- SA_XOR (R110): Bitwise exclusive-or. -/
  | saXor (o : SaOps)
  /-- SA_ANDN (R110): T and not O. -/
  | saAndn (o : SaOps)
  /-- SA_SHL (R110): Shift left by O mod W. -/
  | saShl (o : SaOps)
  /-- SA_SHR (R110): Logical shift right by O mod W. -/
  | saShr (o : SaOps)
  /-- SA_SRA (R110): Arithmetic shift right by O mod W. -/
  | saSra (o : SaOps)
  /-- SA_ROTL (R110): Rotate left by O mod W. -/
  | saRotl (o : SaOps)
  /-- SA_MIN (R110): Signed minimum. -/
  | saMin (o : SaOps)
  /-- SA_MAX (R110): Signed maximum. -/
  | saMax (o : SaOps)
  /-- SA_MINC (R110): Unsigned minimum. -/
  | saMinc (o : SaOps)
  /-- SA_MAXC (R110): Unsigned maximum. -/
  | saMaxc (o : SaOps)
  /-- SA_CMPEQ (R110): 1 if T equals O, else 0. -/
  | saCmpeq (o : SaOps)
  /-- SA_CMPNE (R110): 1 if T differs from O, else 0. -/
  | saCmpne (o : SaOps)
  /-- SA_CMPLT (R110): 1 if T < O signed. -/
  | saCmplt (o : SaOps)
  /-- SA_CMPLE (R110): 1 if T <= O signed. -/
  | saCmple (o : SaOps)
  /-- SA_CMPLTC (R110): 1 if T < O unsigned. -/
  | saCmpltc (o : SaOps)
  /-- SA_CMPLEC (R110): 1 if T <= O unsigned. -/
  | saCmplec (o : SaOps)
  /-- SA_SEL (R110): Selects T or O by a condition register. -/
  | saSel (o : SaOps)
  /-- SA_CLZ (R110): Count of leading zeros of T. -/
  | saClz (o : SaOps)
  /-- SA_CTZ (R110): Count of trailing zeros of T. -/
  | saCtz (o : SaOps)
  /-- SA_POPC (R110): Count of ones of T. -/
  | saPopc (o : SaOps)
  /-- SA_BEXT (R110): Extracts a bit field of T. -/
  | saBext (o : SaOps)
  /-- SA_BINS (R110): Inserts bits of o2 into a field of T. -/
  | saBins (o : SaOps)
  /-- SA_SEXT (R110): Sign-extends the low n bits of T. -/
  | saSext (o : SaOps)
  /-- SA_ZEXT (R110): Zero-extends the low n bits of T. -/
  | saZext (o : SaOps)
  /-- SA_MOV (R110): Delivers T to sa.r. -/
  | saMov (o : SaOps)
  /-- SA_FADD (R111): f32 sum of the low halves of T and O. -/
  | saFadd (o : SaOps)
  /-- SA_FMUL (R111): f32 product. -/
  | saFmul (o : SaOps)
  /-- SA_FDIV (R111): f32 quotient. -/
  | saFdiv (o : SaOps)
  /-- SA_FCVT (R111): Converts T between the formats named in O. -/
  | saFcvt (o : SaOps)
  /-- SA_FCMP (R110): f32 comparison giving less, equal, greater and unordered bits. -/
  | saFcmp (o : SaOps)
  /-- AG_LEA (R112): T plus O shifted left by 0-7. -/
  | agLea (o : AgOps)
  /-- AG_AFF (R112): T plus a loop index times O. -/
  | agAff (o : AgOps)
  /-- AG_BOUND (R112): Passes T when below O unsigned, otherwise traps with cause bound. -/
  | agBound (o : AgOps)
  /-- AG_SPA (R112): Forms a cluster scratchpad address. -/
  | agSpa (o : AgOps)
  /-- AG_GVA (R112): Forms a peer global address from the window base in o2. -/
  | agGva (o : AgOps)
  /-- AG_ADDS (R112): T plus O. -/
  | agAdds (o : AgOps)
  /-- LD_B (R210): Loads 1 byte zero-extended. -/
  | ldB (o : LsOps)
  /-- LD_H (R210): Loads 2 bytes zero-extended. -/
  | ldH (o : LsOps)
  /-- LD_W (R210): Loads 4 bytes zero-extended. -/
  | ldW (o : LsOps)
  /-- LD_D (R210): Loads 8 bytes. -/
  | ldD (o : LsOps)
  /-- LD_Q (R210): Loads 16 bytes. -/
  | ldQ (o : LsOps)
  /-- LDS_B (R210): Loads 1 byte sign-extended. -/
  | ldsB (o : LsOps)
  /-- LDS_H (R210): Loads 2 bytes sign-extended. -/
  | ldsH (o : LsOps)
  /-- LDS_W (R210): Loads 4 bytes sign-extended. -/
  | ldsW (o : LsOps)
  /-- ST_B (R210): Stores 1 byte. -/
  | stB (o : LsOps)
  /-- ST_H (R210): Stores 2 bytes. -/
  | stH (o : LsOps)
  /-- ST_W (R210): Stores 4 bytes. -/
  | stW (o : LsOps)
  /-- ST_D (R210): Stores 8 bytes. -/
  | stD (o : LsOps)
  /-- ST_Q (R210): Stores 16 bytes. -/
  | stQ (o : LsOps)
  /-- VLD (R211): Loads a tile of 16 rows from window addresses with a pitch. -/
  | vld (o : LsOps)
  /-- VST (R211): Stores a tile of 16 rows to window addresses with a pitch. -/
  | vst (o : LsOps)
  /-- VLDG (R211): Loads a tile from virtual addresses. -/
  | vldg (o : LsOps)
  /-- VSTG (R211): Stores a tile to virtual addresses. -/
  | vstg (o : LsOps)
  /-- VLDX (R212): Loads a tile with per-row offsets. -/
  | vldx (o : LsOps)
  /-- VSTX (R212): Stores a tile with per-row offsets. -/
  | vstx (o : LsOps)
  /-- AMO_ADD_W (R213): Atomic 4-byte add returning the old value. -/
  | amoAddW (o : LsOps)
  /-- AMO_MIN_W (R213): Atomic 4-byte signed minimum. -/
  | amoMinW (o : LsOps)
  /-- AMO_MAX_W (R213): Atomic 4-byte signed maximum. -/
  | amoMaxW (o : LsOps)
  /-- AMO_MINC_W (R213): Atomic 4-byte unsigned minimum. -/
  | amoMincW (o : LsOps)
  /-- AMO_MAXC_W (R213): Atomic 4-byte unsigned maximum. -/
  | amoMaxcW (o : LsOps)
  /-- AMO_AND_W (R213): Atomic 4-byte and. -/
  | amoAndW (o : LsOps)
  /-- AMO_OR_W (R213): Atomic 4-byte or. -/
  | amoOrW (o : LsOps)
  /-- AMO_XOR_W (R213): Atomic 4-byte exclusive-or. -/
  | amoXorW (o : LsOps)
  /-- AMO_XCHG_W (R213): Atomic 4-byte exchange. -/
  | amoXchgW (o : LsOps)
  /-- AMO_CAS_W (R213): Atomic 4-byte compare-and-swap. -/
  | amoCasW (o : LsOps)
  /-- AMO_FADD_W (R213): Atomic f32 add on one lane. -/
  | amoFaddW (o : LsOps)
  /-- AMO_INCW_W (R213): Atomic 4-byte wrapping increment. -/
  | amoIncwW (o : LsOps)
  /-- AMO_ADD_D (R213): Atomic 8-byte add. -/
  | amoAddD (o : LsOps)
  /-- AMO_MIN_D (R213): Atomic 8-byte signed minimum. -/
  | amoMinD (o : LsOps)
  /-- AMO_MAX_D (R213): Atomic 8-byte signed maximum. -/
  | amoMaxD (o : LsOps)
  /-- AMO_MINC_D (R213): Atomic 8-byte unsigned minimum. -/
  | amoMincD (o : LsOps)
  /-- AMO_MAXC_D (R213): Atomic 8-byte unsigned maximum. -/
  | amoMaxcD (o : LsOps)
  /-- AMO_AND_D (R213): Atomic 8-byte and. -/
  | amoAndD (o : LsOps)
  /-- AMO_OR_D (R213): Atomic 8-byte or. -/
  | amoOrD (o : LsOps)
  /-- AMO_XOR_D (R213): Atomic 8-byte exclusive-or. -/
  | amoXorD (o : LsOps)
  /-- AMO_XCHG_D (R213): Atomic 8-byte exchange. -/
  | amoXchgD (o : LsOps)
  /-- AMO_CAS_D (R213): Atomic 8-byte compare-and-swap. -/
  | amoCasD (o : LsOps)
  /-- AMO_FADD_D (R213): Atomic f32 add on two lanes. -/
  | amoFaddD (o : LsOps)
  /-- AMO_INCW_D (R213): Atomic 8-byte wrapping increment. -/
  | amoIncwD (o : LsOps)
  /-- AMO_CAS_Q (R213): Atomic 16-byte compare-and-swap. -/
  | amoCasQ (o : LsOps)
  /-- RED_ADD (R215): Signed atomic add with no result. -/
  | redAdd (o : LsOps)
  /-- RED_MIN (R215): Signed atomic minimum with no result. -/
  | redMin (o : LsOps)
  /-- RED_MAX (R215): Signed atomic maximum with no result. -/
  | redMax (o : LsOps)
  /-- RED_AND (R215): Atomic and with no result. -/
  | redAnd (o : LsOps)
  /-- RED_OR (R215): Atomic or with no result. -/
  | redOr (o : LsOps)
  /-- RED_XOR (R215): Atomic exclusive-or with no result. -/
  | redXor (o : LsOps)
  /-- RED_FADD (R215): Atomic f32 lane add with no result. -/
  | redFadd (o : LsOps)
  /-- RED_FADDH (R215): Atomic f16 lane add with no result. -/
  | redFaddh (o : LsOps)
  /-- VA_ADD (R140): Element-wise integer add with wrap or saturate. -/
  | vaAdd (o : VaOps)
  /-- VA_SUB (R140): Element-wise integer subtract. -/
  | vaSub (o : VaOps)
  /-- VA_MUL (R140): Element-wise integer multiply. -/
  | vaMul (o : VaOps)
  /-- VA_MULH (R140): High half of the element product. -/
  | vaMulh (o : VaOps)
  /-- VA_MULHR (R140): Rounded fixed-point product. -/
  | vaMulhr (o : VaOps)
  /-- VA_MAD (R140): Element multiply-add with operand port 2. -/
  | vaMad (o : VaOps)
  /-- VA_ABS (R140): Element absolute value. -/
  | vaAbs (o : VaOps)
  /-- VA_NEG (R140): Element negation. -/
  | vaNeg (o : VaOps)
  /-- VA_MIN (R140): Element minimum. -/
  | vaMin (o : VaOps)
  /-- VA_MAX (R140): Element maximum. -/
  | vaMax (o : VaOps)
  /-- VA_AVG (R140): Rounded element average. -/
  | vaAvg (o : VaOps)
  /-- VA_ABSD (R140): Element absolute difference. -/
  | vaAbsd (o : VaOps)
  /-- VA_AND (R142): Bitwise and of tiles. -/
  | vaAnd (o : VaOps)
  /-- VA_OR (R142): Bitwise or of tiles. -/
  | vaOr (o : VaOps)
  /-- VA_XOR (R142): Bitwise exclusive-or of tiles. -/
  | vaXor (o : VaOps)
  /-- VA_NOT (R142): Bitwise not of T. -/
  | vaNot (o : VaOps)
  /-- VA_LUT3 (R142): Three-input bitwise function given by an 8-bit immediate. -/
  | vaLut3 (o : VaImmOps)
  /-- VA_SHL (R140): Element shift left. -/
  | vaShl (o : VaOps)
  /-- VA_SHR (R140): Element logical shift right. -/
  | vaShr (o : VaOps)
  /-- VA_SRA (R140): Element arithmetic shift right. -/
  | vaSra (o : VaOps)
  /-- VA_SHLR (R140): Element rounding shift right. -/
  | vaShlr (o : VaOps)
  /-- VA_FSHL (R143): Funnel shift left with per-element amounts from operand port 2. -/
  | vaFshl (o : VaOps)
  /-- VA_FSHL_IMM (R143): Funnel shift left by an immediate amount. -/
  | vaFshlImm (o : VaImmOps)
  /-- VA_FSHR (R143): Funnel shift right with per-element amounts from operand port 2. -/
  | vaFshr (o : VaOps)
  /-- VA_FSHR_IMM (R143): Funnel shift right by an immediate amount. -/
  | vaFshrImm (o : VaImmOps)
  /-- VA_CMPEQ (R144): Element equality mask. -/
  | vaCmpeq (o : VaOps)
  /-- VA_CMPNE (R144): Element inequality mask. -/
  | vaCmpne (o : VaOps)
  /-- VA_CMPLT (R144): Element less-than mask. -/
  | vaCmplt (o : VaOps)
  /-- VA_CMPLE (R144): Element less-or-equal mask. -/
  | vaCmple (o : VaOps)
  /-- VA_SEL (R144): Selects T or O per element by operand port 2. -/
  | vaSel (o : VaOps)
  /-- VA_CLAMP (R144): Clamps T between O and operand port 2. -/
  | vaClamp (o : VaOps)
  /-- VA_POPC (R140): Element count of ones. -/
  | vaPopc (o : VaOps)
  /-- VA_CLZ (R140): Element count of leading zeros. -/
  | vaClz (o : VaOps)
  /-- VA_MOV (R142): Delivers T, merged under a mask. -/
  | vaMov (o : VaOps)
  /-- VA_FADD (R145): Floating element sum. -/
  | vaFadd (o : VaOps)
  /-- VA_FSUB (R145): Floating element difference. -/
  | vaFsub (o : VaOps)
  /-- VA_FMUL (R145): Floating element product. -/
  | vaFmul (o : VaOps)
  /-- VA_FMA (R145): Fused multiply-add with one rounding. -/
  | vaFma (o : VaOps)
  /-- VA_FMIN (R145): Floating element minimum. -/
  | vaFmin (o : VaOps)
  /-- VA_FMAX (R145): Floating element maximum. -/
  | vaFmax (o : VaOps)
  /-- VA_MULSH (R141): 16-bit multiply with rounding shift from the immediate. -/
  | vaMulsh (o : VaImmOps)
  /-- VP_ROTR (R146): Rotates rows right by n columns. -/
  | vpRotr (o : VpOps)
  /-- VP_ROTC (R146): Rotates columns by n rows. -/
  | vpRotc (o : VpOps)
  /-- VP_BCROW (R146): Broadcasts row n. -/
  | vpBcrow (o : VpOps)
  /-- VP_BCCOL (R146): Broadcasts column n. -/
  | vpBccol (o : VpOps)
  /-- VP_REDR_ADD (R148): Row sum broadcast along each row. -/
  | vpRedrAdd (o : VpOps)
  /-- VP_REDR_MAX (R148): Row maximum broadcast. -/
  | vpRedrMax (o : VpOps)
  /-- VP_REDR_MIN (R148): Row minimum broadcast. -/
  | vpRedrMin (o : VpOps)
  /-- VP_REDC_ADD (R148): Column sum broadcast. -/
  | vpRedcAdd (o : VpOps)
  /-- VP_REDC_MAX (R148): Column maximum broadcast. -/
  | vpRedcMax (o : VpOps)
  /-- VP_REDC_MIN (R148): Column minimum broadcast. -/
  | vpRedcMin (o : VpOps)
  /-- VP_TRN (R146): Transposes 16x16 blocks. -/
  | vpTrn (o : VpOps)
  /-- VP_PERM (R146): Permutes each row by an index tile in O. -/
  | vpPerm (o : VpOps)
  /-- VP_PERM_IMM (R147): Selects elements from two tiles by an index tile in operand port 2. -/
  | vpPermImm (o : VpImmOps)
  /-- VP_ZIP (R147): Interleaves half of the rows of T and O. -/
  | vpZip (o : VpOps)
  /-- VP_UNZIP (R147): Separates even or odd positions of T and O. -/
  | vpUnzip (o : VpOps)
  /-- VP_SHIFTR (R146): Shifts rows with zero fill. -/
  | vpShiftr (o : VpOps)
  /-- VP_SHIFTC (R146): Shifts columns with zero fill. -/
  | vpShiftc (o : VpOps)
  /-- VP_SCANR_ADD (R149): Inclusive prefix sum along rows. -/
  | vpScanrAdd (o : VpOps)
  /-- VP_SCANC_ADD (R149): Inclusive prefix sum along columns. -/
  | vpScancAdd (o : VpOps)
  /-- VF_EXP2 (R150): 2^x per value. -/
  | vfExp2 (o : VpOps)
  /-- VF_LOG2 (R150): log2 x per value. -/
  | vfLog2 (o : VpOps)
  /-- VF_RCP (R150): Reciprocal per value. -/
  | vfRcp (o : VpOps)
  /-- VF_RSQRT (R150): Reciprocal square root per value. -/
  | vfRsqrt (o : VpOps)
  /-- VF_SQRT (R150): Correctly rounded square root. -/
  | vfSqrt (o : VpOps)
  /-- VF_SINPI (R150): sin(pi x) per value. -/
  | vfSinpi (o : VpOps)
  /-- VF_COSPI (R150): cos(pi x) per value. -/
  | vfCospi (o : VpOps)
  /-- VF_TANH (R150): tanh per value. -/
  | vfTanh (o : VpOps)
  /-- VF_SIGM (R150): Logistic sigmoid per value. -/
  | vfSigm (o : VpOps)
  /-- VF_FDIV (R150): Correctly rounded T / O. -/
  | vfFdiv (o : VpOps)
  /-- VC_CVT (R154): Converts selected values between formats under cvtctl. -/
  | vcCvt (o : VcOps)
  /-- VC_CVTS (R154): Converts x/d with one rounding. -/
  | vcCvts (o : VcOps)
  /-- VC_QBLK (R155): Quantizes rows into block-scaled elements and scales. -/
  | vcQblk (o : VcOps)
  /-- VC_DQBLK (R155): Dequantizes block-scaled elements. -/
  | vcDqblk (o : VcOps)
  /-- VC_QTS8 (R156): Encodes values as canonical ts8. -/
  | vcQts8 (o : VcOps)
  /-- VC_DQTS8 (R156): Decodes ts8 exactly. -/
  | vcDqts8 (o : VcOps)
  /-- VC_UNPK10 (R157): Unpacks P10 samples. -/
  | vcUnpk10 (o : VcOps)
  /-- VC_UNPK12 (R157): Unpacks P12 samples. -/
  | vcUnpk12 (o : VcOps)
  /-- VC_UNPK14 (R157): Unpacks P14 samples. -/
  | vcUnpk14 (o : VcOps)
  /-- VC_PK10 (R157): Packs samples into P10. -/
  | vcPk10 (o : VcOps)
  /-- VC_PK12 (R157): Packs samples into P12. -/
  | vcPk12 (o : VcOps)
  /-- VC_PK14 (R157): Packs samples into P14. -/
  | vcPk14 (o : VcOps)
  /-- VC_SWAP16 (R157): Swaps the bytes of every element. -/
  | vcSwap16 (o : VcOps)
  /-- MSTEP (R180): Queues a step of A and B edges into a bank. -/
  | mstep (o : MxOps)
  /-- MSTEP_G (R180): Queues a step with a gathered A edge. -/
  | mstepG (o : MxOps)
  /-- MPRE (R170): Loads the B edge as the stationary operand. -/
  | mpre (o : MxOps)
  /-- MSTEP_WS (R180): Steps A against the stationary operand. -/
  | mstepWs (o : MxOps)
  /-- MFIN (R182): Drains a bank into a z tile with scaling and optional accumulation. -/
  | mfin (o : MxOps)
  /-- MZERO (R180): Zeros a z tile. -/
  | mzero (o : MxOps)
  /-- MCORR (R180): Computes and installs an edge's corrections, optionally writing a record. -/
  | mcorr (o : MxOps)
  /-- MCLD (R180): Installs a correction record under an edge's tag. -/
  | mcld (o : MxOps)
  /-- MCINV (R180): Invalidates correction-cache entries. -/
  | mcinv (o : MxOps)
  /-- MSCL (R180): Loads a bank's row and column scales. -/
  | mscl (o : MxOps)
  /-- CPY (R227): Copies a nest from source to destination. -/
  | cpy (o : CpOps)
  /-- CPYF (R226): Expands a Flume stream into a destination nest. -/
  | cpyf (o : CpOps)
  /-- CPYT (R228): Copies a nest converting each element. -/
  | cpyt (o : CpOps)
  /-- LBLK (R230): Allocates and locks a load-block. -/
  | lblk (o : CpOps)
  /-- EBLK (R230): Evicts a load-block. -/
  | eblk (o : CpOps)
  /-- PUT (R227): Copies to a remote destination whose agent adds the counter. -/
  | put (o : CpOps)
  /-- SREAD (R232): Reads logical blocks from storage into a nest. -/
  | sread (o : CpOps)
  /-- SWRITE (R232): Writes a nest to storage logical blocks. -/
  | swrite (o : CpOps)
  /-- CFILL (R227): Fills every destination element. -/
  | cfill (o : CpOps)
  /-- XCPY (R231): Copies over the vertical path between divisible arrays. -/
  | xcpy (o : CpOps)
  /-- NPUT (R252): Names lines by lookup-or-allocate in the region. -/
  | nput (o : CpOps)
  /-- NGET (R253): Writes the lines of names. -/
  | nget (o : CpOps)
  /-- NREF (R254): Increments the counts of names. -/
  | nref (o : CpOps)
  /-- NREL (R254): Decrements the counts of names, freeing at zero. -/
  | nrel (o : CpOps)
  /-- NSWAP (R255): Atomically compares and swaps a root slot with count changes. -/
  | nswap (o : CpOps)
  /-- NOUT (R256): Writes the leaves of a tree. -/
  | nout (o : CpOps)
  /-- NSTAT (R257): Writes status results for names. -/
  | nstat (o : CpOps)
  /-- BR (R114): Unconditional branch. -/
  | br (off : Nat)
  /-- BRK (R114): Branch on a condition register. -/
  | brk (off k : Nat) (sense : Bool)
  /-- CALL (R114): Branch writing the link in s62. -/
  | call (off : Nat)
  /-- JMP (R114): Branch to a register, optionally linking. -/
  | jmp (src : Nat) (link : Bool)
  /-- LOOP (R115): Pushes a hardware loop level or skips when the count is zero. -/
  | loop (cnt off : Nat) (imm : Bool)
  /-- LBRK (R116): Pops loop levels and branches to the exit. -/
  | lbrk (n : Nat) (cond sense : Bool) (k : Nat)
  /-- TWAIT (R117): Waits for tokens to be set. -/
  | twait (src : Nat) (soft : Bool)
  /-- CWAIT (R118): Waits for a counter to reach a value. -/
  | cwait (a sreg scope : Nat)
  /-- FENCE (R120): Orders earlier and later accesses at a scope. -/
  | fence (kind scope : Nat)
  /-- FMTW (R121): Writes mfmt, cvtctl or fpctl under the shadow. -/
  | fmtw (reg src : Nat)
  /-- SGET (R122): Reads a system register into a scalar. -/
  | sget (dst sys : Nat)
  /-- SGET_FPSTAT (R51): Reads fpstat after running on until earlier flag-raising operations land. -/
  | sgetFpstat (dst : Nat)
  /-- SSET (R122): Writes a system register that has no row of its own. -/
  | sset (src sys : Nat)
  /-- SSET_SPLIT (R199): Writes split, converting ways between cache and scratchpad. -/
  | ssetSplit (src : Nat)
  /-- SSET_DICT (R56): Writes the dictionary window. -/
  | ssetDict (src : Nat)
  /-- SSET_VWIN (R133): Writes the vector window. -/
  | ssetVwin (src : Nat)
  /-- SSET_NREG (R241): Selects the content-named region. -/
  | ssetNreg (src : Nat)
  /-- SSET_LDEPTH (R123): Writes the loop-stack depth. -/
  | ssetLdepth (src : Nat)
  /-- FPSTAT_CLEAR (R51): Writing 1 to an fpstat flag clears it. -/
  | fpstatClear (src : Nat)
  /-- GMSET (R124): Writes a group-mask register. -/
  | gmset (g n : Nat)
  /-- BACQ (R127): Acquires ways once they are released or free. -/
  | bacq (mask : Nat)
  /-- BREL (R127): Releases owned ways. -/
  | brel (mask : Nat)
  /-- QPUSH (R128): Pushes a packet into a device-side queue. -/
  | qpush (a sreg : Nat) (nb : Bool)
  /-- TRAP (R130): Raises a software trap after the bundle. -/
  | trap (code : Nat)
  /-- CWB (R132): Writes back lines of a range to L2. -/
  | cwb (a sreg : Nat)
  /-- IINV (R132): Invalidates dictionary and index-word entries of a range. -/
  | iinv (a sreg : Nat)
  /-- BRKP (R130): Raises a breakpoint trap after the bundle. -/
  | brkp (code : Nat)
  /-- TOKC (R119): Clears error bits of completed tokens. -/
  | tokc (src : Nat)
  /-- MX_NOP (R72): Matrix slot does nothing. -/
  | mxNop
  /-- CP_NOP (R72): Copy slot does nothing. -/
  | cpNop
  /-- CT_NOP (R72): Control slot does nothing. -/
  | ctNop
  /-- RET (R114): Branch to s62. -/
  | ret
  /-- DRAIN (R120): Waits for earlier remote accesses to complete. -/
  | drain
  /-- XFENCE (R120): Waits for earlier xcpy writes and makes them visible. -/
  | xfence
  /-- HALT (R129): Ends the context after its bundle. -/
  | halt
  /-- TRET (R298): Returns one trap level. -/
  | tret
  /-- PPT (R130): Marks the point after the bundle as a pre-emption point. -/
  | ppt
  /-- FSYNC (R132): Waits for earlier cwb and iinv and discards the fetch path. -/
  | fsync
  /-- EWAIT (R119): Waits for every earlier engine instruction and sets k15. -/
  | ewait
  /-- YIELD (R131): Passes the context's turn. -/
  | yield
  /-- FU_RESULT_LAND (R77): An FU result lands in its result port at its landing cycle and ORs its flags. -/
  | fuResultLand (c n : Nat)
  /-- LANDING_DUE (R80): A landing access reaches its due cycle: data land, or the context freezes until they arrive. -/
  | landingDue (c n : Nat)
  /-- LANDING_DATA_ARRIVAL (R80): Data of a landing access arrive in the landing buffer, and a frozen context resumes. -/
  | landingDataArrival (c n : Nat) (err : Bool)
  /-- SLACK_EXPIRE (R83): The stall's slack cycles run out and the context stops holding the issue. -/
  | slackExpire (c : Nat)
  /-- STARVATION_ISSUE (R86): A context ready and unissued for 4,096 cycles issues one bundle. -/
  | starvationIssue (c : Nat)
  /-- YIELD_EXPIRE (R131): A yield ends after 64 cycles. -/
  | yieldExpire (c : Nat)
  /-- FORMAT_SHADOW_END (R88): A write to mfmt, cvtctl or fpctl takes effect at the third bundle after it. -/
  | formatShadowEnd (c : Nat)
  /-- DICT_REFILL_COMPLETE (R57): An invalid dictionary entry is refilled from its recorded address, or the fetch faults. -/
  | dictRefillComplete (core n : Nat)
  /-- PAGE_WALK_COMPLETE (R320): A page walk returns a translation or a fault. -/
  | pageWalkComplete (core n : Nat)
  /-- MATRIX_ENGINE_START (R186): A queued matrix instruction starts when its stage is free, its token-ins are set and no hazard remains. -/
  | matrixEngineStart (core n : Nat)
  /-- MATRIX_COMPLETE (R180): A matrix instruction's effects perform and its token is set, with any engine fault recorded. -/
  | matrixComplete (core n : Nat)
  /-- COPY_ENGINE_START (R224): A copy or named-line instruction starts in the Sluice once its token-ins are set. -/
  | copyEngineStart (core n : Nat)
  /-- FLUME_BLOCK (R235): The Flume checks and expands one block of a stream. -/
  | flumeBlock (core n : Nat)
  /-- COPY_COMPLETE (R222): A copy-engine instruction finishes: counter added, token set, or fault recorded. -/
  | copyComplete (core n : Nat)
  /-- RECLAIM_DECREMENT (R249): The reclaimer performs one pending child decrement. -/
  | reclaimDecrement (r n : Nat)
  /-- ORDINAL_RELEASE (R249): A freed ordinal becomes allocatable once its cached copies are invalidated. -/
  | ordinalRelease (r n : Nat)
  /-- NVME_COMPLETION (R360): A storage command completes and its copy's data are delivered when all its commands succeed. -/
  | nvmeCompletion (n status : Nat) (data : List Nat)
  /-- STORAGE_TIMEOUT (R360): A command with no completion within SLIM ends its copy with cause 0x58. -/
  | storageTimeout (n : Nat)
  /-- TWAIT_COMPLETE (R117): Waited tokens are set: the wait completes, or traps ENGF or sets k15. -/
  | twaitComplete (c : Nat)
  /-- CWAIT_COMPLETE (R118): A write makes the counter condition true and the wait ends as an acquire. -/
  | cwaitComplete (c : Nat)
  /-- DRAIN_COMPLETE (R120): Every earlier remote access has completed and the context resumes. -/
  | drainComplete (c : Nat)
  /-- XFENCE_COMPLETE (R120): Earlier xcpy instructions have completed and the context resumes. -/
  | xfenceComplete (c : Nat)
  /-- SPLIT_CONVERT (R199): After earlier accesses perform, ways are written back, zeroed or dropped and split takes the new value. -/
  | splitConvert (c : Nat)
  /-- BACQ_GRANT (R127): The requested ways are free and are taken into split in one step. -/
  | bacqGrant (c : Nat)
  /-- QPUSH_SLOT_FREE (R128): A blocking qpush finds a free slot and pushes. -/
  | qpushSlotFree (c : Nat)
  /-- FSYNC_COMPLETE (R132): Earlier cwb and iinv have completed and fetch restarts. -/
  | fsyncComplete (c : Nat)
  /-- EWAIT_COMPLETE (R119): Earlier engine instructions have completed and the wait ends. -/
  | ewaitComplete (c : Nat)
  /-- WEIR_ARRIVE (R125): After earlier remote and xcpy work completes, the context arrives at its barrier as a release. -/
  | weirArrive (c : Nat)
  /-- WEIR_RELEASE (R125): All named participants have arrived and the waiting context is released as an acquire. -/
  | weirRelease (c : Nat)
  /-- SUPERSTEP_RELEASE (R126): A step barrier releases once step-tagged copies complete, incrementing wstep. -/
  | superstepRelease (c : Nat)
  /-- TRAP_ENTRY (R295): After in-flight writes land, the context enters the next trap level or is killed. -/
  | trapEntry (c : Nat)
  /-- PREEMPT_SAVE (R305): After its writes land and matrix work completes, the context's state is saved and ways handed over. -/
  | preemptSave (c : Nat)
  /-- PREEMPT_DEADLINE (R306): A pre-emption that has not landed by its deadline kills the context with cause 0x14. -/
  | preemptDeadline (c : Nat)
  /-- JOB_RESUME (R309): A pre-empted job is resumed whole and its state and ways restored. -/
  | jobResume (j : Nat)
  /-- QUEUE_ENABLE (R340): Writing QCTL.en = 1 sets the queue RUNNING. -/
  | queueEnable (q : Nat)
  /-- QUEUE_DISABLE (R340): Writing QCTL.en = 0 sets the queue DISABLED. -/
  | queueDisable (q : Nat)
  /-- QUEUE_RESET (R340): Writing QCTL.rst = 1 disables the queue and discards untaken packets. -/
  | queueReset (q : Nat)
  /-- REGION_INSTALL_REQUEST (R365): Writing req = 1 asks the Miller to install a region. -/
  | regionInstallRequest (r : Nat)
  /-- REGION_REMOVE_REQUEST (R365): Writing req = 0 asks for removal of a region. -/
  | regionRemoveRequest (r : Nat)
  /-- REGION_REMOVE (R240): The region is removed once no bound job holds it. -/
  | regionRemove (r : Nat)
  /-- EVRD_WRITE (R352): The host advances the event-ring read index, freeing room. -/
  | evrdWrite (v : Nat)
  /-- ATTEST_REQUEST (R363): The host writes a nonce and requests a signed attestation report. -/
  | attestRequest (nonce : List Nat)
  /-- BAR0_WRITE (R337): A host write to a BAR0 register that has no row of its own. -/
  | bar0Write (off size val : Nat)
  /-- PACKET_VALIDATE (R342): Once a head packet is fully published the Miller checks it; a bad packet puts the queue in ERROR. -/
  | packetValidate (q : Nat)
  /-- LAUNCH (R345): A launch packet whose waits hold asks to bind a job. -/
  | launch (q : Nat)
  /-- JOB_BIND (R353): With enough free places the Miller loads the code objects and binds the job's contexts. -/
  | jobBind (j : Nat)
  /-- WAIT (R343): A packet that completes when its waits hold. -/
  | wait (q : Nat)
  /-- SIGNAL (R343): A packet that completes when it starts. -/
  | signal (q : Nat)
  /-- NODE (R348): Accepts a node into the task graph. -/
  | node (q : Nat)
  /-- NODE_RUN (R348): A defined node whose count reaches zero has its work validated and dispatched. -/
  | nodeRun (id : Nat)
  /-- COPY (R347): The Miller's copy engine copies bytes, optionally through its Flume. -/
  | copy (q : Nat)
  /-- TLBI (R326): Shoots down translations and waits for accesses through them to perform. -/
  | tlbi (q : Nat)
  /-- ROLE (R331): Requests a change of die roles, starting the drain. -/
  | role (q : Nat)
  /-- ROLE_GRACE_EXPIRE (R331): Under policy 1, the grace period ends and remaining contexts are pre-empted. -/
  | roleGraceExpire
  /-- ROLE_DRAIN_END (R331): Affected dies hold no context or engine work and the flush runs. -/
  | roleDrainEnd
  /-- ROLE_FLUSH_END (R331): The flush ends and the dies are re-enumerated with the new roles. -/
  | roleFlushEnd
  /-- SNAP (R368): Writes a full or incremental recovery point. -/
  | snap (q : Nat)
  /-- QUERY (R349): Writes requested status blocks. -/
  | query (q : Nat)
  /-- PACKET_COMPLETE (R351): A packet completes with a status, performs its signal add and raises an event. -/
  | packetComplete (n : Nat)
  /-- JOB_COMPLETE (R281): Every context has halted or been killed and all work and children have completed; ways return to cache. -/
  | jobComplete (j : Nat)
  /-- DEVICE_RESET (R361): Reset starts the d0 boot engine. -/
  | deviceReset
  /-- BOOT_STAGE (R361): The boot engine completes a stage, or stops with an error code. -/
  | bootStage
  /-- RETRAIN_DUE (R333): A vertical interface's 250 ms interval expires and retraining starts or is deferred. -/
  | retrainDue (i : Nat)
  /-- RETRAIN_FORCED (R334): A deferral reaches 2 ms and retraining runs, counted as forced. -/
  | retrainForced (i : Nat)
  /-- RETRAIN_END (R335): A retraining pause ends and queued traffic resumes in order. -/
  | retrainEnd (i pause : Nat) (fail : Bool)
  /-- HOST_POSTED_WRITE (R275): A host write to device memory performs at the home agent after invalidation. -/
  | hostPostedWrite (addr : Nat) (data : List Nat) (ro : Bool)
  /-- HOST_READ (R275): A host read of device memory is served at the home agent. -/
  | hostRead (addr n : Nat)
  /-- HOST_ATOMICOP (R356): A host AtomicOp is completed at the home agent. -/
  | hostAtomicop (kind addr size a b : Nat)
  /-- PEER_ACCESS (R277): A peer access arrives over leat and performs at the home agent. -/
  | peerAccess (kind addr : Nat) (data : List Nat)
  /-- FLIT_RECEIVE (R357): A leat flit is received, retried at link level when in error. -/
  | flitReceive (p : Nat) (err : Bool)
  /-- POWER_LIMIT_INTERVAL (R367): A 1 ms interval in which the power limit acted is counted. -/
  | powerLimitInterval
  /-- THERMAL_LIMIT_INTERVAL (R329): A 1 ms interval of the junction limit on a die is counted. -/
  | thermalLimitInterval (d : Nat)
  /-- SCRUB_VISIT (R374): The scrubber visits a line and writes back corrected values. -/
  | scrubVisit (line kind : Nat)
  /-- INDEX_WORD_FETCH_COMPLETE (R57): Index words missing from the index-word cache arrive from memory, or the fetch faults, and the waiting bundle may issue. -/
  | indexWordFetchComplete (c : Nat)
  /-- LANDING_STORE_ACCEPTED (R209): A landing store or reduction that stalled its context at its due cycle is accepted, and the context resumes. -/
  | landingStoreAccepted (c n : Nat)
  /-- CXL_CACHE_SNOOP (R276): A CXL.cache request from the host invalidates or recalls a device-cached line of host memory, which can also end a cwait or wake the Miller on a host index line. -/
  | cxlCacheSnoop (addr : Nat) (data : List Nat)
  /-- LEAT_PORT_DOWN (R358): A leat port goes down: its ready bit clears, accesses routed only through down ports fail, and a link-error event is raised. -/
  | leatPortDown (p : Nat)
  /-- LEAT_PORT_TRAINED (R364): A leat port trains its lanes and becomes usable, setting its ready bit and raising a readiness event. -/
  | leatPortTrained (p lanes : Nat)
  /-- AER_UNCORRECTABLE_ERROR (R356): An uncorrectable error on the host port is logged by AER and reported as a type-4 event. -/
  | aerUncorrectableError (info : Nat)
  deriving DecidableEq, Repr

end Sys2Proof
end

