-- ==== Sys2Proof/WellFormed.lean ====
section
/-! DEFINITION. Which instructions are well formed: every field within the width and the values its encoding allows
(R59, R60, R65, R69 to R72, Table 6.3); events name contexts, cores and queues that exist. -/

namespace Sys2Proof

/-- A name of the port space is 12 bits (R62). -/
def isName (n : Nat) : Bool := decide (n < 4096)

/-- Fields of sa. -/
def SaOps.wf (o : SaOps) : Bool := isName o.t && isName o.o && decide (o.k < 16)
/-- Fields of ag; only `lea` and `aff` carry a shift or level (R112). -/
def AgOps.wf (o : AgOps) (sub : Bool) : Bool := isName o.t && isName o.o && decide (o.sub < if sub then 8 else 1)
/-- Fields of ls; scope codes 110 and 111 are reserved (R65). -/
def LsOps.wf (o : LsOps) : Bool := isName o.t && isName o.o && decide (o.ord < 4) && decide (o.scope < 6) && decide (o.lnd < 8)
/-- Fields of va in class 0x2. -/
def VaOps.wf (o : VaOps) : Bool := decide (o.u < 2) && isName o.t && isName o.o && decide (o.fmt < 16) && decide (o.rnd < 4)
/-- Fields of va in class 0x3, with the largest immediate its entry allows. -/
def VaImmOps.wf (o : VaImmOps) (lim : Nat) : Bool := decide (o.u < 2) && isName o.t && isName o.o && decide (o.imm < lim)
/-- Fields of vp and vf. -/
def VpOps.wf (o : VpOps) : Bool := isName o.t && isName o.o && decide (o.fmt < 16) && decide (o.rnd < 4)
/-- Fields of `perm` in class 0x3 (R147). -/
def VpImmOps.wf (o : VpImmOps) : Bool := isName o.t && isName o.o && decide (o.imm < 2)
/-- Fields of vc. -/
def VcOps.wf (o : VcOps) : Bool := isName o.t && isName o.o && decide (o.hi < 16) && decide (o.lo < 16)
/-- Fields of the matrix slot; correction mode 11 is reserved (R69). -/
def MxOps.wf (o : MxOps) : Bool :=
  decide (o.zb < 4) && decide (o.md < 16) && decide (o.cmode < 3) && decide (o.tout < 64) && decide (o.tin0 < 64) &&
    decide (o.tin1 < 64) && decide (o.tin2 < 64) && decide (o.kk < 256) && decide (o.land < 256)
/-- Fields of the copy slot (R70); a method override and the fill select only on the opcodes that take them (Table 10.2). -/
def CpOps.wf (o : CpOps) (method fill : Bool) : Bool :=
  decide (o.cp < 16) && decide (o.a < 32) && decide (o.tout < 64) && decide (o.tin0 < 64) && decide (o.tin1 < 64) &&
    decide (o.tin2 < 64) && decide (o.scope < 6) && decide (o.method < if method then 6 else 1) && (fill || !o.fill)

/-- Every context of the device: core · 4 + context (R17, R18). -/
def isCtx (c : Nat) : Bool := decide (c < 2048)
/-- Every core, by flat index (R17). -/
def isCore (c : Nat) : Bool := decide (c < 512)
/-- Every queue of the Miller. -/
def isQueue (q : Nat) : Bool := decide (q < 64)

/-- Well-formed instructions and events. -/
def Instr.wf : Instr → Bool
  | .bundleIssue c => isCtx c
  | .copyMove dst src => isName dst && isName src
  | .immediateMove dst imm => isName dst && decide (imm < 2 ^ 32)
  | .saAdd o => o.wf
  | .saSub o => o.wf
  | .saMul o => o.wf
  | .saMulh o => o.wf
  | .saMulhc o => o.wf
  | .saDiv o => o.wf
  | .saDivc o => o.wf
  | .saRem o => o.wf
  | .saRemc o => o.wf
  | .saAnd o => o.wf
  | .saOr o => o.wf
  | .saXor o => o.wf
  | .saAndn o => o.wf
  | .saShl o => o.wf
  | .saShr o => o.wf
  | .saSra o => o.wf
  | .saRotl o => o.wf
  | .saMin o => o.wf
  | .saMax o => o.wf
  | .saMinc o => o.wf
  | .saMaxc o => o.wf
  | .saCmpeq o => o.wf
  | .saCmpne o => o.wf
  | .saCmplt o => o.wf
  | .saCmple o => o.wf
  | .saCmpltc o => o.wf
  | .saCmplec o => o.wf
  | .saSel o => o.wf
  | .saClz o => o.wf
  | .saCtz o => o.wf
  | .saPopc o => o.wf
  | .saBext o => o.wf
  | .saBins o => o.wf
  | .saSext o => o.wf
  | .saZext o => o.wf
  | .saMov o => o.wf
  | .saFadd o => o.wf
  | .saFmul o => o.wf
  | .saFdiv o => o.wf
  | .saFcvt o => o.wf
  | .saFcmp o => o.wf
  | .agLea o => o.wf true
  | .agAff o => o.wf true
  | .agBound o => o.wf false
  | .agSpa o => o.wf false
  | .agGva o => o.wf false
  | .agAdds o => o.wf false
  | .ldB o => o.wf
  | .ldH o => o.wf
  | .ldW o => o.wf
  | .ldD o => o.wf
  | .ldQ o => o.wf
  | .ldsB o => o.wf
  | .ldsH o => o.wf
  | .ldsW o => o.wf
  | .stB o => o.wf
  | .stH o => o.wf
  | .stW o => o.wf
  | .stD o => o.wf
  | .stQ o => o.wf
  | .vld o => o.wf
  | .vst o => o.wf
  | .vldg o => o.wf
  | .vstg o => o.wf
  | .vldx o => o.wf
  | .vstx o => o.wf
  | .amoAddW o => o.wf
  | .amoMinW o => o.wf
  | .amoMaxW o => o.wf
  | .amoMincW o => o.wf
  | .amoMaxcW o => o.wf
  | .amoAndW o => o.wf
  | .amoOrW o => o.wf
  | .amoXorW o => o.wf
  | .amoXchgW o => o.wf
  | .amoCasW o => o.wf
  | .amoFaddW o => o.wf
  | .amoIncwW o => o.wf
  | .amoAddD o => o.wf
  | .amoMinD o => o.wf
  | .amoMaxD o => o.wf
  | .amoMincD o => o.wf
  | .amoMaxcD o => o.wf
  | .amoAndD o => o.wf
  | .amoOrD o => o.wf
  | .amoXorD o => o.wf
  | .amoXchgD o => o.wf
  | .amoCasD o => o.wf
  | .amoFaddD o => o.wf
  | .amoIncwD o => o.wf
  | .amoCasQ o => o.wf
  | .redAdd o => o.wf
  | .redMin o => o.wf
  | .redMax o => o.wf
  | .redAnd o => o.wf
  | .redOr o => o.wf
  | .redXor o => o.wf
  | .redFadd o => o.wf
  | .redFaddh o => o.wf
  | .vaAdd o => o.wf
  | .vaSub o => o.wf
  | .vaMul o => o.wf
  | .vaMulh o => o.wf
  | .vaMulhr o => o.wf
  | .vaMad o => o.wf
  | .vaAbs o => o.wf
  | .vaNeg o => o.wf
  | .vaMin o => o.wf
  | .vaMax o => o.wf
  | .vaAvg o => o.wf
  | .vaAbsd o => o.wf
  | .vaAnd o => o.wf
  | .vaOr o => o.wf
  | .vaXor o => o.wf
  | .vaNot o => o.wf
  | .vaLut3 o => o.wf 256
  | .vaShl o => o.wf
  | .vaShr o => o.wf
  | .vaSra o => o.wf
  | .vaShlr o => o.wf
  | .vaFshl o => o.wf
  | .vaFshlImm o => o.wf 16
  | .vaFshr o => o.wf
  | .vaFshrImm o => o.wf 16
  | .vaCmpeq o => o.wf
  | .vaCmpne o => o.wf
  | .vaCmplt o => o.wf
  | .vaCmple o => o.wf
  | .vaSel o => o.wf
  | .vaClamp o => o.wf
  | .vaPopc o => o.wf
  | .vaClz o => o.wf
  | .vaMov o => o.wf
  | .vaFadd o => o.wf
  | .vaFsub o => o.wf
  | .vaFmul o => o.wf
  | .vaFma o => o.wf
  | .vaFmin o => o.wf
  | .vaFmax o => o.wf
  | .vaMulsh o => o.wf 128
  | .vpRotr o => o.wf
  | .vpRotc o => o.wf
  | .vpBcrow o => o.wf
  | .vpBccol o => o.wf
  | .vpRedrAdd o => o.wf
  | .vpRedrMax o => o.wf
  | .vpRedrMin o => o.wf
  | .vpRedcAdd o => o.wf
  | .vpRedcMax o => o.wf
  | .vpRedcMin o => o.wf
  | .vpTrn o => o.wf
  | .vpPerm o => o.wf
  | .vpPermImm o => o.wf
  | .vpZip o => o.wf
  | .vpUnzip o => o.wf
  | .vpShiftr o => o.wf
  | .vpShiftc o => o.wf
  | .vpScanrAdd o => o.wf
  | .vpScancAdd o => o.wf
  | .vfExp2 o => o.wf
  | .vfLog2 o => o.wf
  | .vfRcp o => o.wf
  | .vfRsqrt o => o.wf
  | .vfSqrt o => o.wf
  | .vfSinpi o => o.wf
  | .vfCospi o => o.wf
  | .vfTanh o => o.wf
  | .vfSigm o => o.wf
  | .vfFdiv o => o.wf
  | .vcCvt o => o.wf
  | .vcCvts o => o.wf
  | .vcQblk o => o.wf
  | .vcDqblk o => o.wf
  | .vcQts8 o => o.wf
  | .vcDqts8 o => o.wf
  | .vcUnpk10 o => o.wf
  | .vcUnpk12 o => o.wf
  | .vcUnpk14 o => o.wf
  | .vcPk10 o => o.wf
  | .vcPk12 o => o.wf
  | .vcPk14 o => o.wf
  | .vcSwap16 o => o.wf
  | .fuResultLand c _ => isCtx c
  | .landingDue c _ => isCtx c
  | .landingDataArrival c _ _ => isCtx c
  | .slackExpire c => isCtx c
  | .starvationIssue c => isCtx c
  | .yieldExpire c => isCtx c
  | .formatShadowEnd c => isCtx c
  | .dictRefillComplete core _ => isCore core
  | .pageWalkComplete core _ => isCore core
  | .mxNop => true
  | .mstep o => o.wf
  | .mstepG o => o.wf
  | .mpre o => o.wf
  | .mstepWs o => o.wf
  | .mfin o => o.wf
  | .mzero o => o.wf
  | .mcorr o => o.wf
  | .mcld o => o.wf
  | .mcinv o => o.wf
  | .mscl o => o.wf
  | .matrixEngineStart core _ => isCore core
  | .matrixComplete core _ => isCore core
  | .cpNop => true
  | .cpy o => o.wf false true
  | .cpyf o => o.wf true false
  | .cpyt o => o.wf true true
  | .lblk o => o.wf false false
  | .eblk o => o.wf false false
  | .put o => o.wf false true
  | .sread o => o.wf true false
  | .swrite o => o.wf true false
  | .cfill o => o.wf false true
  | .xcpy o => o.wf false true
  | .nput o => o.wf false false
  | .nget o => o.wf false false
  | .nref o => o.wf false false
  | .nrel o => o.wf false false
  | .nswap o => o.wf false false
  | .nout o => o.wf false false
  | .nstat o => o.wf false false
  | .copyEngineStart core _ => isCore core
  | .flumeBlock core _ => isCore core
  | .copyComplete core _ => isCore core
  | .reclaimDecrement r _ => decide (r < 16)
  | .ordinalRelease r _ => decide (r < 16)
  | .nvmeCompletion _ status _ => decide (status < 2048)
  | .storageTimeout _ => true
  | .ctNop => true
  | .br off => decide (off < 2 ^ 24)
  | .brk off k _ => decide (off < 2 ^ 24) && decide (k < 16)
  | .call off => decide (off < 2 ^ 24)
  | .ret => true
  | .jmp src _ => isName src
  | .loop cnt off _ => isName cnt && decide (off < 65536)
  | .lbrk n _ _ k => decide (0 < n) && decide (n < 9) && decide (k < 16)
  | .twait src _ => isName src
  | .twaitComplete c => isCtx c
  | .cwait a sreg scope => decide (a < 32) && decide (sreg < 64) && decide (scope < 6)
  | .cwaitComplete c => isCtx c
  | .fence kind scope => decide (0 < kind) && decide (kind < 4) && decide (scope < 6)
  | .drain => true
  | .drainComplete c => isCtx c
  | .xfence => true
  | .xfenceComplete c => isCtx c
  | .fmtw reg src => decide (reg < 3) && isName src
  | .sget dst sys => isName dst && isName sys && decide (sys ≠ 0x003)
  | .sgetFpstat dst => isName dst
  | .sset src sys => isName src && isName sys && decide (sys ∉ [0x003, 0x010, 0x011, 0x012, 0x038, 0x08F])
  | .ssetSplit src => isName src
  | .splitConvert c => isCtx c
  | .ssetDict src => isName src
  | .ssetVwin src => isName src
  | .ssetNreg src => isName src
  | .ssetLdepth src => isName src
  | .fpstatClear src => isName src
  | .gmset g n => decide (0 < g) && decide (g < 16) && decide (n < 62)
  | .bacq mask => decide (mask < 65536)
  | .bacqGrant c => isCtx c
  | .brel mask => decide (mask < 65536)
  | .qpush a sreg _ => decide (a < 32) && decide (sreg < 64)
  | .qpushSlotFree c => isCtx c
  | .halt => true
  | .trap code => decide (code < 65536)
  | .tret => true
  | .ppt => true
  | .cwb a sreg => decide (a < 32) && decide (sreg < 64)
  | .iinv a sreg => decide (a < 32) && decide (sreg < 64)
  | .fsync => true
  | .fsyncComplete c => isCtx c
  | .ewait => true
  | .ewaitComplete c => isCtx c
  | .brkp code => decide (code < 65536)
  | .tokc src => isName src
  | .yield => true
  | .weirArrive c => isCtx c
  | .weirRelease c => isCtx c
  | .superstepRelease c => isCtx c
  | .trapEntry c => isCtx c
  | .preemptSave c => isCtx c
  | .preemptDeadline c => isCtx c
  | .jobResume _ => true
  | .queueEnable q => isQueue q
  | .queueDisable q => isQueue q
  | .queueReset q => isQueue q
  | .regionInstallRequest r => decide (r < 16)
  | .regionRemoveRequest r => decide (r < 16)
  | .regionRemove r => decide (r < 16)
  | .evrdWrite v => decide (v < 2 ^ 64)
  | .attestRequest nonce => decide (nonce.length = 64)
  | .bar0Write off size val => decide (size ∈ [1, 2, 4, 8]) && decide (off % size = 0) && decide (off < 2 ^ 20) && decide (val < 2 ^ (8 * size))
  | .packetValidate q => isQueue q
  | .launch q => isQueue q
  | .jobBind _ => true
  | .wait q => isQueue q
  | .signal q => isQueue q
  | .node q => isQueue q
  | .nodeRun id => decide (id < 4096)
  | .copy q => isQueue q
  | .tlbi q => isQueue q
  | .role q => isQueue q
  | .roleGraceExpire => true
  | .roleDrainEnd => true
  | .roleFlushEnd => true
  | .snap q => isQueue q
  | .query q => isQueue q
  | .packetComplete _ => true
  | .jobComplete _ => true
  | .deviceReset => true
  | .bootStage => true
  | .retrainDue i => decide (i < 3)
  | .retrainForced i => decide (i < 3)
  | .retrainEnd i pause _ => decide (i < 3) && decide (pause ≤ 36000)
  | .hostPostedWrite _ _ _ => true
  | .hostRead _ _ => true
  | .hostAtomicop kind _ size _ _ => decide (kind < 3) && (size == 4 || size == 8 || (size == 16 && kind == 2))
  | .peerAccess _ addr _ => decide (addr < 2 ^ 40)
  | .flitReceive p _ => decide (p < 16)
  | .powerLimitInterval => true
  | .thermalLimitInterval d => decide (d < 4)
  | .scrubVisit _ kind => decide (kind < 3)
  | .indexWordFetchComplete c => isCtx c
  | .landingStoreAccepted c _ => isCtx c
  | .cxlCacheSnoop _ _ => true
  | .leatPortDown p => decide (p < 16)
  | .leatPortTrained p lanes => decide (p < 16) && decide (1 ≤ lanes ∧ lanes ≤ 8)
  | .aerUncorrectableError _ => true

end Sys2Proof
end

