-- ==== Sys2Proof/Decode.lean ====
section
/-! DEFINITION. Decoding bundles and slots (R53, R54, R58 to R60, R65, R69 to R73, Tables 3.1 and 3.7 to 3.17, 6.3, 8.6), and the encoder. -/

namespace Sys2Proof

open Machine

/-! ## Opcode maps -/

/-- Table 3.8: the opcodes of sa. -/
def saOpcode : Nat → Option (SaOps → Instr)
  | 0x00 => some .saAdd
  | 0x01 => some .saSub
  | 0x02 => some .saMul
  | 0x03 => some .saMulh
  | 0x04 => some .saMulhc
  | 0x05 => some .saDiv
  | 0x06 => some .saDivc
  | 0x07 => some .saRem
  | 0x08 => some .saRemc
  | 0x09 => some .saAnd
  | 0x0A => some .saOr
  | 0x0B => some .saXor
  | 0x0C => some .saAndn
  | 0x0D => some .saShl
  | 0x0E => some .saShr
  | 0x0F => some .saSra
  | 0x10 => some .saRotl
  | 0x11 => some .saMin
  | 0x12 => some .saMax
  | 0x13 => some .saMinc
  | 0x14 => some .saMaxc
  | 0x15 => some .saCmpeq
  | 0x16 => some .saCmpne
  | 0x17 => some .saCmplt
  | 0x18 => some .saCmple
  | 0x19 => some .saCmpltc
  | 0x1A => some .saCmplec
  | 0x1B => some .saSel
  | 0x1C => some .saClz
  | 0x1D => some .saCtz
  | 0x1E => some .saPopc
  | 0x1F => some .saBext
  | 0x20 => some .saBins
  | 0x21 => some .saSext
  | 0x22 => some .saZext
  | 0x23 => some .saMov
  | 0x24 => some .saFadd
  | 0x25 => some .saFmul
  | 0x26 => some .saFdiv
  | 0x27 => some .saFcvt
  | 0x28 => some .saFcmp
  | _ => none

/-- Table 3.9: the opcodes of ag. -/
def agOpcode : Nat → Option (AgOps → Instr)
  | 0x00 => some .agLea
  | 0x01 => some .agAff
  | 0x02 => some .agBound
  | 0x03 => some .agSpa
  | 0x04 => some .agGva
  | 0x05 => some .agAdds
  | _ => none

/-- Table 3.10: the opcodes of ls. -/
def lsOpcode : Nat → Option (LsOps → Instr)
  | 0x00 => some .ldB
  | 0x01 => some .ldH
  | 0x02 => some .ldW
  | 0x03 => some .ldD
  | 0x04 => some .ldQ
  | 0x05 => some .ldsB
  | 0x06 => some .ldsH
  | 0x07 => some .ldsW
  | 0x08 => some .stB
  | 0x09 => some .stH
  | 0x0A => some .stW
  | 0x0B => some .stD
  | 0x0C => some .stQ
  | 0x10 => some .vld
  | 0x11 => some .vst
  | 0x12 => some .vldg
  | 0x13 => some .vstg
  | 0x14 => some .vldx
  | 0x15 => some .vstx
  | 0x20 => some .amoAddW
  | 0x21 => some .amoMinW
  | 0x22 => some .amoMaxW
  | 0x23 => some .amoMincW
  | 0x24 => some .amoMaxcW
  | 0x25 => some .amoAndW
  | 0x26 => some .amoOrW
  | 0x27 => some .amoXorW
  | 0x28 => some .amoXchgW
  | 0x29 => some .amoCasW
  | 0x2A => some .amoFaddW
  | 0x2B => some .amoIncwW
  | 0x30 => some .amoAddD
  | 0x31 => some .amoMinD
  | 0x32 => some .amoMaxD
  | 0x33 => some .amoMincD
  | 0x34 => some .amoMaxcD
  | 0x35 => some .amoAndD
  | 0x36 => some .amoOrD
  | 0x37 => some .amoXorD
  | 0x38 => some .amoXchgD
  | 0x39 => some .amoCasD
  | 0x3A => some .amoFaddD
  | 0x3B => some .amoIncwD
  | 0x40 => some .amoCasQ
  | 0x48 => some .redAdd
  | 0x49 => some .redMin
  | 0x4A => some .redMax
  | 0x4B => some .redAnd
  | 0x4C => some .redOr
  | 0x4D => some .redXor
  | 0x4E => some .redFadd
  | 0x4F => some .redFaddh
  | _ => none

/-- Table 3.11: the opcodes of va0 and va1 in class 0x2. -/
def vaOpcode : Nat → Option (VaOps → Instr)
  | 0x00 => some .vaAdd
  | 0x01 => some .vaSub
  | 0x02 => some .vaMul
  | 0x03 => some .vaMulh
  | 0x04 => some .vaMulhr
  | 0x05 => some .vaMad
  | 0x06 => some .vaAbs
  | 0x07 => some .vaNeg
  | 0x08 => some .vaMin
  | 0x09 => some .vaMax
  | 0x0A => some .vaAvg
  | 0x0B => some .vaAbsd
  | 0x0C => some .vaAnd
  | 0x0D => some .vaOr
  | 0x0E => some .vaXor
  | 0x0F => some .vaNot
  | 0x11 => some .vaShl
  | 0x12 => some .vaShr
  | 0x13 => some .vaSra
  | 0x14 => some .vaShlr
  | 0x15 => some .vaFshl
  | 0x16 => some .vaFshr
  | 0x17 => some .vaCmpeq
  | 0x18 => some .vaCmpne
  | 0x19 => some .vaCmplt
  | 0x1A => some .vaCmple
  | 0x1B => some .vaSel
  | 0x1C => some .vaClamp
  | 0x1D => some .vaPopc
  | 0x1E => some .vaClz
  | 0x1F => some .vaMov
  | 0x20 => some .vaFadd
  | 0x21 => some .vaFsub
  | 0x22 => some .vaFmul
  | 0x23 => some .vaFma
  | 0x24 => some .vaFmin
  | 0x25 => some .vaFmax
  | _ => none

/-- Table 3.12: the opcodes of vp in class 0x2. -/
def vpOpcode : Nat → Option (VpOps → Instr)
  | 0x00 => some .vpRotr
  | 0x01 => some .vpRotc
  | 0x02 => some .vpBcrow
  | 0x03 => some .vpBccol
  | 0x04 => some .vpRedrAdd
  | 0x05 => some .vpRedrMax
  | 0x06 => some .vpRedrMin
  | 0x07 => some .vpRedcAdd
  | 0x08 => some .vpRedcMax
  | 0x09 => some .vpRedcMin
  | 0x0A => some .vpTrn
  | 0x0B => some .vpPerm
  | 0x0C => some .vpZip
  | 0x0D => some .vpUnzip
  | 0x0E => some .vpShiftr
  | 0x0F => some .vpShiftc
  | 0x10 => some .vpScanrAdd
  | 0x11 => some .vpScancAdd
  | _ => none

/-- Table 3.13: the opcodes of vf. -/
def vfOpcode : Nat → Option (VpOps → Instr)
  | 0x00 => some .vfExp2
  | 0x01 => some .vfLog2
  | 0x02 => some .vfRcp
  | 0x03 => some .vfRsqrt
  | 0x04 => some .vfSqrt
  | 0x05 => some .vfSinpi
  | 0x06 => some .vfCospi
  | 0x07 => some .vfTanh
  | 0x08 => some .vfSigm
  | 0x0A => some .vfFdiv
  | _ => none

/-- Table 3.14: the opcodes of vc. -/
def vcOpcode : Nat → Option (VcOps → Instr)
  | 0x00 => some .vcCvt
  | 0x01 => some .vcCvts
  | 0x02 => some .vcQblk
  | 0x03 => some .vcDqblk
  | 0x04 => some .vcQts8
  | 0x05 => some .vcDqts8
  | 0x06 => some .vcUnpk10
  | 0x07 => some .vcUnpk12
  | 0x08 => some .vcUnpk14
  | 0x09 => some .vcPk10
  | 0x0A => some .vcPk12
  | 0x0B => some .vcPk14
  | 0x0D => some .vcSwap16
  | _ => none

/-- Table 3.15: the opcodes of the matrix slot, nop apart. -/
def mxOpcode : Nat → Option (MxOps → Instr)
  | 0x01 => some .mstep
  | 0x02 => some .mstepG
  | 0x03 => some .mpre
  | 0x04 => some .mstepWs
  | 0x05 => some .mfin
  | 0x06 => some .mzero
  | 0x07 => some .mcorr
  | 0x08 => some .mcld
  | 0x09 => some .mcinv
  | 0x0A => some .mscl
  | _ => none

/-- Table 3.16: the opcodes of the copy slot, nop apart. -/
def cpOpcode : Nat → Option (CpOps → Instr)
  | 0x01 => some .cpy
  | 0x02 => some .cpyf
  | 0x03 => some .cpyt
  | 0x04 => some .lblk
  | 0x05 => some .eblk
  | 0x06 => some .put
  | 0x07 => some .sread
  | 0x08 => some .swrite
  | 0x09 => some .cfill
  | 0x10 => some .nput
  | 0x11 => some .nget
  | 0x12 => some .nref
  | 0x13 => some .nrel
  | 0x14 => some .nswap
  | 0x15 => some .nout
  | 0x16 => some .nstat
  | 0x18 => some .xcpy
  | _ => none

/-- Table 3.11: the opcodes of va0 and va1 in class 0x3, with the immediates their entries allow (R141, R143). -/
def vaImmOpcode (op imm : Nat) : Option (VaImmOps → Instr) :=
  match op with
  | 0x10 => some .vaLut3
  | 0x15 => if imm < 16 then some .vaFshlImm else none
  | 0x16 => if imm < 16 then some .vaFshrImm else none
  | 0x29 => if imm < 128 then some .vaMulsh else none
  | _ => none

/-- Table 3.12: `perm` in class 0x3; an immediate other than 0 or 1 is illegal (R147). -/
def vpImmOpcode (op imm : Nat) : Option (VpImmOps → Instr) :=
  if op = 0x0B ∧ imm < 2 then some .vpPermImm else none

/-! ## Move slots (R60) -/

/-- A trigger of class 0x2: FU, opcode, trigger source, operand source, modifier (Table 3.7). -/
def decodeTrigger (fu op t o md : Nat) : Option Instr :=
  match fu with
  | 0 => if fld md 0 2 = 0 then (saOpcode op).map (· ⟨t, o, bitAt md 7, bitAt md 6, fld md 2 4⟩) else none
  | 1 =>
    if fld md 3 5 = 0 ∧ (op < 2 ∨ md = 0) then (agOpcode op).map (· ⟨t, o, fld md 0 3⟩) else none
  | 2 => if fld md 3 3 < 6 then (lsOpcode op).map (· ⟨t, o, fld md 6 2, fld md 3 3, fld md 0 3⟩) else none
  | 3 => (vaOpcode op).map (· ⟨0, t, o, fld md 4 4, bitAt md 3, fld md 1 2, bitAt md 0⟩)
  | 4 => (vaOpcode op).map (· ⟨1, t, o, fld md 4 4, bitAt md 3, fld md 1 2, bitAt md 0⟩)
  | 5 => (vpOpcode op).map (· ⟨t, o, fld md 4 4, bitAt md 3, fld md 1 2, bitAt md 0⟩)
  | 6 => (vfOpcode op).map (· ⟨t, o, fld md 4 4, bitAt md 3, fld md 1 2, bitAt md 0⟩)
  | 7 => (vcOpcode op).map (· ⟨t, o, fld md 4 4, fld md 0 4⟩)
  | _ => none

/-- A trigger of class 0x3. -/
def decodeTrigger3 (fu op t o imm : Nat) : Option Instr :=
  match fu with
  | 3 => (vaImmOpcode op imm).map (· ⟨0, t, o, imm⟩)
  | 4 => (vaImmOpcode op imm).map (· ⟨1, t, o, imm⟩)
  | 5 => (vpImmOpcode op imm).map (· ⟨t, o, imm⟩)
  | _ => none

/-- A 48-bit move slot: `none` is an illegal bundle, `some none` an empty slot. -/
def decodeMove (w : Nat) : Option (Option Instr) :=
  match fld w 44 4 with
  | 0x0 => if fld w 0 44 = 0 then some none else none
  | 0x1 => if fld w 0 20 = 0 then some (some (.copyMove (fld w 32 12) (fld w 20 12))) else none
  | 0x2 => (decodeTrigger (fld w 40 4) (fld w 32 8) (fld w 20 12) (fld w 8 12) (fld w 0 8)).map some
  | 0x3 => (decodeTrigger3 (fld w 40 4) (fld w 32 8) (fld w 20 12) (fld w 8 12) (fld w 0 8)).map some
  | 0x4 => some (some (.immediateMove (fld w 32 12) (fld w 0 32)))
  | _ => none

/-! ## Engine slots -/

/-- A 64-bit matrix slot (R69, R72, R179). -/
def decodeMatrix (w : Nat) : Option Instr :=
  if fld w 58 6 = 0 then (if w = 0 then some .mxNop else none)
  else if fld w 0 4 ≠ 0 ∨ fld w 45 2 = 3 then none
  else
    (mxOpcode (fld w 58 6)).map (· ⟨fld w 56 2, fld w 52 4, bitAt w 51, bitAt w 50, bitAt w 49, bitAt w 48, bitAt w 47,
      fld w 45 2, bitAt w 44, fld w 38 6, fld w 32 6, fld w 26 6, fld w 20 6, fld w 12 8, fld w 4 8⟩)

/-- Whether an opcode of the copy slot takes a Flume method override (R70). -/
def takesMethod (op : Nat) : Bool := op == 2 || op == 3 || op == 7 || op == 8

/-- Whether an opcode of the copy slot takes the fill select (Table 10.2). -/
def takesFill (op : Nat) : Bool := op == 1 || op == 3 || op == 6 || op == 9 || op == 0x18

/-- A 64-bit copy slot (R70, R72, R226, R250). -/
def decodeCopy (w : Nat) : Option Instr :=
  if fld w 58 6 = 0 then (if w = 0 then some .cpNop else none)
  else if fld w 0 17 ≠ 0 ∨ 6 ≤ fld w 21 3 ∨ 6 ≤ fld w 17 3 ∨ (fld w 17 3 ≠ 0 ∧ takesMethod (fld w 58 6) = false) ∨
      (bitAt w 20 = true ∧ takesFill (fld w 58 6) = false) then none
  else
    (cpOpcode (fld w 58 6)).map (· ⟨fld w 54 4, fld w 49 5, fld w 43 6, fld w 37 6, fld w 31 6, fld w 25 6, bitAt w 24,
      fld w 21 3, bitAt w 20, fld w 17 3⟩)

/-! ## The control slot (Table 6.3) -/

/-- `sset` by the register it names: the rows of their own, then the rest. -/
def ssetOf (src sys : Nat) : Instr :=
  match sys with
  | 0x003 => .fpstatClear src
  | 0x010 => .ssetVwin src
  | 0x011 => .ssetDict src
  | 0x012 => .ssetSplit src
  | 0x038 => .ssetNreg src
  | 0x08F => .ssetLdepth src
  | n => .sset src n

/-- A 48-bit control slot (R71, R72, Table 6.3). The sense and condition bits of an unconditional `lbrk` are assigned bits of its layout and
are not refused (DESIGN CHOICE, notes/assumptions/70.md). -/
def decodeControl (w : Nat) : Option Instr :=
  let need (b : Bool) (i : Instr) : Option Instr := if b then some i else none
  match fld w 42 6 with
  | 0x00 => need (fld w 0 42 == 0) .ctNop
  | 0x01 => need (fld w 0 18 == 0) (.br (fld w 18 24))
  | 0x02 => need (fld w 0 13 == 0) (.brk (fld w 18 24) (fld w 14 4) (bitAt w 13))
  | 0x03 => need (fld w 0 18 == 0) (.call (fld w 18 24))
  | 0x04 => need (fld w 0 42 == 0) .ret
  | 0x05 => need (fld w 0 29 == 0) (.jmp (fld w 30 12) (bitAt w 29))
  | 0x06 => need (fld w 0 13 == 0) (.loop (fld w 30 12) (fld w 14 16) (bitAt w 13))
  | 0x07 => need (fld w 0 33 == 0) (.lbrk (fld w 39 3 + 1) (bitAt w 38) (bitAt w 37) (fld w 33 4))
  | 0x08 => need (fld w 0 29 == 0) (.twait (fld w 30 12) (bitAt w 29))
  | 0x09 => need (fld w 0 28 == 0 && decide (fld w 28 3 < 6)) (.cwait (fld w 37 5) (fld w 31 6) (fld w 28 3))
  | 0x0A => need (fld w 0 37 == 0 && decide (fld w 37 3 < 6) && fld w 40 2 != 0) (.fence (fld w 40 2) (fld w 37 3))
  | 0x0B => need (fld w 0 42 == 0) .drain
  | 0x0C => need (fld w 0 42 == 0) .xfence
  | 0x0D => need (fld w 0 28 == 0 && fld w 40 2 != 3) (.fmtw (fld w 40 2) (fld w 28 12))
  | 0x0E => need (fld w 0 18 == 0) (if fld w 18 12 = 0x003 then .sgetFpstat (fld w 30 12) else .sget (fld w 30 12) (fld w 18 12))
  | 0x0F => need (fld w 0 18 == 0) (ssetOf (fld w 30 12) (fld w 18 12))
  | 0x10 => need (fld w 0 32 == 0 && fld w 38 4 != 0 && decide (fld w 32 6 < 62)) (.gmset (fld w 38 4) (fld w 32 6))
  | 0x11 => need (fld w 0 26 == 0) (.bacq (fld w 26 16))
  | 0x12 => need (fld w 0 26 == 0) (.brel (fld w 26 16))
  | 0x13 => need (fld w 0 30 == 0) (.qpush (fld w 37 5) (fld w 31 6) (bitAt w 30))
  | 0x14 => need (fld w 0 42 == 0) .halt
  | 0x15 => need (fld w 0 26 == 0) (.trap (fld w 26 16))
  | 0x16 => need (fld w 0 42 == 0) .tret
  | 0x17 => need (fld w 0 42 == 0) .ppt
  | 0x18 => need (fld w 0 31 == 0) (.cwb (fld w 37 5) (fld w 31 6))
  | 0x19 => need (fld w 0 31 == 0) (.iinv (fld w 37 5) (fld w 31 6))
  | 0x1A => need (fld w 0 42 == 0) .fsync
  | 0x1B => need (fld w 0 42 == 0) .ewait
  | 0x1C => need (fld w 0 26 == 0) (.brkp (fld w 26 16))
  | 0x1D => need (fld w 0 30 == 0) (.tokc (fld w 30 12))
  | 0x1E => need (fld w 0 42 == 0) .yield
  | _ => none

/-! ## The bundle -/

/-- The header's fields (R59). -/
structure Header where
  slack : Nat
  weir : Nat
  step : Bool
  ppt : Bool
  deriving DecidableEq, Repr

/-- The empty header. -/
def Header.none : Header := ⟨0, 0, false, false⟩

/-- A decoded bundle: its header and its slots with their slot codes (R74), in rising order; empty move slots are left out. -/
structure Bundle where
  hdr : Header
  slots : List (Nat × Instr)
  deriving DecidableEq, Repr

/-- The 16-bit header (R59). -/
def decodeHeader (w : Nat) : Option Header :=
  if fld w 0 6 = 0 then some ⟨fld w 12 4, fld w 8 4, bitAt w 7, bitAt w 6⟩ else none

/-- A slot's place in the bundle by its slot code: first bit and width (R58). -/
def slotPlace : Nat → Nat × Nat
  | 0 => (368, 16)
  | 1 => (304, 64)
  | 2 => (240, 64)
  | 3 => (192, 48)
  | 4 => (144, 48)
  | 5 => (96, 48)
  | 6 => (48, 48)
  | _ => (0, 48)

/-- The bits of slot `k` of a bundle. -/
def slotBits (b k : Nat) : Nat := fld b (slotPlace k).1 (slotPlace k).2

/-- Slot `k` (1 to 7) decoded: `none` is an illegal bundle, `some none` an empty move slot. -/
def decodeSlot (k w : Nat) : Option (Option Instr) :=
  match k with
  | 1 => (decodeMatrix w).map some
  | 2 => (decodeCopy w).map some
  | 3 => (decodeControl w).map some
  | _ => decodeMove w

/-- Slots `k` on, `n` of them: the slots, or the first slot code that is illegal. -/
def decodeSlots (b k : Nat) : Nat → Except Nat (List (Nat × Instr))
  | 0 => .ok []
  | n + 1 =>
    match decodeSlot k (slotBits b k) with
    | none => .error k
    | some i =>
      match decodeSlots b (k + 1) n with
      | .error e => .error e
      | .ok r => .ok (match i with | some j => (k, j) :: r | none => r)

/-- A 384-bit bundle: decoded, or the lowest slot code that makes it an illegal bundle (R74). -/
def decodeBundle (b : Nat) : Except Nat Bundle :=
  match decodeHeader (slotBits b 0) with
  | none => .error 0
  | some h =>
    match decodeSlots b 1 7 with
    | .error e => .error e
    | .ok s => .ok ⟨h, s⟩

/-- Whether a slot does nothing: an engine or control nop. -/
def Instr.isNop : Instr → Bool
  | .mxNop => true
  | .cpNop => true
  | .ctNop => true
  | _ => false

/-! ## The encoder -/

/-- A number from its fields, the lowest first: `v` at width `w`, then the rest. -/
def packN (w v r : Nat) : Nat := v % 2 ^ w + 2 ^ w * r

/-- A Boolean as a bit. -/
def bit (b : Bool) : Nat := if b then 1 else 0

/-- The word of a move of class 0x2 or 0x3. -/
def trigWord (cls fu op t o md : Nat) : Nat :=
  packN 8 md (packN 12 o (packN 12 t (packN 8 op (packN 4 fu (packN 4 cls 0)))))

/-- The modifier of sa. -/
def saMod (o : SaOps) : Nat := packN 2 0 (packN 4 o.k (packN 1 (bit o.wc) (packN 1 (bit o.w) 0)))
/-- The modifier of ls. -/
def lsMod (o : LsOps) : Nat := packN 3 o.lnd (packN 3 o.scope (packN 2 o.ord 0))
/-- The modifier of va, vp and vf. -/
def vecMod (fmt rnd : Nat) (sat mask : Bool) : Nat := packN 1 (bit mask) (packN 2 rnd (packN 1 (bit sat) (packN 4 fmt 0)))

/-- The word of an sa trigger. -/
def saWord (op : Nat) (o : SaOps) : Nat := trigWord 2 0 op o.t o.o (saMod o)
/-- The word of an ag trigger. -/
def agWord (op : Nat) (o : AgOps) : Nat := trigWord 2 1 op o.t o.o (packN 3 o.sub 0)
/-- The word of an ls trigger. -/
def lsWord (op : Nat) (o : LsOps) : Nat := trigWord 2 2 op o.t o.o (lsMod o)
/-- The word of a va trigger of class 0x2. -/
def vaWord (op : Nat) (o : VaOps) : Nat := trigWord 2 (3 + o.u) op o.t o.o (vecMod o.fmt o.rnd o.sat o.mask)
/-- The word of a va trigger of class 0x3. -/
def vaImmWord (op : Nat) (o : VaImmOps) : Nat := trigWord 3 (3 + o.u) op o.t o.o o.imm
/-- The word of a vp (5) or vf (6) trigger of class 0x2. -/
def vpWord (fu op : Nat) (o : VpOps) : Nat := trigWord 2 fu op o.t o.o (vecMod o.fmt o.rnd o.sat o.mask)
/-- The word of a vp trigger of class 0x3. -/
def vpImmWord (op : Nat) (o : VpImmOps) : Nat := trigWord 3 5 op o.t o.o o.imm
/-- The word of a vc trigger. -/
def vcWord (op : Nat) (o : VcOps) : Nat := trigWord 2 7 op o.t o.o (packN 4 o.lo (packN 4 o.hi 0))
/-- The word of a matrix slot (R179). -/
def mxWord (op : Nat) (o : MxOps) : Nat :=
  packN 4 0 (packN 8 o.land (packN 8 o.kk (packN 6 o.tin2 (packN 6 o.tin1 (packN 6 o.tin0 (packN 6 o.tout
    (packN 1 (bit o.stg) (packN 2 o.cmode (packN 1 (bit o.gth) (packN 1 (bit o.inc) (packN 1 (bit o.acc)
      (packN 1 (bit o.tb) (packN 1 (bit o.ta) (packN 4 o.md (packN 2 o.zb (packN 6 op 0))))))))))))))))
/-- The word of a copy slot (R70). -/
def cpWord (op : Nat) (o : CpOps) : Nat :=
  packN 17 0 (packN 3 o.method (packN 1 (bit o.fill) (packN 3 o.scope (packN 1 (bit o.stg) (packN 6 o.tin2
    (packN 6 o.tin1 (packN 6 o.tin0 (packN 6 o.tout (packN 5 o.a (packN 4 o.cp (packN 6 op 0)))))))))))

/-- The word of a slot instruction with the kind of its slot: 1 matrix, 2 copy, 3 control, 4 move. Events have no word. -/
def Instr.word : Instr → Option (Nat × Nat)
  | .bundleIssue _ => none
  | .copyMove dst src => some (4, packN 20 0 (packN 12 src (packN 12 dst (packN 4 1 0))))
  | .immediateMove dst imm => some (4, packN 32 imm (packN 12 dst (packN 4 4 0)))
  | .saAdd o => some (4, saWord 0x00 o)
  | .saSub o => some (4, saWord 0x01 o)
  | .saMul o => some (4, saWord 0x02 o)
  | .saMulh o => some (4, saWord 0x03 o)
  | .saMulhc o => some (4, saWord 0x04 o)
  | .saDiv o => some (4, saWord 0x05 o)
  | .saDivc o => some (4, saWord 0x06 o)
  | .saRem o => some (4, saWord 0x07 o)
  | .saRemc o => some (4, saWord 0x08 o)
  | .saAnd o => some (4, saWord 0x09 o)
  | .saOr o => some (4, saWord 0x0A o)
  | .saXor o => some (4, saWord 0x0B o)
  | .saAndn o => some (4, saWord 0x0C o)
  | .saShl o => some (4, saWord 0x0D o)
  | .saShr o => some (4, saWord 0x0E o)
  | .saSra o => some (4, saWord 0x0F o)
  | .saRotl o => some (4, saWord 0x10 o)
  | .saMin o => some (4, saWord 0x11 o)
  | .saMax o => some (4, saWord 0x12 o)
  | .saMinc o => some (4, saWord 0x13 o)
  | .saMaxc o => some (4, saWord 0x14 o)
  | .saCmpeq o => some (4, saWord 0x15 o)
  | .saCmpne o => some (4, saWord 0x16 o)
  | .saCmplt o => some (4, saWord 0x17 o)
  | .saCmple o => some (4, saWord 0x18 o)
  | .saCmpltc o => some (4, saWord 0x19 o)
  | .saCmplec o => some (4, saWord 0x1A o)
  | .saSel o => some (4, saWord 0x1B o)
  | .saClz o => some (4, saWord 0x1C o)
  | .saCtz o => some (4, saWord 0x1D o)
  | .saPopc o => some (4, saWord 0x1E o)
  | .saBext o => some (4, saWord 0x1F o)
  | .saBins o => some (4, saWord 0x20 o)
  | .saSext o => some (4, saWord 0x21 o)
  | .saZext o => some (4, saWord 0x22 o)
  | .saMov o => some (4, saWord 0x23 o)
  | .saFadd o => some (4, saWord 0x24 o)
  | .saFmul o => some (4, saWord 0x25 o)
  | .saFdiv o => some (4, saWord 0x26 o)
  | .saFcvt o => some (4, saWord 0x27 o)
  | .saFcmp o => some (4, saWord 0x28 o)
  | .agLea o => some (4, agWord 0x00 o)
  | .agAff o => some (4, agWord 0x01 o)
  | .agBound o => some (4, agWord 0x02 o)
  | .agSpa o => some (4, agWord 0x03 o)
  | .agGva o => some (4, agWord 0x04 o)
  | .agAdds o => some (4, agWord 0x05 o)
  | .ldB o => some (4, lsWord 0x00 o)
  | .ldH o => some (4, lsWord 0x01 o)
  | .ldW o => some (4, lsWord 0x02 o)
  | .ldD o => some (4, lsWord 0x03 o)
  | .ldQ o => some (4, lsWord 0x04 o)
  | .ldsB o => some (4, lsWord 0x05 o)
  | .ldsH o => some (4, lsWord 0x06 o)
  | .ldsW o => some (4, lsWord 0x07 o)
  | .stB o => some (4, lsWord 0x08 o)
  | .stH o => some (4, lsWord 0x09 o)
  | .stW o => some (4, lsWord 0x0A o)
  | .stD o => some (4, lsWord 0x0B o)
  | .stQ o => some (4, lsWord 0x0C o)
  | .vld o => some (4, lsWord 0x10 o)
  | .vst o => some (4, lsWord 0x11 o)
  | .vldg o => some (4, lsWord 0x12 o)
  | .vstg o => some (4, lsWord 0x13 o)
  | .vldx o => some (4, lsWord 0x14 o)
  | .vstx o => some (4, lsWord 0x15 o)
  | .amoAddW o => some (4, lsWord 0x20 o)
  | .amoMinW o => some (4, lsWord 0x21 o)
  | .amoMaxW o => some (4, lsWord 0x22 o)
  | .amoMincW o => some (4, lsWord 0x23 o)
  | .amoMaxcW o => some (4, lsWord 0x24 o)
  | .amoAndW o => some (4, lsWord 0x25 o)
  | .amoOrW o => some (4, lsWord 0x26 o)
  | .amoXorW o => some (4, lsWord 0x27 o)
  | .amoXchgW o => some (4, lsWord 0x28 o)
  | .amoCasW o => some (4, lsWord 0x29 o)
  | .amoFaddW o => some (4, lsWord 0x2A o)
  | .amoIncwW o => some (4, lsWord 0x2B o)
  | .amoAddD o => some (4, lsWord 0x30 o)
  | .amoMinD o => some (4, lsWord 0x31 o)
  | .amoMaxD o => some (4, lsWord 0x32 o)
  | .amoMincD o => some (4, lsWord 0x33 o)
  | .amoMaxcD o => some (4, lsWord 0x34 o)
  | .amoAndD o => some (4, lsWord 0x35 o)
  | .amoOrD o => some (4, lsWord 0x36 o)
  | .amoXorD o => some (4, lsWord 0x37 o)
  | .amoXchgD o => some (4, lsWord 0x38 o)
  | .amoCasD o => some (4, lsWord 0x39 o)
  | .amoFaddD o => some (4, lsWord 0x3A o)
  | .amoIncwD o => some (4, lsWord 0x3B o)
  | .amoCasQ o => some (4, lsWord 0x40 o)
  | .redAdd o => some (4, lsWord 0x48 o)
  | .redMin o => some (4, lsWord 0x49 o)
  | .redMax o => some (4, lsWord 0x4A o)
  | .redAnd o => some (4, lsWord 0x4B o)
  | .redOr o => some (4, lsWord 0x4C o)
  | .redXor o => some (4, lsWord 0x4D o)
  | .redFadd o => some (4, lsWord 0x4E o)
  | .redFaddh o => some (4, lsWord 0x4F o)
  | .vaAdd o => some (4, vaWord 0x00 o)
  | .vaSub o => some (4, vaWord 0x01 o)
  | .vaMul o => some (4, vaWord 0x02 o)
  | .vaMulh o => some (4, vaWord 0x03 o)
  | .vaMulhr o => some (4, vaWord 0x04 o)
  | .vaMad o => some (4, vaWord 0x05 o)
  | .vaAbs o => some (4, vaWord 0x06 o)
  | .vaNeg o => some (4, vaWord 0x07 o)
  | .vaMin o => some (4, vaWord 0x08 o)
  | .vaMax o => some (4, vaWord 0x09 o)
  | .vaAvg o => some (4, vaWord 0x0A o)
  | .vaAbsd o => some (4, vaWord 0x0B o)
  | .vaAnd o => some (4, vaWord 0x0C o)
  | .vaOr o => some (4, vaWord 0x0D o)
  | .vaXor o => some (4, vaWord 0x0E o)
  | .vaNot o => some (4, vaWord 0x0F o)
  | .vaLut3 o => some (4, vaImmWord 0x10 o)
  | .vaShl o => some (4, vaWord 0x11 o)
  | .vaShr o => some (4, vaWord 0x12 o)
  | .vaSra o => some (4, vaWord 0x13 o)
  | .vaShlr o => some (4, vaWord 0x14 o)
  | .vaFshl o => some (4, vaWord 0x15 o)
  | .vaFshlImm o => some (4, vaImmWord 0x15 o)
  | .vaFshr o => some (4, vaWord 0x16 o)
  | .vaFshrImm o => some (4, vaImmWord 0x16 o)
  | .vaCmpeq o => some (4, vaWord 0x17 o)
  | .vaCmpne o => some (4, vaWord 0x18 o)
  | .vaCmplt o => some (4, vaWord 0x19 o)
  | .vaCmple o => some (4, vaWord 0x1A o)
  | .vaSel o => some (4, vaWord 0x1B o)
  | .vaClamp o => some (4, vaWord 0x1C o)
  | .vaPopc o => some (4, vaWord 0x1D o)
  | .vaClz o => some (4, vaWord 0x1E o)
  | .vaMov o => some (4, vaWord 0x1F o)
  | .vaFadd o => some (4, vaWord 0x20 o)
  | .vaFsub o => some (4, vaWord 0x21 o)
  | .vaFmul o => some (4, vaWord 0x22 o)
  | .vaFma o => some (4, vaWord 0x23 o)
  | .vaFmin o => some (4, vaWord 0x24 o)
  | .vaFmax o => some (4, vaWord 0x25 o)
  | .vaMulsh o => some (4, vaImmWord 0x29 o)
  | .vpRotr o => some (4, vpWord 5 0x00 o)
  | .vpRotc o => some (4, vpWord 5 0x01 o)
  | .vpBcrow o => some (4, vpWord 5 0x02 o)
  | .vpBccol o => some (4, vpWord 5 0x03 o)
  | .vpRedrAdd o => some (4, vpWord 5 0x04 o)
  | .vpRedrMax o => some (4, vpWord 5 0x05 o)
  | .vpRedrMin o => some (4, vpWord 5 0x06 o)
  | .vpRedcAdd o => some (4, vpWord 5 0x07 o)
  | .vpRedcMax o => some (4, vpWord 5 0x08 o)
  | .vpRedcMin o => some (4, vpWord 5 0x09 o)
  | .vpTrn o => some (4, vpWord 5 0x0A o)
  | .vpPerm o => some (4, vpWord 5 0x0B o)
  | .vpPermImm o => some (4, vpImmWord 0x0B o)
  | .vpZip o => some (4, vpWord 5 0x0C o)
  | .vpUnzip o => some (4, vpWord 5 0x0D o)
  | .vpShiftr o => some (4, vpWord 5 0x0E o)
  | .vpShiftc o => some (4, vpWord 5 0x0F o)
  | .vpScanrAdd o => some (4, vpWord 5 0x10 o)
  | .vpScancAdd o => some (4, vpWord 5 0x11 o)
  | .vfExp2 o => some (4, vpWord 6 0x00 o)
  | .vfLog2 o => some (4, vpWord 6 0x01 o)
  | .vfRcp o => some (4, vpWord 6 0x02 o)
  | .vfRsqrt o => some (4, vpWord 6 0x03 o)
  | .vfSqrt o => some (4, vpWord 6 0x04 o)
  | .vfSinpi o => some (4, vpWord 6 0x05 o)
  | .vfCospi o => some (4, vpWord 6 0x06 o)
  | .vfTanh o => some (4, vpWord 6 0x07 o)
  | .vfSigm o => some (4, vpWord 6 0x08 o)
  | .vfFdiv o => some (4, vpWord 6 0x0A o)
  | .vcCvt o => some (4, vcWord 0x00 o)
  | .vcCvts o => some (4, vcWord 0x01 o)
  | .vcQblk o => some (4, vcWord 0x02 o)
  | .vcDqblk o => some (4, vcWord 0x03 o)
  | .vcQts8 o => some (4, vcWord 0x04 o)
  | .vcDqts8 o => some (4, vcWord 0x05 o)
  | .vcUnpk10 o => some (4, vcWord 0x06 o)
  | .vcUnpk12 o => some (4, vcWord 0x07 o)
  | .vcUnpk14 o => some (4, vcWord 0x08 o)
  | .vcPk10 o => some (4, vcWord 0x09 o)
  | .vcPk12 o => some (4, vcWord 0x0A o)
  | .vcPk14 o => some (4, vcWord 0x0B o)
  | .vcSwap16 o => some (4, vcWord 0x0D o)
  | .fuResultLand _ _ => none
  | .landingDue _ _ => none
  | .landingDataArrival _ _ _ => none
  | .slackExpire _ => none
  | .starvationIssue _ => none
  | .yieldExpire _ => none
  | .formatShadowEnd _ => none
  | .dictRefillComplete _ _ => none
  | .pageWalkComplete _ _ => none
  | .mxNop => some (1, 0)
  | .mstep o => some (1, mxWord 0x01 o)
  | .mstepG o => some (1, mxWord 0x02 o)
  | .mpre o => some (1, mxWord 0x03 o)
  | .mstepWs o => some (1, mxWord 0x04 o)
  | .mfin o => some (1, mxWord 0x05 o)
  | .mzero o => some (1, mxWord 0x06 o)
  | .mcorr o => some (1, mxWord 0x07 o)
  | .mcld o => some (1, mxWord 0x08 o)
  | .mcinv o => some (1, mxWord 0x09 o)
  | .mscl o => some (1, mxWord 0x0A o)
  | .matrixEngineStart _ _ => none
  | .matrixComplete _ _ => none
  | .cpNop => some (2, 0)
  | .cpy o => some (2, cpWord 0x01 o)
  | .cpyf o => some (2, cpWord 0x02 o)
  | .cpyt o => some (2, cpWord 0x03 o)
  | .lblk o => some (2, cpWord 0x04 o)
  | .eblk o => some (2, cpWord 0x05 o)
  | .put o => some (2, cpWord 0x06 o)
  | .sread o => some (2, cpWord 0x07 o)
  | .swrite o => some (2, cpWord 0x08 o)
  | .cfill o => some (2, cpWord 0x09 o)
  | .xcpy o => some (2, cpWord 0x18 o)
  | .nput o => some (2, cpWord 0x10 o)
  | .nget o => some (2, cpWord 0x11 o)
  | .nref o => some (2, cpWord 0x12 o)
  | .nrel o => some (2, cpWord 0x13 o)
  | .nswap o => some (2, cpWord 0x14 o)
  | .nout o => some (2, cpWord 0x15 o)
  | .nstat o => some (2, cpWord 0x16 o)
  | .copyEngineStart _ _ => none
  | .flumeBlock _ _ => none
  | .copyComplete _ _ => none
  | .reclaimDecrement _ _ => none
  | .ordinalRelease _ _ => none
  | .nvmeCompletion _ _ _ => none
  | .storageTimeout _ => none
  | .ctNop => some (3, 0)
  | .br off => some (3, packN 18 0 (packN 24 off (packN 6 0x01 0)))
  | .brk off k sense => some (3, packN 13 0 (packN 1 (bit sense) (packN 4 k (packN 24 off (packN 6 0x02 0)))))
  | .call off => some (3, packN 18 0 (packN 24 off (packN 6 0x03 0)))
  | .ret => some (3, packN 42 0 (packN 6 0x04 0))
  | .jmp src link => some (3, packN 29 0 (packN 1 (bit link) (packN 12 src (packN 6 0x05 0))))
  | .loop cnt off imm => some (3, packN 13 0 (packN 1 (bit imm) (packN 16 off (packN 12 cnt (packN 6 0x06 0)))))
  | .lbrk n cond sense k => some (3, packN 33 0 (packN 4 k (packN 1 (bit sense) (packN 1 (bit cond) (packN 3 (n - 1) (packN 6 0x07 0))))))
  | .twait src soft => some (3, packN 29 0 (packN 1 (bit soft) (packN 12 src (packN 6 0x08 0))))
  | .twaitComplete _ => none
  | .cwait a sreg scope => some (3, packN 28 0 (packN 3 scope (packN 6 sreg (packN 5 a (packN 6 0x09 0)))))
  | .cwaitComplete _ => none
  | .fence kind scope => some (3, packN 37 0 (packN 3 scope (packN 2 kind (packN 6 0x0A 0))))
  | .drain => some (3, packN 42 0 (packN 6 0x0B 0))
  | .drainComplete _ => none
  | .xfence => some (3, packN 42 0 (packN 6 0x0C 0))
  | .xfenceComplete _ => none
  | .fmtw reg src => some (3, packN 28 0 (packN 12 src (packN 2 reg (packN 6 0x0D 0))))
  | .sget dst sys => some (3, packN 18 0 (packN 12 sys (packN 12 dst (packN 6 0x0E 0))))
  | .sgetFpstat dst => some (3, packN 18 0 (packN 12 0x003 (packN 12 dst (packN 6 0x0E 0))))
  | .sset src sys => some (3, packN 18 0 (packN 12 sys (packN 12 src (packN 6 0x0F 0))))
  | .ssetSplit src => some (3, packN 18 0 (packN 12 0x012 (packN 12 src (packN 6 0x0F 0))))
  | .splitConvert _ => none
  | .ssetDict src => some (3, packN 18 0 (packN 12 0x011 (packN 12 src (packN 6 0x0F 0))))
  | .ssetVwin src => some (3, packN 18 0 (packN 12 0x010 (packN 12 src (packN 6 0x0F 0))))
  | .ssetNreg src => some (3, packN 18 0 (packN 12 0x038 (packN 12 src (packN 6 0x0F 0))))
  | .ssetLdepth src => some (3, packN 18 0 (packN 12 0x08F (packN 12 src (packN 6 0x0F 0))))
  | .fpstatClear src => some (3, packN 18 0 (packN 12 0x003 (packN 12 src (packN 6 0x0F 0))))
  | .gmset g n => some (3, packN 32 0 (packN 6 n (packN 4 g (packN 6 0x10 0))))
  | .bacq mask => some (3, packN 26 0 (packN 16 mask (packN 6 0x11 0)))
  | .bacqGrant _ => none
  | .brel mask => some (3, packN 26 0 (packN 16 mask (packN 6 0x12 0)))
  | .qpush a sreg nb => some (3, packN 30 0 (packN 1 (bit nb) (packN 6 sreg (packN 5 a (packN 6 0x13 0)))))
  | .qpushSlotFree _ => none
  | .halt => some (3, packN 42 0 (packN 6 0x14 0))
  | .trap code => some (3, packN 26 0 (packN 16 code (packN 6 0x15 0)))
  | .tret => some (3, packN 42 0 (packN 6 0x16 0))
  | .ppt => some (3, packN 42 0 (packN 6 0x17 0))
  | .cwb a sreg => some (3, packN 31 0 (packN 6 sreg (packN 5 a (packN 6 0x18 0))))
  | .iinv a sreg => some (3, packN 31 0 (packN 6 sreg (packN 5 a (packN 6 0x19 0))))
  | .fsync => some (3, packN 42 0 (packN 6 0x1A 0))
  | .fsyncComplete _ => none
  | .ewait => some (3, packN 42 0 (packN 6 0x1B 0))
  | .ewaitComplete _ => none
  | .brkp code => some (3, packN 26 0 (packN 16 code (packN 6 0x1C 0)))
  | .tokc src => some (3, packN 30 0 (packN 12 src (packN 6 0x1D 0)))
  | .yield => some (3, packN 42 0 (packN 6 0x1E 0))
  | .weirArrive _ => none
  | .weirRelease _ => none
  | .superstepRelease _ => none
  | .trapEntry _ => none
  | .preemptSave _ => none
  | .preemptDeadline _ => none
  | .jobResume _ => none
  | .queueEnable _ => none
  | .queueDisable _ => none
  | .queueReset _ => none
  | .regionInstallRequest _ => none
  | .regionRemoveRequest _ => none
  | .regionRemove _ => none
  | .evrdWrite _ => none
  | .attestRequest _ => none
  | .bar0Write _ _ _ => none
  | .packetValidate _ => none
  | .launch _ => none
  | .jobBind _ => none
  | .wait _ => none
  | .signal _ => none
  | .node _ => none
  | .nodeRun _ => none
  | .copy _ => none
  | .tlbi _ => none
  | .role _ => none
  | .roleGraceExpire => none
  | .roleDrainEnd => none
  | .roleFlushEnd => none
  | .snap _ => none
  | .query _ => none
  | .packetComplete _ => none
  | .jobComplete _ => none
  | .deviceReset => none
  | .bootStage => none
  | .retrainDue _ => none
  | .retrainForced _ => none
  | .retrainEnd _ _ _ => none
  | .hostPostedWrite _ _ _ => none
  | .hostRead _ _ => none
  | .hostAtomicop _ _ _ _ _ => none
  | .peerAccess _ _ _ => none
  | .flitReceive _ _ => none
  | .powerLimitInterval => none
  | .thermalLimitInterval _ => none
  | .scrubVisit _ _ => none
  | .indexWordFetchComplete _ => none
  | .landingStoreAccepted _ _ => none
  | .cxlCacheSnoop _ _ => none
  | .leatPortDown _ => none
  | .leatPortTrained _ _ => none
  | .aerUncorrectableError _ => none

/-- A bundle that holds one slot's word alone, in move slot x0 where it is a move. -/
def oneSlotBundle (kw : Nat × Nat) : Nat := kw.2 * 2 ^ (slotPlace kw.1).1

/-- `n` 16-bit words of a number, the lowest first (R54). -/
def words16 : Nat → Nat → List Nat
  | 0, _ => []
  | n + 1, v => v % 65536 :: words16 n (v / 65536)

/-- The words of an instruction as a literal: the escape, then the 24 words of a bundle that holds it alone (R54).
An event has no word. -/
def encode (i : Instr) : List Nat :=
  match i.word with
  | some kw => 0xFFFF :: words16 24 (oneSlotBundle kw)
  | none => []

/-- A number from its 16-bit words, the lowest first. -/
def ofWords16 : List Nat → Nat
  | [] => 0
  | w :: r => w % 65536 + 65536 * ofWords16 r

/-- What an index word is, in a window of `size` entries (Table 3.1). -/
inductive IndexWord where
  | entry (n : Nat)
  | escape
  | illegal
  deriving DecidableEq, Repr

/-- Table 3.1. -/
def decodeIndex (size w : Nat) : IndexWord :=
  if w = 0xFFFF then .escape else if w < size ∧ w < 0xFFF0 then .entry w else .illegal

/-- Why words do not decode to an instruction. -/
inductive DecodeError where
  | illegalIndex (w : Nat)
  | truncated
  | illegalBundle (slot : Nat)
  deriving DecidableEq, Repr

/-- The bundle of a literal at the head of a list of words, with the rest of the list. -/
def decodeLiteral : List Nat → Except DecodeError (Bundle × List Nat)
  | 0xFFFF :: r =>
    if r.length < 24 then .error .truncated
    else
      match decodeBundle (ofWords16 (r.take 24)) with
      | .error k => .error (.illegalBundle k)
      | .ok b => .ok (b, r.drop 24)
  | [] => .error .truncated
  | w :: _ => .error (.illegalIndex w)

/-- The one instruction of a bundle: its only slot that is not a nop. A bundle of several is the issue of a whole bundle
(by context 0 of core 3.0.0, flat number 1536); one of none is its control slot's nop. -/
def Bundle.instr (b : Bundle) : Instr :=
  match b.slots.filter (fun p => !p.2.isNop) with
  | [] => if b.hdr = Header.none then .ctNop else .bundleIssue 1536
  | [p] => if b.hdr = Header.none then p.2 else .bundleIssue 1536
  | _ => .bundleIssue 1536

/-- The instruction of `nbits` bits of index-stream words, the first lowest; words above `nbits` are zero. -/
def decodeTableWord (nbits w : Nat) : Option Instr :=
  match decodeLiteral (words16 25 (w % 2 ^ nbits)) with
  | .ok (b, _) => some b.instr
  | .error _ => none

end Sys2Proof
end

