-- ==== Sys2Proof/Config.lean ====
section
/-! DEFINITION. What an implementation fixes, and the free values: values the spec leaves open, which nothing here gives a number. -/

namespace Sys2Proof.Config

/-- A free value per draw and index (notes/assumptions/4.md): the step applies it to State.tick. -/
opaque freeNat : Nat → Nat → Nat

/-- The stepping number of the part, as dieid and QUERY report it (R98). -/
opaque stepping : Nat → Nat

/-- The status of an erratum on the part's stepping (R99, R100): 0 never present, 1 present, 2 corrected with the old
behaviour offered, 3 corrected with it withdrawn. -/
opaque erratum : Nat → Nat

/-- How far the delivered f32 value of an inexact special function lies from the code below the exact value, as a function of
the operation, the format, the mode and the operand (R150); taken within the bound of Table 7.6. -/
opaque vfChoice : Nat → Nat → Nat → Nat → Nat

/-- The device identity key of ECDSA P-521, and the nonce of a signature over a digest (R361, R363). -/
opaque identityKey : Nat → Nat
opaque signNonce : Nat → Nat

/-- The bytes of the Neldan root key, a P-521 public key of 133 bytes in on-die ROM (R361). -/
opaque rootKey : Nat → Nat

/-- The bytes of the SHA-512 of the Miller microcode, as the attestation report gives them (R363). -/
opaque millerCode : Nat → Nat

/-- The GiB that peer n exports, by its own LEXP (R357, R358; notes/assumptions/51.md). -/
opaque peerExport : Nat → Nat

end Sys2Proof.Config
end

