-- ==== Sys2Proof/Machine/State.lean ====
section
/-! DEFINITION. The state of the Kredom as plain data, the reasons a step can stop, and the state after reset.
A context is numbered core · 4 + context; a core by its flat index (R17, R18). -/

namespace Sys2Proof.Machine

/-! ## Values and contexts -/

/-- The kind of a held value (R63). -/
inductive Kind where
  | scalar | tile | pair
  deriving DecidableEq, Repr

/-- The value of a port: a scalar lies in elements (0,0) to (0,3) of `lo`; a tile fills `lo`; a pair fills both (R28, R63). -/
structure PVal where
  kind : Kind
  lo : Tile
  hi : Tile
  deriving DecidableEq, Repr

/-- A scalar as a port holds it. -/
def PVal.scal (n : Nat) : PVal := ⟨.scalar, BitVec.ofNat 16384 (n % 2 ^ 64), 0⟩
/-- The value of a vector result port that nothing has landed in (R63). -/
def PVal.zeroTile : PVal := ⟨.tile, 0, 0⟩
/-- The value of a latch that nothing has written (R61). -/
def PVal.zero : PVal := ⟨.scalar, 0, 0⟩

/-- What a landing access adds to its place in flight (R80, R81, R209). -/
structure Landing where
  /-- landing-buffer entries it holds; 0 for stores and reductions -/
  entries : Nat
  /-- its data have arrived, or the store has been accepted -/
  arrived : Bool
  /-- whether `drain` counts it (Table 9.2) -/
  remote : Bool
  /-- address of a PCIe AtomicOp it was sent as (R214) -/
  hostOp : Option Nat
  /-- vertical interfaces it crosses, bit i for interface i (R335) -/
  cross : Nat
  deriving DecidableEq, Repr

/-- A result or access in flight, in issue order: it lands at one context cycle of [lo, hi] (R77); a landing access at hi (R80). -/
structure Flight where
  fu : Nat
  /-- bound of the operation: results of one bound land in trigger order -/
  bound : Nat
  /-- trap level whose port set it lands in (R291) -/
  level : Nat
  lo : Nat
  hi : Nat
  /-- the value for the result port; none for a store -/
  val : Option PVal
  /-- mask that merges it with the port at landing (R137) -/
  mask : Option Tile
  flags : Nat
  /-- exceptions enabled at its issue (R50) -/
  enables : Nat
  /-- condition written with it (R109) -/
  cond : Option (Nat × Bool)
  /-- bundle that started it -/
  pc : Nat
  landing : Option Landing
  deriving DecidableEq, Repr

/-- What a context waits for before its next bundle (R113, R125, R199, R51, R295). -/
inductive Wait where
  | tokens (mask : Nat) (soft : Bool)
  | counter (addr thr : Nat)
  | drain
  | xfence
  | fsync
  | engines
  | ways (mask : Nat)
  | push (q pkt : Nat)
  | weir (g n : Nat) (step ppt arrived : Bool)
  | split (new : Nat)
  | fpstat (dst upto : Nat)
  | entry (cause tval epc lit : Nat)
  | save (deadline : Nat)
  deriving DecidableEq, Repr

/-- Whether a context may run (R86, R129, R299, R304). -/
inductive Run where
  | unbound | resident | halted | killed
  deriving DecidableEq, Repr

/-- One level of the loop stack (Table 6.6); level 0 is the innermost. -/
structure Loop where
  count : Nat
  index : Nat
  start : Nat
  exit : Nat
  deriving DecidableEq, Repr

/-- A trap to be taken before the next bundle (R293): cause and value. -/
structure PendingTrap where
  cause : Nat
  tval : Nat
  deriving DecidableEq, Repr

/-- A context's sequencing. -/
structure Seq where
  run : Run
  pc : Nat
  base : Nat
  limit : Nat
  /-- context cycle (R75) -/
  cyc : Nat
  /-- device cycle before which no bundle issues: the bubbles of a taken branch (R66) -/
  wake : Nat
  /-- bubble cycles that have passed since the latest bundle: the last of them is the context cycle before `cyc` (R75, R77) -/
  gap : Nat
  loops : List Loop
  ldepth : Nat
  kcond : BitVec 16
  /-- last context cycle in which `sset` wrote kcond, plus one (R123) -/
  kset : Nat
  wstep : Nat
  wait : Option Wait
  /-- the weir wait of a bundle whose control slot began a wait of its own: the context needs both to end (R113, R125) -/
  behind : Option Wait
  /-- the boundary after the latest bundle is a point of pre-emption (R302) -/
  point : Bool
  pend : Option PendingTrap
  /-- bundle whose enabled FP exception is still to be delivered (R294) -/
  fpx : Option Nat
  /-- a bundle that was in the fetch path when what it came from was invalidated: its bits, and the words of the stream it took (R57) -/
  path : Option (Nat × Nat)
  deriving DecidableEq, Repr

/-- A context as the selector and the Miller see it. -/
structure Sched where
  /-- device cycle the present stall began, and its slack (R83) -/
  stall : Option (Nat × Nat)
  /-- the stall's slack has run out -/
  yielded : Bool
  /-- device cycle since which it has been ready and unissued (R86) -/
  readySince : Nat
  /-- device cycle of the yield in force (R131) -/
  yieldAt : Option Nat
  /-- pre-emption requested: request cycle and deadline (R304) -/
  preempt : Option (Nat × Nat)
  /-- weir arrivals by group-mask number (R125) -/
  arrivals : Sparse Nat
  /-- job, by the Miller's number -/
  job : Nat
  /-- entry of the placement map -/
  place : Nat
  asid : Nat
  /-- pages of the waiting bundle's accesses whose walk faulted (R195, R320) -/
  faults : List Nat
  deriving DecidableEq, Repr

/-- A context's register files (R62); an unlisted register holds zero. -/
structure Regs where
  s : Sparse Word
  a : Sparse Word
  o : Sparse Word
  /-- md n word w at 4n + w -/
  md : Sparse Word
  /-- cp n word w at 24n + w -/
  cp : Sparse Word
  /-- group masks: core mask, die mask, context number (R124) -/
  gm : Sparse (Nat × Nat × Nat)
  /-- lnd0 to lnd7, then slk1 to slk15 at 16 + n -/
  lnd : Sparse Nat
  tset : BitVec 64
  terr : BitVec 64
  deriving DecidableEq, Repr

/-- A context's ports and what is in flight toward them. -/
structure Ports where
  /-- latches: level · 16 + fu · 2 + p (R61) -/
  latch : Sparse PVal
  /-- result ports: level · 8 + fu for sa and ag, fu for the rest (R291) -/
  result : Sparse PVal
  /-- kind pair of the vector result ports, by fu (R63) -/
  pairs : BitVec 8
  /-- in issue order -/
  flights : List Flight
  /-- context cycle at which the context's own operation leaves a unit (R78) -/
  busy : Sparse Nat
  /-- due context cycle of a z tile (R82) -/
  zdue : Sparse Nat
  /-- latest landing bound of a flag-raising operation (R51) -/
  flagDue : Nat
  deriving DecidableEq, Repr

/-- A context's format registers (R49 to R51, R88, R178). -/
structure Formats where
  mfmt : Nat
  cvtctl : Nat
  fpctl : Nat
  fpstat : Nat
  /-- writes in their shadow: register (0 mfmt, 1 cvtctl, 2 fpctl), value, bundles still to issue under the old value -/
  shadow : List (Nat × Nat × Nat)
  deriving DecidableEq, Repr

/-- A context's trap registers (R292). -/
structure Traps where
  level : Nat
  base1 : Nat
  base2 : Nat
  cause1 : Nat
  cause2 : Nat
  epc1 : Nat
  epc2 : Nat
  tval1 : Nat
  tval2 : Nat
  tvec : Nat
  tsave : Nat
  predl : Nat
  deriving DecidableEq, Repr

/-- A context's windows and engine records. -/
structure Windows where
  vbase : Nat
  vcount : Nat
  dbase : Nat
  dsize : Nat
  /-- way mask of `split` -/
  ways : Nat
  wb : Nat
  nreg : Nat
  /-- efrec words 0 to 3 (Table 10.5) -/
  efrec0 : Nat
  efrec1 : Nat
  efrec2 : Nat
  efrec3 : Nat
  /-- device cycle at which efrec was written, plus one, and the issue number of the instruction (R237) -/
  efclk : Nat
  efseq : Nat
  hit : Nat
  miss : Nat
  inval : Nat
  deriving DecidableEq, Repr

/-- A context. -/
structure Ctx where
  seq : Seq
  sched : Sched
  regs : Regs
  ports : Ports
  fmts : Formats
  traps : Traps
  win : Windows
  deriving DecidableEq, Repr

/-! ## Cores -/

/-- The state of a way of the divisible array (R196), with the owner tag (job, context). -/
inductive Way where
  | cache
  | owned (job ctx : Nat)
  | released (job ctx : Nat)
  deriving DecidableEq, Repr

/-- The translation that something was brought or written through: the ASID and the page number (va / 65536), and the level and the G
bit of its leaf (R324, R326). -/
structure Via where
  asid : Nat
  page : Nat
  level : Nat
  glob : Bool
  deriving DecidableEq, Repr

/-- A dictionary-store entry (R57). -/
structure DictEntry where
  bundle : Nat
  va : Nat
  /-- places its first word, and its first word of a second page, were read from: store · 2^60 + address -/
  pa : Nat
  pb : Nat
  job : Nat
  valid : Bool
  /-- translations that its first and its last byte were read through -/
  via : Via
  viab : Via
  deriving DecidableEq, Repr

/-- An index word in the index-word cache: its place, store · 2^60 + address, and the translation it was read through (R57). -/
structure IndexWord where
  word : Nat
  place : Nat
  via : Via
  deriving DecidableEq, Repr

/-- A cached leaf translation (R323): the leaf and its level. -/
structure TlbEntry where
  asid : Nat
  /-- page number (va / 65536) of a page of it -/
  page : Nat
  level : Nat
  pte : Nat
  /-- physical address of the leaf -/
  addr : Nat
  deriving DecidableEq, Repr

/-- One edge's correction-cache entry (R173): tag, extent for invalidation, vector. -/
structure Corr where
  base : Nat
  pitch : Nat
  lanes : Nat
  k : Nat
  fmt : Nat
  scl : Option Nat
  trans : Bool
  gidx : Option Nat
  /-- byte ranges (start, length) whose writing invalidates it (R174) -/
  ranges : List (Nat × Nat)
  /-- context that installed it, by its job and entry of the placement map (R176) -/
  job : Nat
  place : Nat
  vec : List Nat
  deriving DecidableEq, Repr

/-- A lane's exponent as fed (R161): none when NaN-marked. -/
abbrev LaneExp := Option Int

/-- An accumulator bank (R162, R180). -/
structure Bank where
  /-- sums, row-major, 128 by 128; S already scaled back to full squares, or T (R162, R164); no list: all zero -/
  sums : List Int
  aexp : List LaneExp
  bexp : List LaneExp
  /-- corrections used: r and s; empty in twin-shift -/
  r : List Nat
  c : List Nat
  /-- 2F + 1 of R158 with its half, or F + 7 of R164 -/
  frac : Int
  twin : Bool
  faulted : Bool
  /-- written by a step that a write raced with (R175) -/
  raced : Bool
  u : List Nat
  v : List Nat
  deriving DecidableEq, Repr

/-- The stationary operand (R170). -/
structure Stationary where
  ctx : Nat
  k : Nat
  fmt : Nat
  scaled : Bool
  /-- aligned lanes: exponent and K values; for ts8 the value in units of 2^−7 and the block exponent of each code -/
  lanes : List (LaneExp × List Int × List Int)
  corr : List Nat
  raced : Bool
  deriving DecidableEq, Repr

/-- Where an engine instruction stands. -/
inductive Stage where
  | queued | running
  deriving DecidableEq, Repr

/-- What every engine instruction records at issue. -/
structure Issued where
  ctx : Nat
  job : Nat
  /-- entry of the placement map, which names the context after a resumption elsewhere (R309, R310) -/
  place : Nat
  /-- issue order on the device -/
  seq : Nat
  pc : Nat
  /-- superstep of a step-tagged instruction (R126, R190) -/
  step : Option Nat
  /-- owned ways at issue (R238) -/
  ways : Nat
  stage : Stage
  /-- a token-in was in error at start (R223) -/
  poisoned : Bool
  deriving DecidableEq, Repr

/-- A matrix instruction queued or running. -/
structure MxRun where
  iss : Issued
  op : Nat
  o : MxOps
  desc : List Nat
  /-- effective bases of A and B (R166) -/
  abase : Nat
  bbase : Nat
  mfmt : Nat
  /-- lookups made at the start: the vector of each edge that hit (R173) -/
  hitA : Option (List Nat)
  hitB : Option (List Nat)
  /-- an engine fault found at the start (Table 8.8) -/
  fault : Option Nat
  /-- scratchpad bytes it reads (start, length), and whether a write that nothing orders with it has met them (R175) -/
  ranges : List (Nat × Nat)
  raced : Bool
  /-- its feed occupancy has ended: the feed stage is free (R186) -/
  fed : Bool
  /-- it was queued behind an instruction of its context that performed no effect (R289) -/
  after : Bool
  /-- rows that a running `mfin` or `mzero` writes, as readers of other contexts may already find them (R188) -/
  out : List (BitVec 4096)
  deriving DecidableEq, Repr

/-- A copy or content-named instruction queued or running. -/
structure CpRun where
  iss : Issued
  op : Nat
  o : CpOps
  pat : List Nat
  counter : Nat
  /-- cvtctl in force at issue (R228) and the copy of its stochastic state (R42) -/
  cvtctl : Nat
  region : Nat
  /-- order of start, for the Flume (R236) -/
  order : Nat
  /-- Flume: stream position, block index, bytes expanded so far, and whether the stream has ended (R235) -/
  pos : Nat
  block : Nat
  data : List Nat
  ended : Bool
  /-- a fault met before the end: cause and detail -/
  fault : Option (Nat × Nat)
  /-- numbers of its reads that are still to perform, and what the others have brought (R219) -/
  todo : List Nat
  got : List (Nat × Nat)
  /-- numbers of its writes that are still to perform -/
  left : List Nat
  /-- writes that were discarded, the own ways that an access has met under another owner tag (R238), and the destination bytes
  written so far (R237) -/
  lost : List Nat
  gone : Nat
  wrote : Nat
  /-- scratchpad bytes it has written: core · 2^24 + offset, and length (R175) -/
  wet : List (Nat × Nat)
  /-- named-line instruction: actions performed, and what they have come to (R252 to R257) -/
  acts : Nat
  acc : List Nat
  /-- installation of its region at issue (R258) -/
  install : Nat
  deriving DecidableEq, Repr

/-- Bytes of a way of a core's scratchpad that a completed copy, a matrix instruction's record or another core has written, and that
no acquire of the way's owner has ordered yet (R175, R187): the writer's job and place, the opcode of a copy or 0, the way, the writer's
tokens that tell of it, the way's owner's tokens of `nswap` instructions that acquired it (R255), its counter's address, whether it was
step-tagged. -/
structure Fresh where
  job : Nat
  place : Nat
  op : Nat
  way : Nat
  touts : List Nat
  acq : List Nat
  counter : Nat
  step : Bool
  ranges : List (Nat × Nat)
  deriving DecidableEq, Repr

/-- A locked load-block (R203). -/
structure LoadBlock where
  va : Nat
  lines : Nat
  asid : Nat
  /-- the way that holds each line -/
  ways : List Nat
  deriving DecidableEq, Repr

/-- A `cwb` or `iinv` that is pending on a core (R132): the context that issued it there, by its job, whose tables translate the range,
and its entry of the placement map. -/
structure Maint where
  job : Nat
  place : Nat
  inv : Bool
  base : Nat
  len : Nat
  deriving DecidableEq, Repr

/-- A core's vector and issue state. -/
structure Core where
  tiles : Sparse Tile
  ways : Sparse Way
  /-- device cycle at which a unit is free, and the context that holds it (R78) -/
  units : Sparse (Nat × Nat)
  /-- device cycle after the latest issue -/
  nextIssue : Nat
  /-- context that issued last, by priority (R86) -/
  turn : Sparse Nat
  dict : Sparse DictEntry
  /-- index-word cache, by asid · 2^55 + va of a word (R57) -/
  icache : Sparse IndexWord
  /-- at most 256 entries, the newest first (R323) -/
  tlb : List TlbEntry
  blocks : List LoadBlock
  maint : List Maint
  /-- bytes of its scratchpad that have been written and that no acquire has ordered yet (R175) -/
  fresh : List Fresh
  deriving DecidableEq, Repr

/-- A core's engines. -/
structure Engines where
  bank0 : Bank
  bank1 : Bank
  /-- z tile rows: 128 t + i holds 128 f32 values, the first lowest -/
  z : Sparse (BitVec 4096)
  stat : Option Stationary
  corr : List Corr
  mxq : List MxRun
  cpq : List CpRun
  deriving DecidableEq, Repr

/-- A page walk that a core waits for, or a dictionary refill under way for it. -/
inductive Fetch where
  | walk (asid root page : Nat)
  | refill (ctx entry : Nat)
  deriving DecidableEq, Repr

/-- The translation caches of a die (R323): the walks that its walkers have to serve, in arrival order (a walk of one ASID to
one page is one walk for all its cores), the table entries that the walkers hold (ASID, address, entry), and the TLB of each
cluster, at most 4,096 entries; number 32 is the Miller's own, on d0. -/
structure DieTables where
  walks : List Fetch
  tables : List (Nat × Nat × Nat)
  tlbs : Sparse (List TlbEntry)
  deriving DecidableEq, Repr

/-! ## Memory and the Miller -/

/-- A write of an `xcpy` that is still to become visible: the owner's job and place, the instruction's issue number, the translation and
the virtual address it was written through, the store, its bytes. -/
structure Loose where
  job : Nat
  place : Nat
  seq : Nat
  via : Via
  va : Nat
  space : Nat
  addr : Nat
  len : Nat
  val : Nat
  deriving DecidableEq, Repr

/-- A locked line of a pinned page (R202): its core, way and line address (a slice is core 512 + 384 die + slice), and the page it was
locked through. -/
structure Locked where
  core : Nat
  way : Nat
  line : Nat
  via : Via
  deriving DecidableEq, Repr

/-- A line of 128 bytes that a core's L1 or near-cache ways hold dirty: its place (store · 2^60 + address), the bytes that L2 holds, and
the translations it was written through (R105, R196, R326). -/
structure Dirty where
  core : Nat
  place : Nat
  old : Nat
  vias : List Via
  deriving DecidableEq, Repr

/-- Byte stores: device DRAM, scratchpads (core · 2^24 + offset), host memory, peer memory (peer · 2^40 + offset). -/
structure Mem where
  dram : Memory
  sp : Memory
  host : Memory
  peer : Memory
  /-- 16-byte pieces of DRAM with an uncorrectable error, by address (R374) -/
  bad : List Nat
  /-- locked lines of pinned pages (R202) -/
  locked : List Locked
  /-- 16-byte pieces of scratchpads with an uncorrectable error, by address (R374) -/
  badSp : List Nat
  /-- dirty lines of L1 and of the near-cache ways, the newest first (R105, R196) -/
  l1 : List Dirty
  /-- writes of completed `xcpy` instructions that no fence of their context has yet made visible (R231), the oldest first -/
  loose : List Loose
  deriving DecidableEq, Repr

/-- One queue's registers (Table 20.2). -/
structure Queue where
  qbase : Nat
  qcfg : Nat
  qidx : Nat
  en : Bool
  /-- 0 DISABLED, 1 RUNNING, 2 ERROR -/
  st : Nat
  reason : Nat
  slot : Nat
  /-- read index of a head packet that has passed validation (R342) -/
  valid : Option Nat
  /-- job that pushed the packets of a device-side queue, by slot index (R346) -/
  pushers : Sparse Nat
  deriving DecidableEq, Repr

/-- A packet that has been taken (R339, R351). -/
structure Taken where
  n : Nat
  q : Nat
  ridx : Nat
  /-- the packet's bytes as a little-endian number -/
  pkt : Nat
  /-- pushing job, whose address space its addresses are in -/
  job : Option Nat
  /-- task-graph node it is the work of -/
  node : Option Nat
  /-- status once it has completed, with the engine cause and detail (R352) -/
  status : Option (Nat × Nat)
  deriving DecidableEq, Repr

/-- A task-graph node (R348). -/
structure Node where
  count : Int
  defined : Bool
  q : Nat
  /-- the NODE's own taken number -/
  taken : Nat
  succ : List Nat
  work : Nat
  job : Option Nat
  running : Bool
  deriving DecidableEq, Repr

/-- A context's part of a save image (R305, Table 17.7). -/
structure Saved where
  place : Nat
  ctx : Ctx
  tiles : Sparse Tile
  /-- saved ways: way number and contents -/
  ways : List (Nat × Memory)
  /-- banks, z tiles and stationary operand (R308) -/
  matrix : Option Engines
  /-- core it was on -/
  core : Nat
  /-- bytes of the saved ways that no acquire had ordered (R175) -/
  fresh : List Fresh
  deriving DecidableEq, Repr

/-- A placement-map entry (R91), with the context it is bound to. -/
structure Place where
  die : Nat
  cluster : Nat
  core : Nat
  ctx : Nat
  entry : Nat
  ways : Nat
  vbase : Nat
  vcount : Nat
  dbase : Nat
  dsize : Nat
  bound : Nat
  deriving DecidableEq, Repr

/-- A job (R345). -/
structure Job where
  /-- identity: (queue << 32) | read index -/
  id : Nat
  /-- 0 asking to bind, 1 running, 2 pre-empted, 3 complete -/
  st : Nat
  prio : Nat
  root : Nat
  asid : Nat
  rmask : Nat
  qmask : Nat
  log : Nat
  predl : Nat
  param : Nat
  region : Nat
  slk : List Nat
  loadlist : Nat
  compat : Nat
  parent : Option Nat
  /-- the LAUNCH's bytes, the number it was taken under, and the node whose work it is -/
  pkt : Nat
  taken : Nat
  node : Option Nat
  /-- bind order, for R355 -/
  order : Nat
  /-- queued since its queue's last reset (R350) -/
  known : Bool
  deriving DecidableEq, Repr

/-- What a job's load leaves (R91, R94, R97). -/
structure Loaded where
  places : List Place
  /-- dies of the placement shape (Table 5.3) -/
  dies : Nat
  /-- code segment and its index-stream sections: virtual address, bytes -/
  base : Nat
  limit : Nat
  sections : List (Nat × Nat)
  /-- dictionary sections in list order: virtual address, entries -/
  dicts : List (Nat × Nat)
  /-- names counted for its bodies (R97): region, name -/
  bodies : List (Nat × Nat)
  saved : List Saved
  /-- 1 a fault-log entry of type 2, 3 or 4 was written; 2 an object was refused; 7 region not granted -/
  error : Nat
  deriving DecidableEq, Repr

/-- The event ring (R352): registers, buffered records, folded records by source. -/
structure Events where
  evbase : Nat
  evcfg : Nat
  evidx : Nat
  evrd : Nat
  buffer : List Nat
  folded : List (Nat × Nat)
  deriving DecidableEq, Repr

/-- A present line of a region (R246 to R248): bucket, ordinal, contents, count, and whether its heap line has an uncorrectable
error (R258). -/
structure Line where
  hash : Nat
  node : Bool
  ord : Nat
  data : Nat
  count : Nat
  bad : Bool
  deriving DecidableEq, Repr

/-- A content-named region (R239, R240, R365). -/
structure Region where
  desc : Nat
  req : Bool
  inst : Bool
  salt : Nat
  hwidth : Nat
  tentries : Nat
  hsize : Nat
  lines : List Line
  /-- freed ordinals whose cached copies remain (R249): hash, node flag, ordinal -/
  freeing : List (Nat × Bool × Nat)
  /-- child decrements waiting, as names (R249) -/
  pend : List Nat
  /-- the statistics words of Table 11.1: live, coll, satur, exhaust, nfull, recl, pend -/
  stats : List Nat
  /-- base of the heap, and installations so far -/
  hbase : Nat
  install : Nat
  deriving DecidableEq, Repr

/-- An NVMe command of a storage copy (R360). -/
structure Nvme where
  n : Nat
  core : Nat
  /-- issue number of its copy -/
  seq : Nat
  handle : Nat
  /-- NVMe opcode: 0 Flush, 1 Write, 2 Read -/
  op : Nat
  lba : Nat
  blocks : Nat
  /-- bytes a Write stages, and the bytes a Read has staged -/
  data : List Nat
  /-- slice of the staging window it holds -/
  slice : Option Nat
  /-- its PRP list: the 4 KiB pages of its data in the staging window (R232) -/
  prps : List Nat
  /-- cycle of its submission -/
  sent : Option Nat
  done : Bool
  deriving DecidableEq, Repr

/-- A vertical interface (R333 to R336). -/
structure VLink where
  /-- device cycle at which its next retraining is due -/
  due : Nat
  deferred : Bool
  busy : Bool
  nRetrain : Nat
  nDeferred : Nat
  nForced : Nat
  nFail : Nat
  failRun : Nat
  pause : Nat
  deriving DecidableEq, Repr

/-- A leat port (R349, R357). -/
structure Port where
  lanes : Nat
  sent : Nat
  recv : Nat
  retries : Nat
  deriving DecidableEq, Repr

/-- A role change under way (R331): phase 0 waiting for grace, 1 draining, 2 flushing. -/
structure RoleChange where
  cmask : Nat
  policy : Nat
  grace : Nat
  status : Nat
  since : Nat
  phase : Nat
  taken : Nat
  deriving DecidableEq, Repr

/-- Boot, identity and roles (R328, R361 to R364). -/
structure Boot where
  stage : Nat
  err : Nat
  ready : Nat
  cmask : Nat
  prof : Nat
  chg : Option RoleChange
  /-- whether the firmware image read at boot stage 2 carried a valid signature, and its digest (R361, R363) -/
  fwValid : Bool
  fwDigest : Nat
  /-- boot flash: the firmware image and its signature, the operator key it names, the configuration block -/
  fwImage : List Nat
  fwSig : List Nat
  operKey : List Nat
  config : List Nat
  /-- the set of compute dies that the configuration block named and role assignment refused; none where it refused none (R14) -/
  refused : Option Nat
  /-- the configuration block read at this boot; empty before stage 3 -/
  active : List Nat
  mailbox : Memory
  deriving DecidableEq, Repr

/-- Telemetry (R375). -/
structure Telemetry where
  pcapms : Nat
  therm : Sparse Nat
  /-- device cycle until which issue on a die is limited (R329, R367) -/
  limit : Sparse Nat
  pinfb : Nat
  ce : Nat
  ue : Nat
  ueaddr : Nat
  deriving DecidableEq, Repr

/-- The outside links: storage, leat, vertical. -/
structure Links where
  /-- storage handle registers: 8 h + register (R359) -/
  handles : Sparse Nat
  /-- next entry of each handle's submission queue, and of its commands -/
  tails : Sparse Nat
  nvme : List Nvme
  nvmeNext : Nat
  lexp : Nat
  lroute : Sparse Nat
  ports : Sparse Port
  vlinks : List VLink
  deriving DecidableEq, Repr

/-- A SNAP under way (R368 to R372). -/
structure Snap where
  taken : Nat
  kind : Nat
  handles : Nat
  lba0 : Nat
  manifest : Nat
  start : Nat
  /-- first byte of the image that goes to storage, and bytes of the image -/
  share : Nat
  total : Nat
  /-- next stripe to submit -/
  next : Nat
  /-- stripes submitted and not yet completed -/
  open_ : Nat
  /-- image of an incremental point, or the state block of a full one; the rest of a full one is read from memory -/
  image : List Nat
  /-- pieces of DRAM whose value from before a write during the SNAP the image holds: address, bytes, and whether the piece had an
  uncorrectable error (R368, R370) -/
  kept : List (Nat × Nat × Bool)
  /-- 0 nothing read yet, 1 the host share is to be sent, 2 the stripes are -/
  stage : Nat
  /-- manifest status so far, depth, root, uncorrectable pieces met -/
  status : Nat
  depth : Nat
  root : Nat
  ue : Nat
  /-- bytes of the image written so far -/
  wrote : Nat
  /-- region and root of the point to release (R372) -/
  region : Nat
  drop : Nat
  deriving DecidableEq, Repr

/-- A COPY that the Miller's copy engine runs (R347): its packet's taken number and job, the method, the addresses and the length. -/
structure MillerCopy where
  n : Nat
  job : Option Nat
  fl : Nat
  src : Nat
  dst : Nat
  len : Nat
  /-- a source byte is also a destination byte, or two of its bytes share a place: its bytes go one by one and in order (R219) -/
  ordered : Bool
  /-- destination bytes still to come from what lies before the engine: offset and length -/
  todo : List (Nat × Nat)
  /-- bytes read and not yet written: offset and bytes -/
  got : List (Nat × List Nat)
  /-- Flume: stream position, block index, bytes expanded so far; whether the stream has ended (R235) -/
  pos : Nat
  block : Nat
  out : Nat
  ended : Bool
  /-- bytes it has overwritten, as they were before: store · 2^60 + address (R219) -/
  was : Sparse Nat
  /-- a fault met: cause and detail -/
  fault : Option (Nat × Nat)
  deriving DecidableEq, Repr

/-- The Miller. -/
structure Miller where
  queues : Sparse Queue
  taken : List Taken
  nodes : Sparse Node
  jobs : Sparse Job
  loads : Sparse Loaded
  regions : Sparse Region
  events : Events
  /-- queue served last, by priority (R354) -/
  turn : Sparse Nat
  /-- packets and jobs numbered so far -/
  count : Nat
  snap : Option Snap
  copies : List MillerCopy
  deriving DecidableEq, Repr

/-- The whole machine. -/
structure State where
  ctxs : Sparse Ctx
  cores : Sparse Core
  engines : Sparse Engines
  fetches : Sparse (List Fetch)
  dies : Sparse DieTables
  mem : Mem
  miller : Miller
  links : Links
  boot : Boot
  tele : Telemetry
  /-- cycles of the arithmetic clock since reset (R3) -/
  clock : Nat
  /-- issue order of engine instructions -/
  seqno : Nat
  /-- the model's own: events the outside, or a timing the spec leaves open, makes next (notes/assumptions/1.md) -/
  inputs : List Instr
  /-- the model's own: draws of free values made so far (notes/assumptions/4.md) -/
  tick : Nat
  /-- the model's own: the context whose bundle is being issued -/
  cur : Nat
  /-- the model's own: the bytes that the latest read by the host or a peer was answered with (R275, R277, R356) -/
  reply : List Nat
  deriving DecidableEq, Repr

/-! ## The reasons a step can stop -/

/-- Faults of the model. Traps, kills and engine faults of the part are next states and are not here. -/
inductive Fault where
  /-- Raised by a slot instruction when the current context is not resident, so that it has no bundle to stand in.
  Safe: the part never issues a slot for such a context (R86). -/
  | noContext
  deriving DecidableEq, Repr

/-- Refusals. -/
inductive Refusal where
  /-- Raised by Dispatch.lean for an instruction that has no meaning yet. Safe: the model stops where the part goes on. -/
  | notModelled (mnemonic : String)
  deriving DecidableEq, Repr

/-! ## Reset -/

/-- Loop level reset (Table 6.6). -/
def Loop.zero : Loop := ⟨0, 0, 0, 0⟩

/-- lnd0 to lnd7 where the map gives none (Table 4.3). -/
def lndReset : Sparse Nat := [(0, 12), (1, 32), (2, 64), (3, 128), (4, 256), (5, 512), (6, 1024), (7, 4096)]

/-- A context at reset: bound to nothing (Tables 2.10 to 2.12, 3.2, 4.3, 6.6, 7.1, 8.5, 9.3, 17.1, 17.6). -/
def Ctx.reset : Ctx where
  seq := ⟨.unbound, 0, 0, 0, 0, 0, 0, List.replicate 6 Loop.zero, 0, 0, 0, 0, none, none, false, none, none, none⟩
  sched := ⟨none, false, 0, none, none, [], 0, 0, 0, []⟩
  regs := ⟨[], [], [], [], [], [], lndReset, BitVec.allOnes 64, 0⟩
  ports := ⟨[], [], 0, [], [], [], 0⟩
  fmts := ⟨0x22, 0x100000000, 0x20, 0, []⟩
  traps := ⟨0, 0, 0, 0, 0, 0, 0, 0, 0, 0, 0, 65536⟩
  win := ⟨0, 0, 0, 0, 0, 0, 0, 0, 0, 0, 0, 0, 0, 0, 0, 0⟩

/-- A core at reset: every way in the cache state (R331). -/
def Core.reset : Core := ⟨[], [], [], 0, [], [], [], [], [], [], []⟩

/-- The translation caches of a die at reset: empty. -/
def DieTables.reset : DieTables := ⟨[], [], []⟩

/-- A bank at reset: scales 1.0 (R180). -/
def Bank.reset : Bank := ⟨[], [], [], [], [], 0, false, false, false, [], []⟩

/-- Engines at reset. -/
def Engines.reset : Engines := ⟨Bank.reset, Bank.reset, [], none, [], [], []⟩

/-- A queue at reset (Table 20.2): lsize 2. -/
def Queue.reset : Queue := ⟨0, 2, 0, false, 0, 0, 0, none, []⟩

/-- A region at reset. -/
def Region.reset : Region := ⟨0, false, false, 0, 0, 0, 0, [], [], [], [0, 0, 0, 0, 0, 0, 0], 0, 0⟩

/-- A vertical interface before boot training. -/
def VLink.reset : VLink := ⟨0, false, false, 0, 0, 0, 0, 0, 0⟩

/-- The machine right after reset: boot stage 0, nothing bound (R337, R361); the values the spec does not give are those of
notes/assumptions/2.md, 3.md and 5.md. -/
def State.reset : State where
  ctxs := []
  cores := []
  engines := []
  fetches := []
  dies := []
  mem := ⟨[], [], [], [], [], [], [], [], []⟩
  miller := ⟨[], [], [], [], [], [], ⟨0, 0, 0, 0, [], []⟩, [], 0, none, []⟩
  links := ⟨[], [], [], 0, 0, [], [], [VLink.reset, VLink.reset, VLink.reset]⟩
  boot := ⟨0, 0, 0, 0, 0, none, false, 0, [], [], [], [], none, [], []⟩
  tele := ⟨0, [], [], 0, 0, 0, 0⟩
  clock := 0
  seqno := 0
  inputs := []
  tick := 0
  cur := 0
  reply := []

end Sys2Proof.Machine
end

