-- ==== Sys2Proof/Machine/Ops.lean ====
section
/-! DEFINITION. The named operations over the state: contexts, cores, memory with the invalidation of corrections (R174),
registers, landing of results (R77, R80), and taking an exception (R290 to R301). -/

namespace Sys2Proof.Machine

/-! ## Places -/

/-- Context `c`. -/
def State.ctx (s : State) (c : Nat) : Ctx := look Ctx.reset s.ctxs c
/-- Replaces context `c`. -/
def State.setCtx (s : State) (c : Nat) (x : Ctx) : State := { s with ctxs := put s.ctxs c x }
/-- Changes context `c`. -/
def State.modCtx (s : State) (c : Nat) (f : Ctx → Ctx) : State := s.setCtx c (f (s.ctx c))
/-- Core `k`. -/
def State.core (s : State) (k : Nat) : Core := look Core.reset s.cores k
/-- Changes core `k`. -/
def State.modCore (s : State) (k : Nat) (f : Core → Core) : State := { s with cores := put s.cores k (f (s.core k)) }
/-- The engines of core `k`. -/
def State.eng (s : State) (k : Nat) : Engines := look Engines.reset s.engines k
/-- Changes the engines of core `k`. -/
def State.modEng (s : State) (k : Nat) (f : Engines → Engines) : State := { s with engines := put s.engines k (f (s.eng k)) }
/-- Changes memory. -/
def State.modMem (s : State) (f : Mem → Mem) : State := { s with mem := f s.mem }

/-- The core of a context. -/
def coreOf (c : Nat) : Nat := c / 4
/-- The die of a core (R17). -/
def dieOf (k : Nat) : Nat := k / 128
/-- The cluster of a core within its die. -/
def clusterOf (k : Nat) : Nat := k / 4 % 32
/-- The four contexts of a core. -/
def ctxsOf (k : Nat) : List Nat := [4 * k, 4 * k + 1, 4 * k + 2, 4 * k + 3]

/-- Whether a context is bound and may issue (R86). -/
def Ctx.resident (x : Ctx) : Bool := x.seq.run == .resident
/-- Whether a context is bound to a place, halted or killed ones included. -/
def Ctx.bound (x : Ctx) : Bool := x.seq.run != .unbound

/-! ## Free values (notes/assumptions/4.md) -/

/-- The free value of this step's draw `k`. -/
def State.free (s : State) (k : Nat) : Nat := Config.freeNat s.tick k
/-- The step's draws have been used. -/
def State.draw (s : State) : State := { s with tick := s.tick + 1 }

/-- A tile whose elements are all ones where a bit of `n` is 1. -/
def maskTile (n : Nat) : Tile := tileOf (fun e => if bitAt n e then 65535 else 0)
/-- Element by element, `b` where the mask is ones and `a` elsewhere. -/
def mixTile (m a b : Tile) : Tile := (a &&& ~~~m) ||| (b &&& m)

/-! ## Jobs and bindings -/

/-- The job of number `j`. -/
def State.job (s : State) (j : Nat) : Option Job := look none (s.miller.jobs.map (fun p => (p.1, some p.2))) j
/-- What job `j` loaded. -/
def State.loaded (s : State) (j : Nat) : Loaded := look ⟨[], 0, 0, 0, [], [], [], [], 0⟩ s.miller.loads j
/-- Changes job `j`. -/
def State.modJob (s : State) (j : Nat) (f : Job → Job) : State :=
  match s.job j with
  | some x => { s with miller := { s.miller with jobs := put s.miller.jobs j (f x) } }
  | none => s
/-- Changes what job `j` loaded. -/
def State.modLoaded (s : State) (j : Nat) (f : Loaded → Loaded) : State :=
  { s with miller := { s.miller with loads := put s.miller.loads j (f (s.loaded j)) } }
/-- The priority of a context's job. -/
def State.prio (s : State) (c : Nat) : Nat := (s.job (s.ctx c).sched.job).elim 0 (·.prio)
/-- The root of an address space: that of its job's tables (R316). -/
def State.rootOf (s : State) (j : Nat) : Nat := (s.job j).elim 0 (·.root)

/-- The physical context that place `i` of job `j` is bound to; none while it is saved (R305, R309). -/
def State.placeCtx (s : State) (j i : Nat) : Option Nat :=
  (s.ctxs.find? (fun p => p.2.bound && p.2.sched.job == j && p.2.sched.place == i)).map (·.1)

/-- Changes the context of place `i` of job `j`, resident or saved. -/
def State.modPlace (s : State) (j i : Nat) (f : Ctx → Ctx) : State :=
  match s.placeCtx j i with
  | some c => s.modCtx c f
  | none => s.modLoaded j (fun l => { l with saved := l.saved.map (fun v => if v.place = i then { v with ctx := f v.ctx } else v) })

/-! ## Memory -/

/-- Where a byte lies. -/
inductive Space where
  | dram | sp | host | peer
  deriving DecidableEq, Repr

/-- A store's number, as running copies record it. -/
def Space.code : Space → Nat
  | .dram => 0
  | .sp => 1
  | .host => 2
  | .peer => 3

/-- A byte store. -/
def Mem.store (m : Mem) : Space → Memory
  | .dram => m.dram
  | .sp => m.sp
  | .host => m.host
  | .peer => m.peer

/-- Replaces a byte store. -/
def Mem.setStore (m : Mem) (w : Space) (x : Memory) : Mem :=
  match w with
  | .dram => { m with dram := x }
  | .sp => { m with sp := x }
  | .host => { m with host := x }
  | .peer => { m with peer := x }

/-- `n` bytes at `a` of a store, little-endian (R5). -/
def State.readN (s : State) (w : Space) (a n : Nat) : Nat := memNat (s.mem.store w) a n

/-- Whether ranges (start, length) overlap. -/
def overlap (a la b lb : Nat) : Bool := decide (a < b + lb ∧ b < a + la)

/-- Adds `n` to a 20-bit count of ccstat, stopping at its top (R176). -/
def count20 (a n : Nat) : Nat := min 0xFFFFF (a + n)

/-- Counts invalidations against the contexts that installed the entries, wherever they are now (R176). -/
def countInval (s : State) : List Corr → State
  | [] => s
  | e :: r => countInval (s.modPlace e.job e.place (fun x => { x with win := { x.win with inval := count20 x.win.inval 1 } })) r

/-- Removes the correction-cache entries of core `k` that satisfy `p`, counting them. -/
def dropCorr (s : State) (k : Nat) (p : Corr → Bool) : State :=
  if (s.eng k).corr.any p then
    countInval (s.modEng k (fun e => { e with corr := e.corr.filter (fun x => !p x) })) ((s.eng k).corr.filter p)
  else s

/-- R174: a write of `n` bytes at offset `a` of core `k`'s scratchpad invalidates the entries it overlaps. -/
def invalCorr (s : State) (k a n : Nat) : State :=
  dropCorr s k (fun e => e.ranges.any (fun r => overlap a n r.1 r.2))

/-- R175: a write of `n` bytes at offset `a` of core `k`'s scratchpad meets the matrix instructions that read them and that
`free` does not order with it. -/
def raceMx (s : State) (k a n : Nat) (free : MxRun → Bool) : State :=
  if (s.eng k).mxq.any (fun r => free r && r.ranges.any (fun g => overlap a n g.1 g.2)) then
    s.modEng k (fun e => { e with mxq := e.mxq.map (fun r =>
      if free r && r.ranges.any (fun g => overlap a n g.1 g.2) then { r with raced := true } else r) })
  else s

/-- R174: a change of ownership of way `w` of core `k` invalidates the entries with a range in it. -/
def invalWay (s : State) (k w : Nat) : State := invalCorr s k (w * 2 ^ 20) (2 ^ 20)

/-- Whether an `xcpy` write that is still to become visible meets [a, a + n) of store `w`. -/
def Loose.meets (w a n : Nat) (d : Loose) : Bool := d.space == w && overlap d.addr d.len a n

/-- The `xcpy` writes that become visible when those chosen by `pick` do: before each, those of earlier iterations of its instruction to its
bytes (R219). -/
def shownWith (pick : Loose → Nat → Bool) : List Loose → Nat → List Loose
  | [], _ => []
  | d :: r, i =>
    let l := shownWith pick r (i + 1)
    if pick d i || l.any (fun e => e.seq == d.seq && d.meets e.space e.addr e.len) then d :: l else l

/-- The line of 128 bytes that holds an address of a store, as the caches name it. -/
def lineAt (w : Space) (a : Nat) : Nat := w.code * 2 ^ 60 + a / 128 * 128

/-- Another agent's write to a line that a core's caches hold dirty brings the line to L2 first: the caches are coherent. -/
def State.passL1 (s : State) (w : Space) (a n : Nat) : State :=
  if s.mem.l1.isEmpty then s
  else s.modMem (fun m => { m with l1 := m.l1.filter (fun e => !(e.place / 2 ^ 60 == w.code && overlap (e.place % 2 ^ 60) 128 a n)) })

/-- R368: each 16-byte piece of DRAM that is written while a SNAP is under way enters its image with the value from before the
write or from after it, by a free value. -/
def State.keepOld (s : State) (w : Space) (a n : Nat) : State :=
  match s.miller.snap with
  | none => s
  | some p =>
    if w = .dram then
      let pieces := (List.range ((a % 16 + n + 15) / 16)).map (fun i => (a / 16 + i) * 16)
      let new := pieces.filter (fun b => !p.kept.any (fun q => q.1 == b) && bitAt (s.free (2 ^ 32 + b / 16)) 0)
      let was := new.map (fun b => (b, s.readN .dram b 16, s.mem.bad.any (fun e => overlap e 16 b 16)))
      { s with miller := { s.miller with snap := some { p with kept := p.kept ++ was } } }
    else s

/-- A write of whole 16-byte pieces gives them fresh check bits (notes/assumptions/15.md). -/
def clearBad (l : List Nat) (a n : Nat) : List Nat := l.filter (fun b => !decide (a ≤ b ∧ b + 16 ≤ a + n))

/-- The bytes of a store after a write, with the check bits of its pieces. -/
def Mem.write (m : Mem) (w : Space) (a n v : Nat) : Mem :=
  let m1 := m.setStore w (memPutNat (m.store w) a n v)
  match w with
  | .dram => { m1 with bad := clearBad m1.bad a n }
  | .sp => { m1 with badSp := clearBad m1.badSp a n }
  | _ => m1

/-- A write whose place among the writes that are still to become visible has been decided. -/
def State.storeBy (free : MxRun → Bool) (s : State) (w : Space) (a n v : Nat) : State :=
  let s1 := ((s.keepOld w a n).passL1 w a n).modMem (fun m => m.write w a n v)
  match w with
  | .sp => raceMx (invalCorr s1 (a / 2 ^ 24) (a % 2 ^ 24) n) (a / 2 ^ 24) (a % 2 ^ 24) n free
  | _ => s1

/-- The store of a number. -/
def Space.ofCode : Nat → Space
  | 0 => .dram
  | 1 => .sp
  | 2 => .host
  | _ => .peer

/-- An `xcpy` write becomes visible, whole (R231, R266). -/
def State.showOne (s : State) (d : Loose) : State :=
  (s.modMem (fun m => { m with loose := m.loose.erase d })).storeBy (fun _ => true) (Space.ofCode d.space) d.addr d.len d.val

/-- The `xcpy` writes that `pick` chooses become visible, each with what comes before it, the oldest first. -/
def State.showPicked (s : State) (pick : Loose → Nat → Bool) : State := (shownWith pick s.mem.loose 0).foldl State.showOne s

/-- The `xcpy` writes that satisfy `p` become visible. -/
def State.showLoose (s : State) (p : Loose → Bool) : State := s.showPicked (fun d _ => p d)

/-- R266, R280: each `xcpy` write that is still to become visible and that meets [a, a + n) of store `w` comes before a write there, and
then becomes visible first and whole, or comes after it, by a free value. -/
def State.passLoose (s : State) (w : Space) (a n : Nat) : State :=
  if s.mem.loose.any (Loose.meets w.code a n) then s.showPicked (fun d i => d.meets w.code a n && bitAt (s.free (5200 + i)) 0) else s

/-- Stores the low `n` bytes of `v` at `a` of a store; a write to scratchpad invalidates corrections (R174) and races with
the matrix instructions that `free` does not order with it (R175). -/
def State.writeBy (free : MxRun → Bool) (s : State) (w : Space) (a n v : Nat) : State := (s.passLoose w a n).storeBy free w a n v

/-- A write that no token orders with a matrix instruction that is still to complete. -/
def State.writeN (s : State) (w : Space) (a n v : Nat) : State := s.writeBy (fun _ => true) w a n v

/-- R272: an atomic update of `n` bytes at `a` of a store, with nothing between its read and its write: the state after it, and what it
has read. -/
def State.updateBy (free : MxRun → Bool) (s : State) (w : Space) (a n : Nat) (f : Nat → Nat) : State × Nat :=
  let s1 := s.passLoose w a n
  let old := s1.readN w a n
  (s1.storeBy free w a n (f old), old)

/-- An atomic update that no token orders with a matrix instruction that is still to complete. -/
def State.updateN (s : State) (w : Space) (a n : Nat) (f : Nat → Nat) : State × Nat := s.updateBy (fun _ => true) w a n f

/-- R175: bytes of core `k`'s scratchpad have been written that no acquire has ordered with what their owner reads. -/
def State.addFresh (s : State) (k : Nat) (f : Fresh) : State :=
  if f.ranges = [] ∨ (s.core k).fresh.contains f then s else s.modCore k (fun c => { c with fresh := c.fresh ++ [f] })

/-- An uncorrectable error met at `a` is counted and its address latched (R374, Table 21.4). -/
def State.countUe (s : State) (a : Nat) : State :=
  { s with tele := { s.tele with ue := (s.tele.ue + 1) % 2 ^ 32, ueaddr := if bitAt s.tele.ueaddr 63 then s.tele.ueaddr else 2 ^ 63 + a } }

/-- The pieces with an uncorrectable error in [a, a + n) of DRAM or of the scratchpads (R374). -/
def State.badIn (s : State) (w : Space) (a n : Nat) : List Nat :=
  match w with
  | .dram => s.mem.bad.filter (fun b => overlap b 16 a n)
  | .sp => s.mem.badSp.filter (fun b => overlap b 16 a n)
  | _ => []

/-- A read of [a, a + n) counts the uncorrectable errors it meets. A scratchpad has no physical address that the spec gives; the one
latched for it is a free value (notes/assumptions/15.md). -/
def State.meetBad (s : State) (w : Space) (a n : Nat) : State :=
  (s.badIn w a n).foldl (fun t b => t.countUe (if w = .dram then b else s.free 9801 % 2 ^ 52)) s

/-- Empties the bytes [a, a + n) of a byte store: they read as zero. -/
def memClear (m : Memory) (a n : Nat) : Memory := m.filter (fun p => !(decide (a ≤ p.1 ∧ p.1 < a + n)))

/-- Fills way `w` of core `k` with zero bytes (R199, R307), which no earlier write reaches any more (R238). -/
def clearWay (s : State) (k w : Nat) : State :=
  let a := k * 2 ^ 24 + w * 2 ^ 20
  let s1 := s.modMem (fun m => { m with sp := memClear m.sp a (2 ^ 20), badSp := clearBad m.badSp a (2 ^ 20),
                                         loose := m.loose.filter (fun d => !d.meets Space.sp.code a (2 ^ 20)) })
  let s2 := if (s1.core k).fresh.any (fun f => f.way == w) then
    s1.modCore k (fun c => { c with fresh := c.fresh.filter (fun f => f.way != w) }) else s1
  raceMx (invalWay s2 k w) k (w * 2 ^ 20) (2 ^ 20) (fun _ => true)

/-! ## Ways (R196 to R200) -/

/-- The state of way `w` of core `k`. -/
def State.way (s : State) (k w : Nat) : Way := look .cache (s.core k).ways w
/-- Sets the state of way `w`. -/
def State.setWay (s : State) (k w : Nat) (x : Way) : State := s.modCore k (fun c => { c with ways := setv .cache c.ways w x })

/-- Whether way `w` of core `k` is owned by context `c` of job `j`. -/
def ownsWay (s : State) (k w j c : Nat) : Bool := s.way k w == .owned j c

/-- Invalidates way `w` of core `k` as a cache: the locked lines in it are written back and unlocked. -/
def unlockWay (s : State) (k w : Nat) : State :=
  (s.modMem (fun m => { m with locked := m.locked.filter (fun l => !(l.core == k && l.way == w)) })).modCore k
    (fun c => { c with blocks := c.blocks.filter (fun b => !b.ways.contains w) })

/-- R199: a way of the cache state becomes scratchpad of context `c`, filled with zero. -/
def takeWay (s : State) (k w j c : Nat) : State := (clearWay (unlockWay s k w) k w).setWay k w (.owned j c)

/-- R199: an owned way enters the cache state, empty. -/
def dropWay (s : State) (k w : Nat) : State := (clearWay s k w).setWay k w .cache

/-- Applies `f` for every set bit of a 16-bit mask, ascending from bit `i`. -/
def forWays (f : State → Nat → State) (mask : Nat) : Nat → Nat → State → State
  | 0, _, s => s
  | n + 1, i, s => forWays f mask n (i + 1) (if bitAt mask i then f s i else s)

/-- Locked lines in way `w` of core `k`: of pinned-core pages and of load-blocks (R202, R203). -/
def lockedIn (s : State) (k w : Nat) : Nat :=
  (s.mem.locked.filter (fun l => l.core == k && l.way == w)).length + ((s.core k).blocks.map (fun b => b.ways.count w)).sum

/-- The mask of ways of core `k` that hold locked lines (R198). -/
def lockedMask (s : State) (k : Nat) : Nat :=
  (List.range 16).foldl (fun m w => if lockedIn s k w ≠ 0 then m + 2 ^ w else m) 0

/-! ## Registers -/

/-- A register of a file. -/
def rd (f : Sparse Word) (n : Nat) : Nat := (look 0#64 f n).toNat
/-- A file with register `n` written. -/
def wr (f : Sparse Word) (n v : Nat) : Sparse Word := setv 0#64 f n (BitVec.ofNat 64 v)

/-- s register `n`. -/
def Ctx.s (x : Ctx) (n : Nat) : Nat := rd x.regs.s n
/-- a register `n`. -/
def Ctx.a (x : Ctx) (n : Nat) : Nat := rd x.regs.a n
/-- o register `n`. -/
def Ctx.o (x : Ctx) (n : Nat) : Nat := rd x.regs.o n
/-- Writes s register `n`. -/
def Ctx.setS (x : Ctx) (n v : Nat) : Ctx := { x with regs := { x.regs with s := wr x.regs.s n v } }
/-- Condition `n`. -/
def Ctx.k (x : Ctx) (n : Nat) : Bool := x.seq.kcond.getLsbD n
/-- A 16-bit file of conditions with bit `n` set to `b`. -/
def setK (k : BitVec 16) (n : Nat) (b : Bool) : BitVec 16 :=
  if b then k ||| BitVec.ofNat 16 (2 ^ n) else k &&& ~~~(BitVec.ofNat 16 (2 ^ n))
/-- Writes condition `n`. -/
def Ctx.setCond (x : Ctx) (n : Nat) (b : Bool) : Ctx := { x with seq := { x.seq with kcond := setK x.seq.kcond n b } }
/-- Whether token `n` is set. -/
def Ctx.tokSet (x : Ctx) (n : Nat) : Bool := x.regs.tset.getLsbD n
/-- Whether token `n` carries its error bit. -/
def Ctx.tokErr (x : Ctx) (n : Nat) : Bool := x.regs.terr.getLsbD n
/-- A 64-bit set with bit `n` put to `b`. -/
def setBit64 (v : BitVec 64) (n : Nat) (b : Bool) : BitVec 64 :=
  if b then v ||| BitVec.ofNat 64 (2 ^ n) else v &&& ~~~(BitVec.ofNat 64 (2 ^ n))
/-- Writes token `n`: its state and its error bit. -/
def Ctx.setTok (x : Ctx) (n : Nat) (st err : Bool) : Ctx :=
  { x with regs := { x.regs with tset := setBit64 x.regs.tset n st, terr := setBit64 x.regs.terr n err } }
/-- ORs flags into fpstat (R51). -/
def Ctx.orFlags (x : Ctx) (f : Nat) : Ctx := { x with fmts := { x.fmts with fpstat := x.fmts.fpstat ||| f } }
/-- The innermost loop level's fields, `Loop.zero` where there is none. -/
def Ctx.loopAt (x : Ctx) (n : Nat) : Loop := x.seq.loops.getD n Loop.zero
/-- Trap level. -/
def Ctx.level (x : Ctx) : Nat := x.traps.level

/-! ## Result ports and landing -/

/-- The key of a result port: sa and ag are held per trap level (R291). -/
def portKey (level fu : Nat) : Nat := if fu < 2 then 16 + 2 * level + fu else fu

/-- What a result port holds before anything lands: sa, ag and ls a scalar zero, the vector ports a zero tile (R63). -/
def portDefault (fu : Nat) : PVal := if fu < 3 then PVal.zero else PVal.zeroTile

/-- The value in a result port. -/
def Ctx.port (x : Ctx) (level fu : Nat) : PVal := look (portDefault fu) x.ports.result (portKey level fu)

/-- R137: an element whose mask bit 0 is clear keeps the port's value. -/
def elemMask (m : Tile) : Tile := tileOf (fun e => if elemAt m e % 2 = 1 then 65535 else 0)

/-- What a flight leaves in its port, over what the port held. -/
def Flight.merged (f : Flight) (old v : PVal) : PVal :=
  match f.mask with
  | none => v
  | some m => { v with lo := mixTile (elemMask m) old.lo v.lo, hi := if v.kind = .pair then mixTile (elemMask m) old.hi v.hi else 0 }

/-- Lands one result in its context: the port, the condition, the flags, and an enabled FP exception to be delivered (R50, R77, R109).
Of several that land before the next bundle the one that landed first gives the bundle that tval names (DESIGN CHOICE,
notes/assumptions/68.md). -/
def Ctx.land (x : Ctx) (f : Flight) : Ctx :=
  let x1 :=
    match f.val with
    | some v =>
      { x with ports := { x.ports with result := put x.ports.result (portKey f.level f.fu) (f.merged (x.port f.level f.fu) v) } }
    | none => x
  let x2 :=
    match f.cond with
    | some (n, b) => if x1.seq.kset = f.hi + 1 then x1 else x1.setCond n b
    | none => x1
  let x3 := x2.orFlags f.flags
  if f.flags &&& f.enables ≠ 0 then
    { x3 with seq := { x3.seq with fpx := some (x3.seq.fpx.getD f.pc) } }
  else x3

/-- Position of the flight among those that satisfy `ok` that lands first at or before cycle `t`: the least landing cycle, then issue
order. A port so ends with what lands last, as R77 has it, where R68 taken alone would end it with what was issued last
(DEDUCED, notes/assumptions/46.md). -/
def firstDue (ok : Flight → Bool) (t : Nat) : List Flight → Nat → Option (Nat × Nat)
  | [], _ => none
  | f :: r, i =>
    match firstDue ok t r (i + 1) with
    | none => if ok f && decide (f.hi ≤ t) then some (i, f.hi) else none
    | some (j, h) => if ok f && decide (f.hi ≤ h) then some (i, f.hi) else some (j, h)

/-- Lands what satisfies `ok` and is due at or before context cycle `t`, in order of landing cycle (R77, R80); `n` bounds the number. -/
def Ctx.landThe (ok : Flight → Bool) (x : Ctx) (t : Nat) : Nat → Ctx
  | 0 => x
  | n + 1 =>
    match firstDue ok t x.ports.flights 0 with
    | none => x
    | some (i, _) =>
      match x.ports.flights[i]? with
      | none => x
      | some f => Ctx.landThe ok (({ x with ports := { x.ports with flights := x.ports.flights.eraseIdx i } }).land f) t n

/-- Lands everything due at or before context cycle `t`. -/
def Ctx.landUpTo (x : Ctx) (t n : Nat) : Ctx := Ctx.landThe (fun _ => true) x t n

/-- Results of one port and bound: they land in trigger order (R77). The ports of sa and ag are held per trap level (R291). -/
def Flight.sameOrder (f g : Flight) : Bool :=
  f.landing.isNone && g.landing.isNone && portKey f.level f.fu == portKey g.level g.fu && f.bound == g.bound

/-- The cycles in which results land while the context's time passes from cycle `a` to cycle `b` without a bundle: each at a free
cycle of its window, none before an earlier result of its order; `done` are the results already decided, the latest first. -/
def earlyFrom (f : Nat → Nat) (a b : Nat) : List Flight → List Flight → Nat → List Flight
  | done, [], _ => done.reverse
  | done, x :: r, i =>
    let before := done.filter x.sameOrder
    let lo := before.foldl (fun m g => max m g.hi) (max x.lo a)
    let x' :=
      if x.landing.isNone && decide (lo < x.hi) && decide (lo ≤ b) && before.all (fun g => decide (g.hi ≤ b)) then
        (let h := lo + f i % (x.hi - lo + 1); if h ≤ b then { x with hi := h } else x)
      else x
    earlyFrom f a b (x' :: done) r (i + 1)

/-- R77: the landing cycles that results take in cycles `a` to `b`, in which no bundle issues (R75). -/
def Ctx.early (x : Ctx) (f : Nat → Nat) (a b : Nat) : Ctx :=
  { x with ports := { x.ports with flights := earlyFrom f a b [] x.ports.flights 0 } }


/-- Whether a landing access due at or before cycle `t` still waits for its data (R80, R209). -/
def Ctx.missing (x : Ctx) (t : Nat) : Bool :=
  x.ports.flights.any (fun f => decide (f.hi ≤ t) && (match f.landing with | some l => !l.arrived | none => false))

/-- Whether a flight waits behind a landing access that is due and lacks its data: a result of ls, whose port lands in order (R80). -/
def Flight.waitsBehind (f : Flight) : Bool := f.fu == 2 || f.landing.isSome

/-- Lands what is due at or before the context's present cycle, in the bubble cycles before it in a free order (R75, R77). While a landing
access that is due lacks its data, the results that later loads and stores leave in its port wait behind it (R80). -/
def Ctx.settle (x : Ctx) (f : Nat → Nat) : Ctx :=
  let y := if x.seq.gap = 0 then x else x.early f (x.seq.cyc - x.seq.gap) (x.seq.cyc - 1)
  let late := y.missing y.seq.cyc
  let z := Ctx.landThe (fun g => !late || !g.waitsBehind) y y.seq.cyc y.ports.flights.length
  { z with seq := { z.seq with gap := 0 } }

/-- The latest landing cycle of what is in flight; the present cycle when nothing is. -/
def Ctx.lastLanding (x : Ctx) : Nat := x.ports.flights.foldl (fun m f => max m f.hi) x.seq.cyc

/-- The cycle that a run-on toward cycle `t` reaches: the first due cycle of a landing access whose data are missing, or `t` (R75). -/
def Ctx.reach (x : Ctx) (t : Nat) : Nat :=
  x.ports.flights.foldl (fun m f => if f.landing.any (fun l => !l.arrived) then min m f.hi else m) t

/-- Runs the context's time on toward cycle `t` (R75): everything due lands, results at free cycles of their windows; a landing
access without its data stops the run-on at its due cycle. -/
def Ctx.runOn (x : Ctx) (f : Nat → Nat) (t : Nat) : Ctx :=
  let h := max x.seq.cyc (x.reach t)
  let upto := if x.missing t then h - 1 else t
  let y := Ctx.landThe (fun g => !x.missing t || !g.waitsBehind || decide (g.hi < x.reach t)) (x.early f x.seq.cyc upto) upto x.ports.flights.length
  { y with seq := { y.seq with cyc := h } }

/-- Device cycles of a run-on that begins now, and the cycle at which it ends. -/
def Ctx.ranTo (x y : Ctx) (clock : Nat) : Nat := max x.seq.wake (clock + 1) + (y.seq.cyc - x.seq.cyc)

/-- The free landing cycles of a context that runs on. -/
def State.landDraw (s : State) (c : Nat) : Nat → Nat := fun i => s.free (40000 + 64 * (c % 4) + i)

/-! ## Job fault log (R300, R301) -/

/-- Marks the job as ending in error. -/
def markError (s : State) (j code : Nat) : State := s.modLoaded j (fun l => if l.error = 0 then { l with error := code } else l)

/-- Store and address of a physical address in a packet: bit 63 marks host memory (R341). -/
def physSpace (a : Nat) : Space := if bitAt a 63 then .host else .dram
def physAddr (a : Nat) : Nat := a % 2 ^ 63

/-- Adds an entry to the fault log of job `j`: its first 8 bytes from type, cause, level and place, then `body` (at most 55 bytes). -/
def logEntry (s : State) (j typ cause level place body : Nat) : State :=
  match s.job j with
  | none => s
  | some b =>
    let w := physSpace b.log
    let a := physAddr b.log
    let k := s.readN w a 8
    let cap := s.readN w (a + 8) 4
    let s1 := s.writeN w a 8 (k + 1)
    if k < cap then
      let v := typ % 256 + 2 ^ 8 * (cause % 256) + 2 ^ 16 * (level % 256) + 2 ^ 32 * (place % 2 ^ 32) +
        2 ^ 64 * (body % 2 ^ 440) + 2 ^ 504
      s1.writeN w (a + 64 + 64 * k) 64 v
    else s1.writeN w (a + 12) 4 (s1.readN w (a + 12) 4 + 1)

/-- A context's physical place as the log records it: die, cluster, core, context, a byte each. -/
def placeBytes (c : Nat) : Nat :=
  dieOf (coreOf c) + 2 ^ 8 * clusterOf (coreOf c) + 2 ^ 16 * (coreOf c % 4) + 2 ^ 24 * (c % 4)

/-! ## Killing a context (R299) -/

/-- The context stops: landing accesses are discarded, operations in flight land with their results and flags. -/
def Ctx.stop (x : Ctx) (f : Nat → Nat) (r : Run) : Ctx :=
  let y := { x with ports := { x.ports with flights := x.ports.flights.filter (fun f => f.landing.isNone) } }
  let z := (y.early f y.seq.cyc y.lastLanding).landUpTo y.lastLanding y.ports.flights.length
  { z with seq := { z.seq with run := r, wait := none, behind := none, point := false, pend := none, fpx := none, path := none },
           sched := { z.sched with stall := none, yielded := false, yieldAt := none, faults := [] } }

/-- Context `c` stops (R129, R299). -/
def State.stopCtx (s : State) (c : Nat) (r : Run) : State := s.modCtx c (fun x => x.stop (s.landDraw c) r)

/-- The body of a kill-by-trap entry (Table 17.5, type 2). -/
def killBody (x : Ctx) (epc tval : Nat) : Nat :=
  epc % 2 ^ 32 + 2 ^ 32 * (x.traps.cause1 % 1024) + 2 ^ 48 * (x.traps.cause2 % 1024) + 2 ^ 64 * (tval % 2 ^ 64) +
    2 ^ 128 * (x.traps.epc1 % 2 ^ 32) + 2 ^ 160 * (x.traps.epc2 % 2 ^ 32) + 2 ^ 192 * x.traps.tval1 + 2 ^ 256 * x.traps.tval2 +
    2 ^ 320 * x.traps.tsave

/-- Kills context `c` by a trap it cannot enter (R290, R299). -/
def killByTrap (s : State) (c cause tval epc : Nat) : State :=
  let x := s.ctx c
  let s1 := logEntry s x.sched.job 2 cause x.level (placeBytes c) (killBody x epc tval)
  markError (s1.stopCtx c .killed) x.sched.job 1

/-- Kills context `c` by the pre-emption deadline (R306), `req` being the cycle of the request. -/
def killByDeadline (s : State) (c req : Nat) : State :=
  let x := s.ctx c
  let body := x.seq.pc % 2 ^ 32 + 2 ^ 32 * x.seq.ldepth + 2 ^ 64 * x.traps.predl + 2 ^ 128 * ((s.clock - req) % 2 ^ 64)
  let s1 := logEntry s x.sched.job 3 0x14 x.level (placeBytes c) body
  markError (s1.stopCtx c .killed) x.sched.job 1

/-! ## Taking an exception (R295) and returning from it (R298) -/

/-- The trap registers after an entry from level L to level L + 1. -/
def Traps.enter (t : Traps) (cause tval epc ldepth : Nat) : Traps :=
  if t.level = 0 then { t with level := 1, base1 := ldepth, cause1 := cause, epc1 := epc % 2 ^ 32, tval1 := tval }
  else { t with level := 2, base2 := ldepth, cause2 := cause, epc2 := epc % 2 ^ 32, tval2 := tval }

/-- Whether a trap kills: at level 2, or while tvec.en is 0 (R290). -/
def Ctx.trapKills (x : Ctx) : Bool := x.traps.tvec % 2 == 0 || decide (2 ≤ x.level)

/-- The handler's address for a cause: tvec.base · 64 + 64 · cause, without a wrap (R295). -/
def handlerAt (tvec cause : Nat) : Nat := fld tvec 6 26 * 64 + 64 * cause

/-- The entry itself, once every register write in flight has landed: the trap registers, the level, the next PC, and the two
bubble cycles of a taken branch after the run-on cycles. A waiting FP exception is merged as fpx (R294). -/
def enterTrap (s : State) (c cause tval epc lit : Nat) : State :=
  let x := s.ctx c
  let y := x.runOn (s.landDraw c) x.lastLanding
  if y.trapKills then killByTrap (s.setCtx c y) c cause tval epc
  else
    let fpx := if y.seq.fpx.isSome then 512 else 0
    let ran := x.ranTo y s.clock
    s.setCtx c { y with
      seq := { y.seq with pc := handlerAt y.traps.tvec cause, cyc := y.seq.cyc + 2, wake := ran + 2, gap := 2, wait := none,
                          behind := none, point := false, pend := none, fpx := none, path := none },
      sched := { y.sched with readySince := ran },
      traps := y.traps.enter (cause % 256 + 256 * (lit % 2) + fpx) tval epc y.seq.ldepth }

/-- The run-on of a trap entry as far as the data of landing accesses let it go (R75, R295). -/
def awaitEntry (s : State) (c cause tval epc lit : Nat) : State :=
  let x := s.ctx c
  let y := x.runOn (s.landDraw c) x.lastLanding
  s.setCtx c { y with seq := { y.seq with wait := some (.entry cause tval epc lit), behind := none, pend := none, path := none, wake := x.ranTo y s.clock } }

/-- TAKING AN EXCEPTION, the one shared operation (R290, R293 to R295): the context is killed, or enters at once when no landing
access is still without its data, or waits for them and enters by TRAP_ENTRY. -/
def takeTrap (s : State) (c cause tval epc lit : Nat) : State :=
  let x := s.ctx c
  if x.traps.tvec % 2 = 0 then killByTrap s c cause tval epc
  else if x.missing x.lastLanding then awaitEntry s c cause tval epc lit
  else enterTrap s c cause tval epc lit

/-! ## The loop stack (R115, R116, R123, R296) -/

/-- A push moves every level outward by one (R123). -/
def Ctx.pushLoop (x : Ctx) (l : Loop) : Ctx :=
  { x with seq := { x.seq with loops := l :: x.seq.loops.take 5, ldepth := x.seq.ldepth + 1 } }

/-- A pop moves every level inward by one, and level 5 is zero (R123). -/
def Ctx.popLoop (x : Ctx) : Ctx :=
  { x with seq := { x.seq with loops := x.seq.loops.drop 1 ++ [Loop.zero], ldepth := x.seq.ldepth - 1 } }

/-- `n` pops. -/
def Ctx.popLoops (x : Ctx) : Nat → Ctx
  | 0 => x
  | n + 1 => x.popLoop.popLoops n

/-- The depth below which levels belong to interrupted programs (R296). -/
def Ctx.loopBase (x : Ctx) : Nat := if x.level = 0 then 0 else if x.level = 1 then x.traps.base1 else x.traps.base2

/-- RETURNING FROM AN EXCEPTION (R298): the handler's loop levels go, the depth and the level are those of before the entry, the
PC is the saved one; a taken branch. -/
def Ctx.returnTrap (x : Ctx) : Ctx :=
  let y := x.popLoops (x.seq.ldepth - x.loopBase)
  { y with
    seq := { y.seq with ldepth := if x.level = 2 then x.traps.base2 else x.traps.base1,
                        pc := if x.level = 2 then x.traps.epc2 else x.traps.epc1 },
    traps := { y.traps with level := x.level - 1 } }

end Sys2Proof.Machine
end

