-- ==== Sys2Proof/Machine/Event.lean ====
section
/-! DEFINITION. The event ring (R352): records of 32 bytes in host memory, the buffer behind a full ring, and the records that
events are folded into behind a full buffer. -/

namespace Sys2Proof.Machine

/-- A record as a little-endian number: type, status, queue, tag, identity, cause and detail. -/
def eventRec (typ status q tag id cause : Nat) : Nat :=
  typ % 256 + 2 ^ 8 * (status % 256) + 2 ^ 16 * (q % 256) + 2 ^ 32 * (tag % 2 ^ 32) + 2 ^ 64 * (id % 2 ^ 64) +
    2 ^ 128 * (cause % 2 ^ 64)

/-- Room in the ring: none while EVCFG gives it no legal size (notes/assumptions/13.md). -/
def Events.room (e : Events) : Bool :=
  decide (2 ≤ e.evcfg % 16) && decide ((e.evidx + 2 ^ 64 - e.evrd) % 2 ^ 64 < 2 ^ (e.evcfg % 16))

/-- Changes the event registers. -/
def State.modEvents (s : State) (f : Events → Events) : State := { s with miller := { s.miller with events := f s.miller.events } }

/-- Writes one record into the ring, then advances EVIDX. -/
def State.ringWrite (s : State) (r : Nat) : State :=
  let e := s.miller.events
  (s.writeN .host (fld e.evbase 6 46 * 64 + 32 * (e.evidx % 2 ^ (e.evcfg % 16))) 32 r).modEvents
    (fun e => { e with evidx := (e.evidx + 1) % 2 ^ 64 })

/-- Moves records from the buffer to the ring while it has room, and folded records into the buffer while that has room. -/
def State.drainEvents (s : State) : Nat → State
  | 0 => s
  | n + 1 =>
    let e := s.miller.events
    match e.buffer with
    | r :: rest => if e.room then ((s.modEvents (fun e => { e with buffer := rest })).ringWrite r).drainEvents n else s
    | [] => s

/-- Folded records enter the buffer as soon as it has room, in the order in which they were first folded. -/
def Events.unfold (e : Events) : Events :=
  let k := 4096 - e.buffer.length
  { e with buffer := e.buffer ++ (e.folded.take k).map (·.2), folded := e.folded.drop k }

/-- Delivers everything the ring and the buffer have room for. -/
def State.deliverEvents (s : State) : State :=
  let s1 := s.drainEvents (s.miller.events.buffer.length)
  let s2 := s1.modEvents Events.unfold
  s2.drainEvents (s2.miller.events.buffer.length)

/-- R352: folds an event into the pending record of its source; a record of type 5 keeps the latest `ready`. -/
def foldEvent (l : List (Nat × Nat)) (src r : Nat) : List (Nat × Nat) :=
  if l.any (fun p => p.1 == src) then
    l.map (fun p =>
      if p.1 = src then
        let v := if r % 256 = 5 then p.2 - fld p.2 64 64 * 2 ^ 64 + fld r 64 64 * 2 ^ 64 else p.2
        (src, v + 2 ^ 192)
      else p)
  else l ++ [(src, r + 2 ^ 192)]

/-- Gives an event of a source: to the ring, else to the buffer, else folded. -/
def State.addEvent (s : State) (src r : Nat) : State :=
  if s.miller.events.buffer.length < 4096 ∧ s.miller.events.folded = [] then
    (s.modEvents (fun e => { e with buffer := e.buffer ++ [r] })).deliverEvents
  else s.modEvents (fun e => { e with folded := foldEvent e.folded src r })

/-- Sources of events of type 3, 4 and 5. -/
def srcAtomic : Nat := 0x300
def srcLeat (p : Nat) : Nat := 0x400 + p
def srcVertical (i : Nat) : Nat := 0x500 + i
def srcHostPort : Nat := 0x600
def srcStorage : Nat := 0x601
def srcReady : Nat := 0x700

/-- A record with a free value in each field that the spec gives no value for this event (notes/assumptions/13.md). -/
def State.openRec (s : State) (typ : Nat) (status q id : Option Nat) : Nat :=
  eventRec typ (status.getD (s.free 9500)) (q.getD (s.free 9501)) (s.free 9502) (id.getD (s.free 9503)) (s.free 9504)

/-- An event of a source with open fields. -/
def State.openEvent (s : State) (src typ : Nat) (status q id : Option Nat) : State := (s.addEvent src (s.openRec typ status q id)).draw

/-- An event of type 4 for a port or interface. -/
def State.linkEvent (s : State) (src : Nat) (id : Option Nat) : State := s.openEvent src 4 none none id

/-- A free choice from a list; `d` where it is empty. -/
def pickFree (v d : Nat) (l : List Nat) : Nat := l.getD (v % max l.length 1) d

/-- The leat ports of peer `peer`'s mask, and those of them that are up (R357). -/
def State.maskPorts (s : State) (peer : Nat) : List Nat := (List.range 16).filter (fun p => bitAt (look 0 s.links.lroute peer) p)
def State.upPorts (s : State) (peer : Nat) : List Nat :=
  (s.maskPorts peer).filter (fun p => decide (0 < (look ⟨0, 0, 0, 0⟩ s.links.ports p).lanes))

/-- The leat port that an access to a peer takes, by a free value: one of the peer's mask that is up; where none is, one of the
mask; where that is empty, any port (notes/assumptions/14.md). -/
def State.peerPort (s : State) (peer : Nat) : Nat :=
  let up := s.upPorts peer
  let mask := s.maskPorts peer
  pickFree (s.free 9505) 0 (if up ≠ [] then up else if mask ≠ [] then mask else List.range 16)

/-- R358: the event of a peer access that never performs. -/
def State.peerEvent (s : State) (addr : Nat) : State :=
  let p := s.peerPort (addr / 2 ^ 40)
  s.linkEvent (srcLeat p) (some p)

end Sys2Proof.Machine
end

