-- ==== Sys2Proof/Machine/Operands.lean ====
section
/-! DEFINITION. The port space (R62, R63, Tables 3.4 and 3.6): which names may be read and written, reading a name as the kind
an operand wants (R136, R206), and the trap conditions of doing so. -/

namespace Sys2Proof.Machine

/-! ## Trap candidates (R74) -/

/-- What a trap's value is before its slot is known (Table 3.18, Table 17.2). -/
inductive TrapVal where
  | slot
  | name (n : Nat)
  | val (v : Nat)
  deriving DecidableEq, Repr

/-- A trap condition of one slot: cause and value. -/
structure Cand where
  cause : Nat
  tval : TrapVal
  deriving DecidableEq, Repr

/-- `trap(illegal register)` on a name. -/
def illegalRegister (n : Nat) : Cand := ⟨0x03, .name n⟩
/-- `trap(illegal combination)`. -/
def illegalCombination : Cand := ⟨0x04, .slot⟩
/-- `trap(schedule violation)`. -/
def scheduleViolation : Cand := ⟨0x05, .slot⟩

/-- One candidate when a condition holds. -/
def candIf (b : Bool) (k : Cand) : List Cand := if b then [k] else []

/-! ## Values by kind -/

/-- The scalar of a held value: elements (0,0) to (0,3) (R63). -/
def PVal.asScalar (v : PVal) : Nat := v.lo.toNat % 2 ^ 64
/-- The 16-byte value: elements (0,0) to (0,7) of a tile, a scalar zero-extended (R206). -/
def PVal.asWide (v : PVal) : Nat := v.lo.toNat % (if v.kind = .scalar then 2 ^ 64 else 2 ^ 128)
/-- The tile of a held value: a scalar's low 16 bits broadcast (Table 3.6). -/
def PVal.asTile (v : PVal) : Tile := if v.kind = .scalar then tileSplat (v.lo.toNat % 65536) else v.lo
/-- The high tile of a held value read as a pair: a scalar's bits [31:16] broadcast (R136 for a source; of a scalar that a move left in
the port the spec says nothing), zero for a tile (DESIGN CHOICE, notes/assumptions/52.md). -/
def PVal.asHigh (v : PVal) : Tile :=
  match v.kind with
  | .scalar => tileSplat (v.lo.toNat / 65536 % 65536)
  | .tile => 0
  | .pair => v.hi

/-- What an operand wants of a name. -/
inductive Want where
  | any | scalar | tile | pair
  deriving DecidableEq, Repr

/-- The operand kind of a vector operation of a format (R28). -/
def wantOf (fmt : Nat) : Want := if fmtWide fmt then .pair else .tile
where
  /-- 32-bit format codes (Table 2.1). -/
  fmtWide (f : Nat) : Bool := f == 0xD || f == 0xE || f == 0xF

/-! ## Names as sources -/

/-- Whether a name may be a source, in a window of `vcount` tiles (Table 3.4). -/
def isSource (vcount n : Nat) : Bool :=
  decide (n < vcount ∧ n < 0x300) || decide (0x300 ≤ n ∧ n < 0x378) || decide (0x380 ≤ n ∧ n < 0x38A) ||
    decide (0x390 ≤ n ∧ n < 0x3D0) || decide (0x500 ≤ n ∧ n < 0x540) || decide (0x600 ≤ n ∧ n < 0x780)

/-- Whether a name may be the destination of a move (Table 3.4). -/
def isDest (vcount n : Nat) : Bool :=
  decide (n < vcount ∧ n < 0x300) || decide (0x300 ≤ n ∧ n < 0x370) || decide (0x400 ≤ n ∧ n < 0x420 ∧ n % 4 < 2) ||
    decide (0x500 ≤ n ∧ n < 0x540) || decide (0x600 ≤ n ∧ n < 0x780)

/-- Whether a name is of scalar kind for the control slot (R113). -/
def isControlSource (n : Nat) : Bool :=
  decide (0x300 ≤ n ∧ n < 0x372) || decide (0x380 ≤ n ∧ n ≤ 0x386) || decide (0x500 ≤ n ∧ n < 0x540) ||
    decide (0x600 ≤ n ∧ n < 0x780)

/-- Whether a name is a z slice. -/
def isZ (n : Nat) : Bool := decide (0x390 ≤ n ∧ n < 0x3D0)

/-- The row of z tile `t` of core `k`. -/
def State.zRow (s : State) (k t i : Nat) : BitVec 4096 := look 0 (s.eng k).z (128 * t + i)

/-- Element (i, j) of z tile `t`: its FP32 bits. -/
def State.zAt (s : State) (k t i j : Nat) : Nat := (s.zRow k t i).toNat / 2 ^ (32 * j) % 2 ^ 32

/-- Slice s of a z tile given by its rows, as a pair (R177). -/
def slicePair (rows : Nat → BitVec 4096) (sl : Nat) : PVal :=
  let row := fun i => (rows (16 * (sl / 2) + i)).toNat / 2 ^ (2048 * (sl % 2))
  let el := fun e => row (e / 64) / 2 ^ (32 * (e % 64)) % 2 ^ 32
  ⟨.pair, tileOf (fun e => el e % 65536), tileOf (fun e => el e / 65536)⟩

/-- Element by element, the value of `w` where bit `e` of `n` is 1 and of `v` elsewhere; both are tiles or pairs. -/
def PVal.mix (n : Nat) (v w : PVal) : PVal := { w with lo := mixTile (maskTile n) v.lo w.lo, hi := mixTile (maskTile n) v.hi w.hi }

/-- Slice z t.s as context `c` reads it (R177): under a running `mfin` or `mzero` of another context each element holds its old
or its new value, by a free value (R188). -/
def State.zSlice (s : State) (c t sl : Nat) : PVal :=
  let k := coreOf c
  let old := slicePair (s.zRow k t) sl
  match (s.eng k).mxq.find? (fun r => r.o.zb == t && !r.out.isEmpty && r.iss.ctx != c) with
  | none => old
  | some r => old.mix (s.free (256 + sl)) (slicePair (fun i => r.out.getD i 0) sl)

/-- The physical tile of a tile name (R134). -/
def Ctx.physTile (x : Ctx) (n : Nat) : Nat := x.win.vbase + n
/-- The tile of a name. -/
def State.tile (s : State) (c n : Nat) : Tile := look 0 (s.core (coreOf c)).tiles ((s.ctx c).physTile n)
/-- Writes physical tile `p` of core `k`. -/
def State.setTile (s : State) (k p : Nat) (t : Tile) : State := s.modCore k (fun c => { c with tiles := setv 0 c.tiles p t })

/-- A result port as a bundle reads it: an element read inside the landing window of results in flight of the unit, and where sa
and ag are concerned of the trap level (R291), holds the port's value or one of theirs (R68, R77, R79); which is a free value. A
scalar is one element (R63). -/
def State.readPort (s : State) (c fu : Nat) : PVal :=
  let x := s.ctx c
  let base := x.port x.level fu
  let v := (x.ports.flights.zipIdx).foldl (fun (acc : PVal) p =>
    let f := p.1
    match f.val with
    | some v =>
      if f.fu = fu ∧ portKey f.level fu = portKey x.level fu ∧ f.landing.isNone ∧ f.lo ≤ x.seq.cyc ∧ f.lo < f.hi then
        let n := s.free (2 * p.2 + 16 * fu)
        let w := f.merged base v
        if w.kind = .scalar ∨ acc.kind = .scalar then (if bitAt n 0 then w else acc) else acc.mix n w
      else acc
    | none => acc) base
  if 3 ≤ fu then { v with kind := if x.ports.pairs.getLsbD fu then .pair else .tile } else v

/-- A word of a feed descriptor as a name reads it: reserved bits read zero (R6, Table 8.3). The word itself is kept, for the trap
of R165. -/
def mdWord (w v : Nat) : Nat := if w = 2 then v % 2 ^ 48 else if w = 3 then v % 2 ^ 58 else v

/-- The row-index, column-index and all-ones tiles (Table 3.4). -/
def rowIdx : Tile := tileOf (fun e => e / 64)
def colIdx : Tile := tileOf (fun e => e % 64)
def onesTile : Tile := BitVec.allOnes 16384

/-- The value of a source name as it is, a tile name wanted as a pair giving the pair (v2n, v2n+1) (R28). -/
def State.readName (s : State) (c n : Nat) (w : Want) : PVal :=
  let x := s.ctx c
  if n < 0x300 then
    (if w = .pair then ⟨.pair, s.tile c n, s.tile c (n + 1)⟩ else ⟨.tile, s.tile c n, 0⟩)
  else if n < 0x340 then PVal.scal (x.s (n - 0x300))
  else if n < 0x360 then PVal.scal (x.a (n - 0x340))
  else if n < 0x370 then PVal.scal (x.o (n - 0x360))
  else if n < 0x378 then s.readPort c (n - 0x370)
  else if n < 0x386 then PVal.scal (if n - 0x380 < x.seq.ldepth then (x.loopAt (n - 0x380)).index else 0)
  else if n = 0x386 then PVal.zero
  else if n = 0x387 then ⟨.tile, rowIdx, 0⟩
  else if n = 0x388 then ⟨.tile, colIdx, 0⟩
  else if n = 0x389 then (if w = .pair then ⟨.pair, onesTile, onesTile⟩ else ⟨.tile, onesTile, 0⟩)
  else if n < 0x3D0 then s.zSlice c ((n - 0x390) / 16) ((n - 0x390) % 16)
  else if n < 0x540 then PVal.scal (mdWord ((n - 0x500) % 4) (rd x.regs.md (n - 0x500)))
  else PVal.scal (rd x.regs.cp (n - 0x600))

/-- Whether the name reads as a pair whatever is wanted: a z slice, or a vector result port of kind pair (R63). -/
def State.readsPair (s : State) (c n : Nat) : Bool :=
  isZ n || (decide (0x373 ≤ n ∧ n < 0x378) && (s.ctx c).ports.pairs.getLsbD (n - 0x370))

/-- Whether an mfin or mzero of context `c` into tile `t` has not yet written it (R79). -/
def State.zPending (s : State) (c t : Nat) : Bool :=
  (s.eng (coreOf c)).mxq.any (fun r => r.iss.ctx == c && (r.op == 5 || r.op == 6) && r.o.zb == t)

/-- The trap conditions of reading a name (R62, R79, R136, Table 3.6). -/
def State.sourceCands (s : State) (c n : Nat) (w : Want) : List Cand :=
  let x := s.ctx c
  if !isSource x.win.vcount n then [illegalRegister n]
  else
    candIf (w == .pair && decide (n < 0x300) && n % 2 == 1) (illegalRegister n) ++
    candIf (w == .scalar && s.readsPair c n) illegalCombination ++
    candIf (isZ n && decide (x.seq.cyc < look 0 x.ports.zdue ((n - 0x390) / 16))) scheduleViolation

/-- Whether reading a name stalls: a z slice at or after its due cycle whose tile is not yet written (R79). -/
def State.sourceStalls (s : State) (c n : Nat) : Bool := isZ n && s.zPending c ((n - 0x390) / 16)

/-! ## Latches (R61) -/

/-- The key of a latch. -/
def latchKey (level fu p : Nat) : Nat := 16 * level + 2 * fu + p
/-- The latched operand. -/
def Ctx.latch (x : Ctx) (fu p : Nat) : PVal := look PVal.zero x.ports.latch (latchKey x.level fu p)
/-- Writes a latch. -/
def Ctx.setLatch (x : Ctx) (fu p : Nat) (v : PVal) : Ctx :=
  { x with ports := { x.ports with latch := put x.ports.latch (latchKey x.level fu p) v } }

/-- A value as an operand port holds it: sa and ag a scalar, the others with its kind (R63). -/
def portHolds (fu : Nat) (v : PVal) : PVal := if fu < 2 then PVal.scal v.asScalar else v

/-! ## Destinations -/

/-- The names a move of value kind `pair` into `dst` writes (R63, R67). -/
def moveNames (pair : Bool) (dst : Nat) : List Nat := if pair && decide (dst < 0x300) then [dst, dst + 1] else [dst]

/-- Whether a name holds a scalar alone. -/
def isScalarDest (n : Nat) : Bool := decide (0x300 ≤ n ∧ n < 0x370) || decide (0x400 ≤ n ∧ n < 0x408) || decide (0x500 ≤ n)

/-- The trap conditions of a move into `dst` (R62, Table 3.6). -/
def State.destCands (s : State) (c dst : Nat) (pair : Bool) : List Cand :=
  if !isDest (s.ctx c).win.vcount dst then [illegalRegister dst]
  else
    candIf (pair && isScalarDest dst) illegalCombination ++
    candIf (pair && decide (dst < 0x300) && dst % 2 == 1) (illegalRegister dst)

/-- A pattern word as its register holds it: reserved bits read zero (R6, Table 10.1). -/
def cpWord (w v : Nat) : Nat :=
  if w = 2 then fld v 16 16 * 65536 + v % 2 ^ 13
  else if w = 3 then fld v 32 32 * 2 ^ 32 + v % 65536
  else if 4 ≤ w ∧ w < 22 ∧ (w - 4) % 3 = 0 then v % 2 ^ 48
  else v

/-- Writes a value into a move's destination (Table 3.6). -/
def State.writeDest (s : State) (c dst : Nat) (v : PVal) : State :=
  let x := s.ctx c
  if dst < 0x300 then
    let s1 := s.setTile (coreOf c) (x.physTile dst) v.asTile
    if v.kind = .pair then s1.setTile (coreOf c) (x.physTile (dst + 1)) v.hi else s1
  else if dst < 0x340 then s.setCtx c (x.setS (dst - 0x300) v.asScalar)
  else if dst < 0x360 then s.setCtx c { x with regs := { x.regs with a := wr x.regs.a (dst - 0x340) v.asScalar } }
  else if dst < 0x370 then s.setCtx c { x with regs := { x.regs with o := wr x.regs.o (dst - 0x360) v.asScalar } }
  else if dst < 0x500 then
    let fu := (dst - 0x400) / 4
    s.setCtx c (x.setLatch fu (dst % 4) (portHolds fu v))
  else if dst < 0x600 then s.setCtx c { x with regs := { x.regs with md := wr x.regs.md (dst - 0x500) v.asScalar } }
  else s.setCtx c { x with regs := { x.regs with cp := wr x.regs.cp (dst - 0x600) (cpWord ((dst - 0x600) % 24) v.asScalar) } }

/-- The value an immediate move writes into `dst` (R60): sign-extended, zero-extended into a descriptor or pattern word,
broadcast from its low 16 bits into a tile or a vector unit's port. -/
def immValue (dst imm : Nat) : PVal :=
  if dst < 0x300 ∨ (0x40C ≤ dst ∧ dst < 0x420) then ⟨.tile, tileSplat (imm % 65536), 0⟩
  else if 0x500 ≤ dst then PVal.scal (imm % 2 ^ 32)
  else PVal.scal (sext64 32 imm)

end Sys2Proof.Machine
end

