-- ==== Sys2Proof/Machine/Translate.lean ====
section
/-! DEFINITION. Page tables, walks and TLBs (R315 to R324), the address decode of ls accesses (R192 to R195) and the reads and
writes of a checked access. -/

namespace Sys2Proof.Machine

/-! ## The page-table entry (R317, R318) -/

/-- End of device DRAM (R316). -/
def dramEnd : Nat := 0x3000000000

/-- Physical address of an entry's page. -/
def ptePage (e : Nat) : Nat := fld e 16 36 * 65536
/-- Page class. -/
def pteClass (e : Nat) : Nat := fld e 8 2
/-- Page home. -/
def pteHome (e : Nat) : Nat := fld e 5 2
/-- Pin target: core or slice. -/
def ptePin (e : Nat) : Nat := fld e 52 12

/-- R318: a valid entry that is malformed at level `l`. -/
def malformed (e l : Nat) : Bool :=
  if bitAt e 1 then
    l == 2 || fld e 2 14 != 0 || fld e 52 12 != 0 || decide (dramEnd ≤ ptePage e)
  else
    l == 0 || (l == 1 && fld e 16 13 != 0) || (bitAt e 3 && bitAt e 4) || fld e 13 3 != 0 ||
      (decide (pteClass e < 2) && decide (dramEnd ≤ ptePage e)) ||
      (pteClass e == 3 && decide (2 ≤ pteHome e)) ||
      (pteClass e != 2 &&
        ((pteHome e == 2 && decide (128 ≤ fld e 52 10)) || (pteHome e == 3 && decide (384 ≤ fld e 52 10)) ||
          (decide (pteHome e < 2) && ptePin e != 0)))

/-- What a walk returns: the leaf with its level and its own physical address (R320), and the ASID and the page it was looked up for. -/
structure Leaf where
  pte : Nat
  level : Nat
  addr : Nat
  asid : Nat
  page : Nat
  deriving DecidableEq, Repr

/-- A leaf as the translation of something it was used for. -/
def Leaf.via (f : Leaf) : Via := ⟨f.asid, f.page, f.level, bitAt f.pte 10⟩

/-- The index of a virtual address at level `l` (Table 19.1). -/
def vaIndex (va l : Nat) : Nat := fld va (42 - 13 * l) 13

/-- R320: the walk from the table at `t`, level `l` on, entries being read by `rd`; none is a fault. -/
def walkFrom (rd : Nat → Nat) (va t l : Nat) : Nat → Option Leaf
  | 0 => none
  | n + 1 =>
    let a := t + 8 * vaIndex va l
    let e := rd a
    if e % 2 = 0 ∨ malformed e l then none
    else if bitAt e 1 then walkFrom rd va (ptePage e) (l + 1) n
    else some ⟨e, l, a, 0, va / 65536⟩

/-- R320: translates one page by the entries that memory holds. -/
def walk (m : Memory) (root va : Nat) : Option Leaf := walkFrom (fun a => memNat m a 8) va root 0 3

/-- The entries that a walk reads: address and entry. -/
def walkPath (rd : Nat → Nat) (va t l : Nat) : Nat → List (Nat × Nat)
  | 0 => []
  | n + 1 =>
    let a := t + 8 * vaIndex va l
    let e := rd a
    (a, e) :: (if e % 2 = 0 ∨ malformed e l then [] else if bitAt e 1 then walkPath rd va (ptePage e) (l + 1) n else [])

/-- The physical address of `va` under a leaf. -/
def Leaf.pa (f : Leaf) (va : Nat) : Nat := ptePage f.pte + (if f.level = 1 then va % 2 ^ 29 else va % 65536)

/-! ## Translation caches (R323, R324) -/

/-- The translation caches of die `d`. -/
def State.die (s : State) (d : Nat) : DieTables := look DieTables.reset s.dies d
/-- Changes the translation caches of die `d`. -/
def State.modDie (s : State) (d : Nat) (f : DieTables → DieTables) : State := { s with dies := put s.dies d (f (s.die d)) }

/-- The TLB of cluster `n` of a die; number 32 is the Miller's own, on d0. -/
def DieTables.tlb (t : DieTables) (n : Nat) : List TlbEntry := look [] t.tlbs n
def millerTlb : Nat := 32

/-- R324: an entry at `a` as a walker of die `d` reads it: a table entry that it holds and that has changed in memory since is read
as it was or as it is, by a free value. -/
def State.tableEntry (s : State) (d asid a : Nat) : Nat :=
  let e := s.readN .dram a 8
  match (s.die d).tables.find? (fun t => t.1 == asid && t.2.1 == a) with
  | some t => if t.2.2 ≠ e ∧ bitAt (s.free (2 ^ 41 + a / 8)) d then t.2.2 else e
  | none => e

/-- R320: the walk of a page by a walker of die `d`. -/
def State.walkBy (s : State) (d asid root va : Nat) : Option Leaf := (walkFrom (s.tableEntry d asid) va root 0 3).map (fun f => { f with asid := asid })

/-- The bits of an entry that the walkers set: A and D (R321). -/
def bitsAD : Nat := 2 ^ 11 + 2 ^ 12

/-- Whether software has changed a leaf since it was cached: any field, or A or D cleared (R324). Its A and D that the walkers have
set since are no change. -/
def TlbEntry.changed (e : TlbEntry) (now : Option Leaf) : Bool :=
  match now with
  | none => true
  | some f => f.addr != e.addr || f.level != e.level || (f.pte ||| bitsAD) != (e.pte ||| bitsAD) || (e.pte &&& bitsAD &&& f.pte) != (e.pte &&& bitsAD)

/-- Whether a TLB entry serves `va` of `asid`. -/
def TlbEntry.serves (e : TlbEntry) (asid va : Nat) : Bool :=
  (e.asid == asid || bitAt e.pte 10) && (if e.level = 1 then e.page / 8192 == va / 2 ^ 29 else e.page == va / 65536)

/-- The leaf of an entry, looked up for `va` of `asid`. -/
def TlbEntry.leaf (e : TlbEntry) (asid va : Nat) : Leaf := ⟨e.pte, e.level, e.addr, asid, va / 65536⟩

/-- The leaf that a list of TLB entries holds for `va`: one that has changed in memory since is used or not, by a free value of agent
`n` (R324). -/
def State.tlbHit (s : State) (l : List TlbEntry) (n asid root va : Nat) : Option Leaf :=
  match l.find? (fun e => e.serves asid va) with
  | none => none
  | some e => if e.changed (walk s.mem.dram root va) ∧ bitAt (s.free (2 ^ 40 + va / 65536)) n then none else some (e.leaf asid va)

/-- The entries that core `k` looks in: its own TLB, then its cluster's. -/
def State.tlbsOf (s : State) (k : Nat) : List TlbEntry := (s.core k).tlb ++ (s.die (dieOf k)).tlb (clusterOf k)

/-- A translation as an access finds it. -/
inductive Trans where
  | ok (leaf : Leaf)
  | fault
  | miss
  deriving DecidableEq, Repr

/-- The translation of `va` for an ls access of context `c`: a page whose walk has faulted for it faults (R195, R320). -/
def State.tlbLook (s : State) (c va : Nat) : Trans :=
  let x := s.ctx c
  match s.tlbHit (s.tlbsOf (coreOf c)) (coreOf c) x.sched.asid (s.rootOf x.sched.job) va with
  | some f => .ok f
  | none => if x.sched.faults.contains (va / 65536) then .fault else .miss

/-- The ASID of a job. -/
def State.asidOf (s : State) (j : Nat) : Nat := (s.job j).elim 0 (·.asid)

/-- Whether an address is one that tables translate (R315, Table 9.1). -/
def isVirtual (va : Nat) : Bool := decide (0x8000000 ≤ va ∧ va < 2 ^ 55)

/-- The translation of `va` of job `j` for the copy engine and the fetch path of core `k`, which wait for their walks. -/
def State.coreLeaf (s : State) (k j va : Nat) : Option Leaf :=
  if !isVirtual va then none
  else
    match s.tlbHit (s.tlbsOf k) k (s.asidOf j) (s.rootOf j) va with
    | some f => some f
    | none => s.walkBy (dieOf k) (s.asidOf j) (s.rootOf j) va

/-- The walk that the copy engine or the fetch path of core `k` needs for `va` of job `j`; none where a TLB serves it. -/
def State.coreWalk (s : State) (k j va : Nat) : Option Fetch :=
  if !isVirtual va ∨ (s.tlbHit (s.tlbsOf k) k (s.asidOf j) (s.rootOf j) va).isSome then none
  else some (.walk (s.asidOf j) (s.rootOf j) (va / 65536))

/-- R323: whether that walk has to wait: it is under way for another agent, with which it is shared, or all 256 walkers of the die are
taken. -/
def State.walkWaits (s : State) (k j va : Nat) : Bool :=
  match s.coreWalk k j va with
  | none => false
  | some w => (let l := (s.die (dieOf k)).walks; l.contains w || decide (256 ≤ l.length))

/-- The translation of `va` of job `j` for the Miller. -/
def State.millerLeaf (s : State) (j va : Nat) : Option Leaf :=
  if !isVirtual va then none
  else
    match s.tlbHit ((s.die 0).tlb millerTlb) 600 (s.asidOf j) (s.rootOf j) va with
    | some f => some f
    | none => s.walkBy 0 (s.asidOf j) (s.rootOf j) va

/-- A list of TLB entries with a new one, at most `n`: a full list loses one by the free value `v` (R323). -/
def addTlb (v n : Nat) (e : TlbEntry) (l : List TlbEntry) : List TlbEntry :=
  let r := l.filter (fun x => !x.serves e.asid (e.page * 65536))
  e :: (if n ≤ r.length then r.eraseIdx (v % r.length) else r)

/-- What a walk by a walker of die `d` leaves: the table entries it has read are held, uncorrectable errors it met are counted. -/
def State.walked (s : State) (d asid root va : Nat) : State :=
  let path := walkPath (s.tableEntry d asid) va root 0 3
  let new := path.filter (fun p => p.2 % 4 == 3)
  let s1 := path.foldl (fun t p => t.meetBad .dram p.1 8) s
  if new.all (fun p => (s.die d).tables.contains (asid, p.1, p.2)) then s1
  else s1.modDie d (fun t => { t with tables := new.map (fun p => (asid, p.1, p.2)) ++ t.tables.filter (fun q => !new.any (fun p => q.1 == asid && q.2.1 == p.1)) })

/-- The entry of a leaf for `va`. -/
def Leaf.entry (f : Leaf) (asid va : Nat) : TlbEntry := ⟨asid, va / 65536, f.level, f.pte, f.addr⟩

/-- A leaf enters the TLB of core `k` and of its cluster. -/
def State.fillTlb (s : State) (k asid va : Nat) (f : Leaf) : State :=
  let e := f.entry asid va
  (s.modCore k (fun c => { c with tlb := addTlb (s.free 5400) 256 e c.tlb })).modDie (dieOf k) (fun t =>
    { t with tlbs := put t.tlbs (clusterOf k) (addTlb (s.free 5401) 4096 e (t.tlb (clusterOf k))) })

/-- A translation that the copy engine or the fetch path of core `k` has used is cached. -/
def State.coreUsed (s : State) (k j va : Nat) (f : Leaf) : State :=
  if (s.tlbsOf k).contains (f.entry (s.asidOf j) va) then s
  else (s.walked (dieOf k) (s.asidOf j) (s.rootOf j) va).fillTlb k (s.asidOf j) va f

/-- A translation that the Miller has used is cached. -/
def State.millerUsed (s : State) (j va : Nat) (f : Leaf) : State :=
  let e := f.entry (s.asidOf j) va
  if ((s.die 0).tlb millerTlb).contains e then s
  else (s.walked 0 (s.asidOf j) (s.rootOf j) va).modDie 0 (fun t =>
    { t with tlbs := put t.tlbs millerTlb (addTlb (s.free 5402) 256 e (t.tlb millerTlb)) })

/-- The walks of pages that core `k` waits for begin: they join the walks of its die, which one ASID and page shares (R323). -/
def State.askWalks (s : State) (k : Nat) (w : List Fetch) : State :=
  let old := look [] s.fetches k
  let new := w.eraseDups.filter (fun f => !old.contains f)
  if new.isEmpty then s
  else
    let d := s.die (dieOf k)
    { s with fetches := put s.fetches k (old ++ new),
             dies := put s.dies (dieOf k) { d with walks := d.walks ++ new.filter (fun f => !d.walks.contains f) } }

/-- Sets A, and D for a write, in the entries of a list that hold a leaf. -/
def markTlb (a bits : Nat) (l : List TlbEntry) : List TlbEntry := l.map (fun e => if e.addr = a then { e with pte := e.pte ||| bits } else e)

/-- R321: sets A, and D for a write, on the leaf an access uses, atomically in memory and in the TLBs of core `k` that hold it. -/
def State.markLeaf (s : State) (k : Nat) (f : Leaf) (write : Bool) : State :=
  let bits := 2 ^ 11 ||| (if write then 2 ^ 12 else 0)
  if f.pte &&& bits = bits then s
  else
    let s1 := (s.updateN .dram f.addr 8 (fun v => v ||| bits)).1
    let s2 := s1.modCore k (fun c => { c with tlb := markTlb f.addr bits c.tlb })
    if ((s2.die (dieOf k)).tlb (clusterOf k)).isEmpty then s2
    else s2.modDie (dieOf k) (fun t => { t with tlbs := put t.tlbs (clusterOf k) (markTlb f.addr bits (t.tlb (clusterOf k))) })

/-- The same for an access of the Miller by virtual address `va` of job `j`, whose translation it caches. -/
def State.millerMark (s : State) (j va : Nat) (f : Leaf) (write : Bool) : State :=
  let bits := 2 ^ 11 ||| (if write then 2 ^ 12 else 0)
  let s1 := s.millerUsed j va f
  if f.pte &&& bits = bits then s1
  else
    (s1.updateN .dram f.addr 8 (fun v => v ||| bits)).1.modDie 0 (fun t =>
      { t with tlbs := put t.tlbs millerTlb (markTlb f.addr bits (t.tlb millerTlb)) })

/-! ## Address decode for ls accesses (Table 9.1, Table 9.2) -/

/-- What an access does to its bytes. -/
inductive Perm where
  | load | store | atomic
  deriving DecidableEq, Repr

/-- Whether the access writes. -/
def Perm.writes : Perm → Bool
  | .load => false
  | _ => true

/-- R195: whether a leaf allows the access. -/
def Perm.allows (p : Perm) (pte : Nat) : Bool :=
  match p with
  | .load => bitAt pte 2
  | .store => bitAt pte 3
  | .atomic => bitAt pte 2 && bitAt pte 3

/-- Where a checked piece performs: store and address, whether it is remote (Table 9.2), its leaf when translated. -/
structure Target where
  space : Space
  addr : Nat
  own : Bool
  remote : Bool
  leaf : Option Leaf
  deriving DecidableEq, Repr

/-- The check of one piece of an access. -/
inductive Check where
  | ok (t : Target)
  | bad (k : Cand)
  /-- the translation is not in the TLB (R195) -/
  | walk
  deriving DecidableEq, Repr

/-- The row of Table 9.1 of an address. -/
def addrRow (a : Nat) : Nat :=
  if a < 0x1000000 then 0 else if a < 0x4000000 then 1 else if a < 0x8000000 then 2 else if a < 2 ^ 55 then 3 else 4

/-- `trap(scratchpad way)` at an address. -/
def wayTrap (a : Nat) : Cand := ⟨0x07, .val a⟩

/-- The target of a virtual address under a leaf that allows it (Tables 9.2 and R319). -/
def leafTarget (f : Leaf) (a : Nat) : Target :=
  match pteClass f.pte with
  | 2 => ⟨.peer, f.pa a, false, true, some f⟩
  | 3 => ⟨.host, f.pa a, false, pteHome f.pte == 1, some f⟩
  | _ => ⟨.dram, f.pa a, false, pteHome f.pte == 1, some f⟩

/-- The job that the owner tag of a way names: an owned way's, and a released way's, which keeps its contents and its tag (R127). -/
def tagJob : Way → Option Nat
  | .cache => none
  | .owned j _ => some j
  | .released j _ => some j

/-- R192 to R195: checks the piece at `a` for context `c`. -/
def State.checkPiece (s : State) (c a : Nat) (p : Perm) : Check :=
  let x := s.ctx c
  let k := coreOf c
  let own := fun (off : Nat) =>
    if bitAt x.win.ways (off / 2 ^ 20) then Check.ok ⟨.sp, k * 2 ^ 24 + off, true, false, none⟩ else Check.bad (wayTrap a)
  match addrRow a with
  | 0 => own a
  | 1 => .bad (wayTrap a)
  | 2 =>
    let t := k / 4 * 4 + fld a 24 2
    let off := a % 2 ^ 24
    if t = k then own off
    else
      if tagJob (s.way t (off / 2 ^ 20)) = some x.sched.job then .ok ⟨.sp, t * 2 ^ 24 + off, false, true, none⟩ else .bad (wayTrap a)
  | 3 =>
    match s.tlbLook c a with
    | .miss => .walk
    | .fault => .bad ⟨0x0A, .val a⟩
    | .ok f =>
      if pteClass f.pte = 1 ∨ !p.allows f.pte then .bad ⟨0x0B, .val a⟩
      else .ok (leafTarget f a)
  | _ => .bad ⟨0x0A, .val a⟩

/-! ## Write-backs (R105, R132) -/

/-- Whether one of `n` pages from virtual page `p` on satisfies `f`. -/
def anyPage (f : Nat → Bool) (p : Nat) : Nat → Bool
  | 0 => false
  | n + 1 => f p || anyPage f (p + 1) n

/-- Whether a maintenance operation of core `k` acts on a virtual address: one of its range, in a page that translates. -/
def Maint.covers (s : State) (k : Nat) (m : Maint) (va : Nat) : Bool :=
  decide (m.base ≤ va ∧ va < m.base + m.len) && (s.coreLeaf k m.job va).isSome

/-- Whether it acts on the line at a place: some part of the line lies in a page of its range. -/
def Maint.meets (s : State) (k : Nat) (m : Maint) (place : Nat) : Bool :=
  decide (0 < m.len) && anyPage (fun p =>
    match s.coreLeaf k m.job (p * 65536) with
    | none => false
    | some f =>
      let t := leafTarget f (p * 65536)
      let lo := max m.base (p * 65536) - p * 65536
      let hi := min (m.base + m.len) ((p + 1) * 65536) - p * 65536
      overlap place 128 (t.space.code * 2 ^ 60 + t.addr + lo) (hi - lo)) (m.base / 65536) ((m.base + m.len - 1) / 65536 + 1 - m.base / 65536)

/-- A `cwb` performs: the lines that its range meets are written back to L2. -/
def cleanLines (s : State) (k : Nat) (m : Maint) : State :=
  s.modMem (fun q => { q with l1 := q.l1.filter (fun e => !(e.core == k && m.meets s k e.place)) })

/-- Whether an operation was issued by entry `i` of the placement map of job `j`. -/
def Maint.ofOwner (m : Maint) (j i : Nat) : Bool := m.job == j && m.place == i

/-- The pending operations of core `k` that satisfy `p` perform as `f` has it, in the order of their issue, and are pending no more. -/
def State.performOn (f : State → Nat → Maint → State) (p : Maint → Bool) (s : State) (k : Nat) : State :=
  if (s.core k).maint.any p then
    (((s.core k).maint.filter p).foldl (fun t m => f t k m) s).modCore k (fun q => { q with maint := q.maint.filter (fun m => !p m) })
  else s

/-- R105: a release of entry `i` of job `j` performs what its `cwb` instructions have still to write back, on whatever cores it issued
them (R309). -/
def State.releaseOf (s : State) (j i : Nat) : State :=
  s.cores.foldl (fun t c => t.performOn cleanLines (fun m => !m.inv && m.ofOwner j i) c.1) s

/-- A release of the current context. -/
def State.release (s : State) : State := s.releaseOf (s.ctx s.cur).sched.job (s.ctx s.cur).sched.place

/-! ## Pinned lines (R202) -/

/-- The ways of core `k` in the cache state that have an unlocked line. -/
def lockRoom (s : State) (k : Nat) : List Nat :=
  (List.range 16).filter (fun w => s.way k w == .cache && decide (lockedIn s k w < 8192))

/-- A way for the next locked line of core `k`, by a free value; none when no unlocked line is left. -/
def lockChoice (s : State) (k draw : Nat) : Option Nat :=
  let l := lockRoom s k
  if l = [] then none else l[s.free (7000 + draw) % l.length]?

/-- Counts a pinned access performed as home 00 (R202, R375). -/
def State.pinFallback (s : State) : State := { s with tele := { s.tele with pinfb := (s.tele.pinfb + 1) % 2 ^ 64 } }

/-- The lock on a line in way `w` of core `k` through a leaf. -/
def Leaf.lock (f : Leaf) (k w line : Nat) : Locked := ⟨k, w, line, f.via⟩

/-- R202: an access to the line at `a` of a pinned page allocates and locks it, or is counted. -/
def State.pinLine (s : State) (f : Leaf) (a draw : Nat) : State :=
  let pte := f.pte
  let line := a / 128 * 128
  let pin := ptePin pte
  if pteClass pte ≠ 0 then s
  else if pteHome pte = 2 then
    let k := 128 * fld pin 10 2 + pin % 1024
    if s.mem.locked.any (fun l => l.core == k && l.line == line) then s
    else
      match lockChoice s k draw with
      | some w => s.modMem (fun m => { m with locked := f.lock k w line :: m.locked })
      | none => s.pinFallback
  else if pteHome pte = 3 then
    let k := 512 + 384 * fld pin 10 2 + pin % 1024
    if s.mem.locked.any (fun l => l.core == k && l.line == line) then s
    else if (s.mem.locked.filter (fun l => l.core == k)).length < 16384 then
      s.modMem (fun m => { m with locked := f.lock k 0 line :: m.locked })
    else s.pinFallback
  else s

/-- The lines of [a, a + n) of a page are locked where it is pinned (R202). -/
def State.pinLines (s : State) (f : Leaf) (a n : Nat) : State :=
  (List.range ((a % 128 + n + 127) / 128)).foldl (fun u i => u.pinLine f (a + 128 * i) i) s

/-- Marks the leaf a target of `n` bytes was reached through, and locks its lines (R202, R321). -/
def State.touch (s : State) (k : Nat) (t : Target) (write : Bool) (n : Nat) : State :=
  match t.leaf with
  | none => s
  | some f => (s.markLeaf k f write).pinLines f t.addr n

/-- The same for `n` bytes at virtual address `va` of job `j` that the Miller accesses. -/
def State.millerTouch (s : State) (j va : Nat) (f : Leaf) (write : Bool) (n : Nat) : State :=
  (s.millerMark j va f write).pinLines f (leafTarget f va).addr n

/-! ## Performing a checked access -/

/-- The parts of [a, a + n) cut at 64 KiB: address and length. No part crosses a page, a way or a row of Table 9.1. -/
def chunks (a n : Nat) : List (Nat × Nat) :=
  let m := 65536 - a % 65536
  if n ≤ m then [(a % 2 ^ 64, n)] else [(a % 2 ^ 64, m), ((a + m) % 2 ^ 64, n - m)]

/-- A part of an access with its check. -/
structure Part where
  addr : Nat
  len : Nat
  check : Check
  deriving DecidableEq, Repr

/-- R192 to R195: the checked parts of an access of `n` bytes at `a`. -/
def State.parts (s : State) (c a n : Nat) (p : Perm) : List Part := (chunks a n).map (fun k => ⟨k.1, k.2, s.checkPiece c k.1 p⟩)

/-- The trap conditions of an access. -/
def partCands (l : List Part) : List Cand := l.filterMap (fun k => match k.check with | .bad x => some x | _ => none)

/-- The pages an access waits to have walked. -/
def partWalks (l : List Part) : List Nat := l.filterMap (fun k => match k.check with | .walk => some (k.addr / 65536) | _ => none)

/-- Whether every part is in own scratchpad. -/
def partsOwn (l : List Part) : Bool := l.all (fun k => match k.check with | .ok t => t.own | _ => true)

/-- Whether a part is remote (Table 9.2). -/
def partsRemote (l : List Part) : Bool := l.any (fun k => match k.check with | .ok t => t.remote | _ => false)

/-- Whether the peer of a target performs an access: LROUTE names a port that is trained, and the access lies in the peer's
export (R358). -/
def State.reachable (s : State) (t : Target) : Bool :=
  match t.space with
  | .peer => s.upPorts (t.addr / 2 ^ 40) != [] && decide (t.addr % 2 ^ 40 < Config.peerExport (t.addr / 2 ^ 40) * 2 ^ 30)
  | _ => true

/-- The vertical interfaces between two dies (bit i: between d(i) and d(i+1)). -/
def crossMask (a b : Nat) : Nat := 2 ^ max a b - 2 ^ min a b

/-- The vertical interfaces that an access from die `d` certainly crosses: to the home agents of d3 for an uncached access to DRAM, to d0 for
one to the host or to a peer (R10, R11, Table 9.2), to the die of the core or slice that a page is pinned to (R202). -/
def Target.crosses (d : Nat) (t : Target) : Nat :=
  if t.remote then
    match t.space with
    | .dram => crossMask d 3
    | .sp => 0
    | _ => crossMask d 0
  else
    match t.leaf with
    | some f => if pteClass f.pte = 0 ∧ 2 ≤ pteHome f.pte then crossMask d (fld (ptePin f.pte) 10 2) else 0
    | none => 0

/-- Whether one of the vertical interfaces of a mask pauses: what crosses it completes late (R335). -/
def State.paused (s : State) (m : Nat) : Bool := m != 0 && (List.range 3).any (fun i => bitAt m i && (s.links.vlinks.getD i VLink.reset).busy)

/-- The bytes a part reads; a peer that cannot be reached gives zero (R358). -/
def State.readPart (s : State) (k : Part) : Nat :=
  match k.check with
  | .ok t => if s.reachable t then s.readN t.space t.addr k.len else 0
  | _ => 0

/-- The bytes of an access, in address order. -/
def State.readParts (s : State) : List Part → Nat
  | [] => 0
  | k :: r => s.readPart k + 2 ^ (8 * k.len) * s.readParts r

/-- Whether an access through a leaf uses L1 or a near-cache way (Table 9.2, R196). -/
def Target.cached (t : Target) : Bool := t.leaf.isSome && !t.remote && (t.space == .dram || t.space == .host)

/-- The dirty lines of core `k` with the line at `a` of a store among them, which L2 holds as memory now reads; at most as many as its
caches hold, one of them being lost by a free value (R105, R196). -/
def State.dirtied (s : State) (k : Nat) (f : Leaf) (w : Space) (a : Nat) : List Dirty :=
  let l := lineAt w a
  if s.mem.l1.any (fun e => e.core == k && e.place == l) then
    (s.mem.l1.filter (fun e => e.core == k || e.place != l)).map (fun e =>
      if e.place = l ∧ !e.vias.contains f.via then { e with vias := e.vias ++ [f.via] } else e)
  else
    let mine := s.mem.l1.filter (fun e => e.core == k)
    let other := s.mem.l1.filter (fun e => e.core != k && e.place != l)
    let room := 2048 + 8192 * ((List.range 16).filter (fun i => s.way k i == .cache)).length
    ⟨k, l, s.readN w (a / 128 * 128) 128, [f.via]⟩ :: (if room ≤ mine.length then mine.eraseIdx (s.free 5403 % mine.length) else mine) ++ other

/-- The state whose L1 of core `k` holds the lines of [a, a + n) dirty, written through a leaf. -/
def State.dirty (s : State) (k : Nat) (f : Leaf) (w : Space) (a n : Nat) : State :=
  (List.range ((a % 128 + n + 127) / 128)).foldl (fun t i => t.modMem (fun m => { m with l1 := t.dirtied k f w (a + 128 * i) })) s

/-- The `xcpy` writes that a write into a part, or an atomic's update of it, comes after are visible before it (R272, R280). -/
def State.passPart (s : State) (k : Part) : State :=
  match k.check with
  | .ok t => if s.reachable t then s.passLoose t.space t.addr k.len else s
  | _ => s

/-- R175: what the current context leaves by a write into another core's scratchpad. -/
def State.leaveFresh (s : State) (t : Target) (n : Nat) : State :=
  if t.space = .sp ∧ !t.own then
    let d := (s.ctx s.cur).sched
    s.addFresh (t.addr / 2 ^ 24) ⟨d.job, d.place, 0, t.addr / 2 ^ 20 % 16, [], [], 0, false, [(t.addr % 2 ^ 24, n)]⟩
  else s

/-- Writes the low bytes of `v` into a part whose place among the `xcpy` writes has been decided; nothing where the peer cannot be
reached. A line that the core's caches hold becomes dirty there. -/
def State.putPart (s : State) (k : Part) (v : Nat) : State :=
  match k.check with
  | .ok t =>
    if s.reachable t then
      let w := (s.storeBy (fun _ => true) t.space t.addr k.len v).leaveFresh t k.len
      match t.leaf with
      | some f => if t.cached then w.modMem (fun m => { m with l1 := (s.dirty (coreOf s.cur) f t.space t.addr k.len).mem.l1 }) else w
      | none => w
    else s
  | _ => s

/-- Writes the low bytes of `v` into a part. -/
def State.writePart (s : State) (k : Part) (v : Nat) : State := (s.passPart k).putPart k v

/-- Writes `v` over the parts of an access. -/
def State.writeParts (s : State) : List Part → Nat → State
  | [], _ => s
  | k :: r, v => (s.writePart k (v % 2 ^ (8 * k.len))).writeParts r (v / 2 ^ (8 * k.len))

/-- Writes `v` over the parts of an atomic's update, whose place has been decided. -/
def State.putParts (s : State) : List Part → Nat → State
  | [], _ => s
  | k :: r, v => (s.putPart k (v % 2 ^ (8 * k.len))).putParts r (v / 2 ^ (8 * k.len))

/-- What an access does beside its data: A and D, locked lines, the uncorrectable errors it meets; only its event, where the peer
cannot be reached (R321, R358, R374). -/
def State.touchParts (s : State) (core : Nat) (write : Bool) : List Part → State
  | [] => s
  | k :: r =>
    match k.check with
    | .ok t =>
      (if s.reachable t then (s.touch core t write k.len).meetBad t.space t.addr k.len else s.peerEvent t.addr).touchParts core write r
    | _ => s.touchParts core write r

end Sys2Proof.Machine
end

