-- ==== Sys2Proof/Machine/Issue.lean ====
section
/-! DEFINITION. Issuing the slots of one bundle: what a slot asks for and does, the choice of trap (R74), the conditions that stall
(Table 4.2), the order of effect (R66), and what follows the bundle: the PC, the loop stack (R115), context time (R75), the
format shadow (R88), the weir (R125), points of pre-emption (R302). -/

namespace Sys2Proof.Machine

/-- Where the control slot sends the context after the bundle. -/
inductive Flow where
  | next
  | jump (pc : Nat)
  | halt
  | trap (cause code : Nat)
  | tret
  deriving DecidableEq, Repr

/-- What one slot asks for and does. `act` works on the evolving state; what the slot reads it has read from the state at the
start of the bundle (R66, step 1). -/
structure Sem where
  /-- place in the order of R66: 20 moves into ports, 30 triggers, 35 engine slots, 40 stores, 50 moves, 60 control -/
  phase : Nat
  cands : List Cand := []
  /-- names it writes (R67) -/
  names : List Nat := []
  /-- function unit and initiation interval (R78) -/
  unit : Option (Nat × Nat) := none
  /-- o registers a matrix slot post-increments (R169) -/
  oinc : List Nat := []
  tout : Option Nat := none
  tins : List Nat := []
  /-- landing-buffer entries (R81) -/
  entries : Nat := 0
  /-- engine queue it enters: true the matrix queue, false the copy queue (R85) -/
  queue : Option Bool := none
  /-- pages whose walks it waits for -/
  walks : List Nat := []
  /-- it reads a z slice that is not yet written (R79) -/
  stall : Bool := false
  /-- sources it reads as ports -/
  reads : List Nat := []
  /-- of a trigger: its trap conditions that do not depend on the values of its operands; the causes that those values decide; whether the
  value of O alone decides them -/
  firm : List Cand := []
  risk : List Nat := []
  riskO : Bool := false
  flow : Flow := .next
  /-- its bundle ends at a point of pre-emption (R116, R130) -/
  point : Bool := false
  /-- it is `ppt`, which acts as the header's bit does (R130) -/
  ppt : Bool := false
  /-- further context cycles its bundle takes (R51), from the context as the slots leave it -/
  extra : Ctx → Nat := fun _ => 0
  act : State → State
  /-- writes of the control slot that follow the bundle's loop effects (R122, R123) -/
  late : Ctx → Ctx := id

/-! ## The choice of trap (R74) -/

/-- A trap condition with its slot. -/
structure SlotCand where
  slot : Nat
  cand : Cand
  deriving DecidableEq, Repr

/-- Place of a cause in the order of R74. -/
def causeRank : Nat → Nat
  | 0x09 => 0
  | 0x02 => 1
  | 0x01 => 2
  | 0x03 => 3
  | 0x04 => 4
  | n => 5 + n

/-- The value tval takes (Table 3.18, Table 17.2). -/
def SlotCand.tval (k : SlotCand) : Nat :=
  match k.cand.tval with
  | .slot => k.slot
  | .name n => k.slot * 4096 + n
  | .val v => v

/-- Whether candidate `a` is reported before `b`: cause, slot code (R74), then the lower value, which the spec leaves open (DESIGN CHOICE,
notes/assumptions/24.md). -/
def SlotCand.before (a b : SlotCand) : Bool :=
  decide (causeRank a.cand.cause < causeRank b.cand.cause) ||
    (causeRank a.cand.cause == causeRank b.cand.cause &&
      (decide (a.slot < b.slot) || (a.slot == b.slot && decide (a.tval < b.tval))))

/-- R74: the candidate reported. -/
def chooseTrap : List SlotCand → Option SlotCand
  | [] => none
  | k :: r =>
    match chooseTrap r with
    | none => some k
    | some b => if b.before k then some b else some k

/-- R67: the first slot of a pair of slots that satisfies `p`. -/
def firstPair (p : Sem → Sem → Bool) : List (Nat × Sem) → Option Nat
  | [] => none
  | a :: r => if r.any (fun b => p a.2 b.2) then some a.1 else firstPair p r

/-- Two slots write one name. -/
def namesClash (a b : Sem) : Bool := a.names.any (fun n => b.names.contains n)
/-- A slot writes an o register that another post-increments. R67 names a move; an `sget` whose destination it is counts as one
(DESIGN CHOICE, notes/assumptions/58.md). -/
def oincClash (a b : Sem) : Bool :=
  a.oinc.any (fun n => b.names.contains (0x360 + n)) || b.oinc.any (fun n => a.names.contains (0x360 + n))
/-- Two triggers of one unit. -/
def unitClash (a b : Sem) : Bool :=
  match a.unit, b.unit with
  | some u, some v => u.1 == v.1
  | _, _ => false
/-- Two engine slots name one token out, or one waits for the token of the other. -/
def tokenClash (a b : Sem) : Bool :=
  (match a.tout, b.tout with | some t, some u => t == u | _, _ => false) ||
    (match a.tout with | some t => b.tins.contains t | none => false) ||
    (match b.tout with | some t => a.tins.contains t | none => false)

/-- The combinations of R67. -/
def bundleCands (l : List (Nat × Sem)) : List SlotCand :=
  ([firstPair namesClash l, firstPair oincClash l, firstPair unitClash l, firstPair tokenClash l].filterMap id ++
    l.filterMap (fun p => match p.2.tout with | some t => if p.2.tins.contains t then some p.1 else none | none => none)).map
    (fun k => ⟨k, illegalCombination⟩)

/-- R78: a re-trigger within the unit's own initiation interval. -/
def intervalCands (x : Ctx) (l : List (Nat × Sem)) : List SlotCand :=
  l.filterMap (fun p =>
    match p.2.unit with
    | some u => if x.seq.cyc < look 0 x.ports.busy u.1 then some ⟨p.1, scheduleViolation⟩ else none
    | none => none)

/-- Whether group mask `g` of context `c` names context `d` (R124, R125): both by their places in the job's map. -/
def gmNames (s : State) (c g d : Nat) : Bool :=
  let m := look (0, 0, 0) (s.ctx c).regs.gm g
  match (s.loaded (s.ctx d).sched.job).places[(s.ctx d).sched.place]? with
  | some p =>
    (s.ctx d).sched.job == (s.ctx c).sched.job && bitAt m.1 (4 * p.cluster + p.core) && bitAt m.2.1 p.die && m.2.2 == p.ctx
  | none => false

/-- The header's conditions (R59, R125). -/
def headerCands (s : State) (c : Nat) (h : Header) : List SlotCand :=
  (candIf (h.step && h.weir == 0) illegalCombination ++
    candIf (h.weir != 0 && !gmNames s c h.weir c) illegalCombination).map (fun k => ⟨0, k⟩)

/-- Every trap condition of a bundle. -/
def allCands (s : State) (c : Nat) (h : Header) (l : List (Nat × Sem)) : List SlotCand :=
  headerCands s c h ++ bundleCands l ++ intervalCands (s.ctx c) l ++
    l.flatMap (fun p => p.2.cands.map (fun k => ⟨p.1, k⟩))

/-! ## The conditions that stall (Table 4.2) -/

/-- Landing-buffer entries in use (R81). -/
def Ctx.entriesUsed (x : Ctx) : Nat := x.ports.flights.foldl (fun n f => n + f.landing.elim 0 (·.entries)) 0

/-- Whether a token's latest producer is still incomplete (R222). -/
def State.tokenBusy (s : State) (c t : Nat) : Bool :=
  let d := (s.ctx c).sched
  s.engines.any (fun e => e.2.mxq.any (fun r => r.iss.job == d.job && r.iss.place == d.place && r.o.tout == t) ||
    e.2.cpq.any (fun r => r.iss.job == d.job && r.iss.place == d.place && r.o.tout == t))

/-- Instructions of a queue that wait to start (R85). -/
def queuedMx (e : Engines) : Nat := (e.mxq.filter (fun r => r.iss.stage == .queued)).length
/-- Copies that wait to start. -/
def queuedCp (e : Engines) : Nat := (e.cpq.filter (fun r => r.iss.stage == .queued)).length

/-- Whether a slot meets a stall condition. -/
def slotStalls (s : State) (c : Nat) (m : Sem) : Bool :=
  m.stall ||
    (match m.unit with
      | some u => (let o := look (0, 0) (s.core (coreOf c)).units u.1; decide (s.clock < o.1) && o.2 != c)
      | none => false) ||
    (match m.queue with
      | some true => decide (16 ≤ queuedMx (s.eng (coreOf c)))
      | some false => decide (32 ≤ queuedCp (s.eng (coreOf c)))
      | none => false) ||
    (match m.tout with | some t => s.tokenBusy c t | none => false)

/-- Whether a bundle stalls (R58, R81). -/
def bundleStalls (s : State) (c : Nat) (l : List (Nat × Sem)) : Bool :=
  l.any (fun p => slotStalls s c p.2) ||
    decide (16 < (s.ctx c).entriesUsed + l.foldl (fun n p => n + p.2.entries) 0 ∧ 0 < l.foldl (fun n p => n + p.2.entries) 0)

/-- Whether a slot takes ls.r as an operand, or as its O: as a source, or in an operand port that a move of the bundle fills from it. -/
def takesLs (l : List (Nat × Sem)) (m : Sem) : Bool :=
  let fills := fun (port : Nat) => m.unit.any (fun u => l.any (fun p => p.2.reads.contains 0x372 && p.2.names.contains (0x400 + 4 * u.1 + port)))
  if m.riskO then m.reads.getD 1 0 == 0x372 || (m.reads.getD 1 0 == 0xFFF && fills 0)
  else m.reads.contains 0x372 || fills 0 || fills 1

/-- The causes of a slot that the value decides which ls.r still lacks. -/
def Sem.open_ (l : List (Nat × Sem)) (m : Sem) : List Nat := if takesLs l m then m.risk else []

/-- A slot as far as it is known while ls.r lacks a value that is due. -/
def Sem.known (l : List (Nat × Sem)) (m : Sem) : Sem := if m.open_ l = [] then m else { m with cands := m.firm, walks := [] }

/-- What becomes of a bundle that would issue now. -/
inductive Attempt where
  | trap (cause tval : Nat)
  /-- it stalls, waiting for the walks of pages -/
  | stall (walks : List Nat)
  | go
  deriving DecidableEq, Repr

/-- Whether a trap that is known comes before one of the given cause in a slot (R74). -/
def SlotCand.over (k : SlotCand) (cause slot : Nat) : Bool :=
  decide (causeRank k.cand.cause < causeRank cause) || (causeRank k.cand.cause == causeRank cause && decide (k.slot ≤ slot))

/-- Whether a trap that is known is the one to report whatever the slots that still lack the value of ls.r come to (R74). -/
def SlotCand.first (k : SlotCand) (l : List (Nat × Sem)) : Bool := l.all (fun p => (p.2.open_ l).all (fun c => k.over c p.1))

/-- The same of the walks that the slots wait for: a walk can end in a translation fault at an address of its page, or in a later cause. -/
def SlotCand.beforeWalks (k : SlotCand) (l : List (Nat × Sem)) : Bool :=
  l.all (fun p => p.2.walks.all (fun w => k.over 0x0A p.1 && (k.cand.cause != 0x0A || k.slot != p.1 || decide (k.tval / 65536 ≤ w))))

/-- R74 and Table 4.2 together: a bundle traps as soon as the cause to report is known, a walk or data of a landing access being
waited for only where they decide it; else it stalls, or issues. -/
def attemptSlots (s : State) (c : Nat) (h : Header) (l : List (Nat × Sem)) : Attempt :=
  let late := (s.ctx c).missing (s.ctx c).seq.cyc
  let m := if late then l.map (fun p => (p.1, p.2.known l)) else l
  let walks := m.flatMap (fun p => p.2.walks)
  match chooseTrap (allCands s c h m) with
  | some k =>
    if (!late || k.first l) && k.beforeWalks m then .trap k.cand.cause k.tval
    else .stall walks
  | none => if late || !walks.isEmpty || bundleStalls s c l then .stall walks else .go

/-! ## Performing the slots -/

/-- The slots' effects in the order of R66; `n` bounds the phases. -/
def runPhases (l : List (Nat × Sem)) (s : State) : State :=
  [20, 30, 35, 40, 50, 60].foldl (fun t ph =>
    l.foldl (fun u p => if p.2.phase = ph then p.2.act u else u) t) s

/-- R78: the units a bundle triggers are held for their intervals, in the context's cycles and in the device's. -/
def holdUnits (s : State) (c : Nat) (l : List (Nat × Sem)) : State :=
  l.foldl (fun t p =>
    match p.2.unit with
    | some u =>
      (t.modCtx c (fun x => { x with ports := { x.ports with busy := put x.ports.busy u.1 (x.seq.cyc + u.2) } })).modCore
        (coreOf c) (fun k => { k with units := put k.units u.1 (s.clock + u.2, c) })
    | none => t) s

/-- The control slot's flow: the first slot that does not just go on. -/
def flowOf (l : List (Nat × Sem)) : Flow :=
  match l.find? (fun p => p.2.flow != .next) with
  | some p => p.2.flow
  | none => .next

/-! ## The end of a loop body (R115, R116) -/

/-- R115: a bundle that takes no branch and whose fall-through is the innermost exit loops back, or pops: the context, the next
PC, and whether an iteration boundary occurred. -/
def Ctx.closeLoop (x : Ctx) (fall : Nat) : Ctx × Nat × Bool :=
  let l := x.loopAt 0
  if x.loopBase < x.seq.ldepth ∧ l.exit = fall then
    if l.index + 1 < l.count then
      ({ x with seq := { x.seq with loops := { l with index := l.index + 1 } :: x.seq.loops.drop 1 } }, l.start, true)
    else (x.popLoop, l.exit, true)
  else (x, fall, false)

/-! ## The format shadow (R88) -/

/-- A bundle has issued: every shadow is one bundle shorter. -/
def Formats.tickShadow (f : Formats) : Formats := { f with shadow := f.shadow.map (fun w => (w.1, w.2.1, w.2.2 - 1)) }

/-- A format write takes effect (R49, R50, R121, R178). -/
def Formats.applyWrite (f : Formats) (reg v : Nat) : Formats :=
  match reg with
  | 0 => { f with mfmt := v % 2048 }
  | 1 =>
    let st := if v / 2 ^ 32 % 2 ^ 32 = 0 then 1 else v / 2 ^ 32 % 2 ^ 32
    let rnd := if fld v 4 3 < 5 then fld v 4 3 else fld f.cvtctl 4 3
    { f with cvtctl := st * 2 ^ 32 + fld v 7 1 * 128 + rnd * 16 }
  | _ => { f with fpctl := v % 64 }

/-- Applies the writes whose shadow has ended, in the order in which they were made. -/
def Formats.endShadow (f : Formats) : Formats :=
  let g := (f.shadow.filter (fun w => w.2.2 == 0)).foldl (fun h w => h.applyWrite w.1 w.2.1) f
  { g with shadow := f.shadow.filter (fun w => w.2.2 != 0) }

/-- The values as they stand after every issued write, for pre-emption (R88, R305). -/
def Formats.flushed (f : Formats) : Formats :=
  let g := f.shadow.foldl (fun h w => h.applyWrite w.1 w.2.1) f
  { g with shadow := [] }

/-! ## The length of a bundle -/

/-- A target as one number: a place. -/
def Target.place (t : Target) : Nat := t.space.code * 2 ^ 60 + t.addr
/-- `n` bytes at a place. -/
def State.readPlace (s : State) (p n : Nat) : Nat := s.readN (Space.ofCode (p / 2 ^ 60)) (p % 2 ^ 60) n

/-- The key of a word in the index-word cache. -/
def Ctx.wordKey (x : Ctx) (w : Nat) : Nat := x.sched.asid * 2 ^ 55 + x.seq.base + 2 * w

/-- Word `w` as the index-word cache holds it, with its place: one whose memory has changed since is read as either (R105). -/
def State.cachedWord (s : State) (e : IndexWord) (w : Nat) : Nat :=
  let m := s.readPlace e.place 2
  if m = e.word ∨ bitAt (s.free (8000 + w % 32)) 0 then e.word else m

/-- Word `w` of the context's segment as the index-word cache or memory holds it; 0 where it does not translate. -/
def State.peekWord (s : State) (c w : Nat) : Nat :=
  let x := s.ctx c
  let va := x.seq.base + 2 * w
  match (s.core (coreOf c)).icache.find? (fun e => e.1 == x.wordKey w) with
  | some e => s.cachedWord e.2 w
  | none =>
    match walk s.mem.dram (s.rootOf x.sched.job) va with
    | some f => s.readPlace (leafTarget f va).place 2
    | none => 0

/-- Words of the bundle at `pc`: 25 for a literal, 1 otherwise (R53). -/
def State.bundleLen (s : State) (c pc : Nat) : Nat :=
  match (s.ctx c).seq.path with
  | some b => if pc = (s.ctx c).seq.pc then b.2 else if s.peekWord c pc = 0xFFFF then 25 else 1
  | none => if s.peekWord c pc = 0xFFFF then 25 else 1

/-- `lit` of Table 17.1 for the bundle at `pc`. -/
def State.litAt (s : State) (c pc : Nat) : Nat := if s.bundleLen c pc = 25 then 1 else 0

/-! ## After the bundle -/

/-- R131: an issue of context `c` ends the yields of contexts of its core whose priority is no higher. -/
def endYields (s : State) (c : Nat) : State :=
  (ctxsOf (coreOf c)).foldl (fun t d =>
    if d ≠ c ∧ t.prio d ≤ t.prio c ∧ (t.ctx d).sched.yieldAt.isSome then
      t.modCtx d (fun x => { x with sched := { x.sched with yieldAt := none } })
    else t) s

/-- The core has spent this cycle on context `c` (R86): the turn of its priority, the yields. -/
def spendCycle (s : State) (c : Nat) : State :=
  endYields (s.modCore (coreOf c) (fun k => { k with nextIssue := s.clock + 1, turn := put k.turn (s.prio c) c })) c

/-- The context is no longer stalled and waits afresh from the next cycle. -/
def Ctx.restart (x : Ctx) (clock : Nat) : Ctx :=
  { x with sched := { x.sched with stall := none, yielded := false, readySince := clock } }

/-- R304: at a point reached at TL0 with a request outstanding, issue stops and the context waits to be saved. -/
def Ctx.saveAtPoint (x : Ctx) : Ctx :=
  match x.sched.preempt with
  | some (_, d) => if x.seq.point ∧ x.level = 0 ∧ x.seq.wait.isNone then { x with seq := { x.seq with wait := some (.save d) } } else x
  | none => x

/-- Whether the boundary after the latest bundle is a point (R302), and what that brings; where the bundle began a wait, when it ends. -/
def Ctx.reachPoint (x : Ctx) (point : Bool) : Ctx := ({ x with seq := { x.seq with point := point } } : Ctx).saveAtPoint

/-- R125: the wait an arriving bundle begins, and the count of this arrival; beside a wait of its control slot, which it holds the next
bundle together with (R113; notes/assumptions/56.md). -/
def Ctx.arrive (x : Ctx) (h : Header) (ppt : Bool) : Ctx :=
  if h.weir = 0 then x
  else
    let w := some (Wait.weir h.weir (look 0 x.sched.arrivals h.weir + 1) h.step ppt false)
    match x.seq.wait with
    | none => { x with seq := { x.seq with wait := w } }
    | some _ => { x with seq := { x.seq with behind := w } }

/-- R170: the stationary operand goes with the halt of its context, once no `mstep.ws` of it is left to complete. -/
def dropStationary (s : State) (c : Nat) : State :=
  let e := s.eng (coreOf c)
  if (s.ctx c).seq.run = .halted ∧ e.stat.any (fun t => t.ctx == c) ∧ !e.mxq.any (fun r => r.iss.ctx == c && r.op == 4) then
    s.modEng (coreOf c) (fun e => { e with stat := none })
  else s

/-- The context after a bundle, the end of its program and a trap after it apart: PC, loop stack, time, shadow, weir, point. -/
def finishCtx (x : Ctx) (clock len : Nat) (h : Header) (l : List (Nat × Sem)) : Ctx :=
  let flow := flowOf l
  let r : Ctx × Nat × Bool :=
    match flow with
    | .jump p => (x, p, false)
    | .tret => (x.returnTrap, x.returnTrap.seq.pc, false)
    | _ => x.closeLoop (x.seq.pc + len)
  let taken := match flow with | .jump _ => true | .tret => true | _ => false
  let extra := l.foldl (fun n p => n + p.2.extra x) 0
  let cost := 1 + extra + (if taken then 2 else 0)
  let y := l.foldl (fun z p => p.2.late z) r.1
  let y1 := { y with seq := { y.seq with pc := r.2.1, path := none, cyc := y.seq.cyc + cost, gap := if taken then 2 else 0, wake := clock + cost },
                     sched := { y.sched with faults := [] },
                     fmts := y.fmts.tickShadow }
  let ppt := h.ppt || l.any (fun p => p.2.ppt)
  ((y1.restart (clock + 1 + extra)).arrive h ppt).reachPoint (r.2.2 || ppt || l.any (fun p => p.2.point))

/-- What follows the bundle in its context; then a trap taken after it, or the end of the context. -/
def finishBundle (s : State) (c len : Nat) (h : Header) (l : List (Nat × Sem)) : State :=
  let y := finishCtx (s.ctx c) s.clock len h l
  let s1 := spendCycle (s.setCtx c y) c
  match flowOf l with
  | .halt => dropStationary (s1.stopCtx c .halted) c
  | .trap cause code =>
    if y.seq.wait.isSome then s1.modCtx c (fun z => { z with seq := { z.seq with pend := some ⟨cause, code⟩ } })
    else takeTrap s1 c cause code y.seq.pc (s1.litAt c y.seq.pc)
  | _ => s1

/-- R83: the stall of context `c` begins, under the slack of its header's class, and the walks it waits for start. -/
def beginStall (s : State) (c : Nat) (h : Header) (walks : List Nat) : State :=
  let x := s.ctx c
  let slack := if h.slack = 0 then 0 else look 0 x.regs.lnd (16 + h.slack)
  let s1 :=
    match x.sched.stall with
    | some _ => s
    | none => s.setCtx c { x with sched := { x.sched with stall := some (s.clock, slack), yielded := slack == 0 } }
  s1.askWalks (coreOf c) (walks.map (fun p => Fetch.walk x.sched.asid (s.rootOf x.sched.job) p))

/-- A bundle of context `c` traps at issue: it has no effect, and the exception is taken with epc its own address (R58, R293). It uses
the core's cycle and the turn of its priority as a bundle that issues does (DESIGN CHOICE, notes/assumptions/57.md). -/
def trapBundle (s : State) (c cause tval lit : Nat) : State :=
  let s1 := spendCycle (s.modCtx c (fun x => { x.restart (s.clock + 1) with
    sched := { (x.restart (s.clock + 1)).sched with faults := [] }, seq := { x.seq with path := none } })) c
  takeTrap s1 c cause tval (s.ctx c).seq.pc lit

/-- Issues the slots of one bundle of context `c` whose address takes `len` words: the trap chosen, a stall, or every effect. -/
def issueSlots (s : State) (c len : Nat) (h : Header) (l : List (Nat × Sem)) : State :=
  match attemptSlots s c h l with
  | .trap cause tval => trapBundle s c cause tval (if len = 25 then 1 else 0)
  | .stall walks => beginStall s c h walks
  | .go => (finishBundle (holdUnits (runPhases l s) c l) c len h l).draw

/-- The format writes whose shadow has ended take effect (R88). -/
def Ctx.endShadow (x : Ctx) : Ctx := { x with fmts := x.fmts.endShadow }

/-- The state a bundle starts in: format shadows that have ended, and what is due by the context's present cycle landed. -/
def State.settled (s : State) (c : Nat) : State := (s.modCtx c Ctx.endShadow).modCtx c (fun x => x.settle (s.landDraw c))

/-- The state whose latches hold what the moves into operand ports of this bundle write (R66, step 2). -/
def latchState (l : List (Nat × Sem)) (s : State) : State := l.foldl (fun u p => if p.2.phase = 20 then p.2.act u else u) s

/-- The semantics of slots: triggers see the latches that the bundle's own moves leave (R66). -/
def semsOf (l : List (Nat × (State → State → Sem))) (s : State) : List (Nat × Sem) :=
  let latched := latchState (l.map (fun p => (p.1, p.2 s s))) s
  l.map (fun p => (p.1, p.2 s latched))

/-- A bundle of the current context that holds one slot alone, of slot code `k`. -/
def issueOne (k : Nat) (sem : State → State → Sem) (s : State) : Host.Outcome State Fault Refusal :=
  let c := s.cur
  if (s.ctx c).resident then
    let t := s.settled c
    .next (issueSlots t c (t.bundleLen c (t.ctx c).seq.pc) Header.none (semsOf [(k, sem)] t))
  else .fault .noContext

end Sys2Proof.Machine
end

