-- ==== Sys2Proof/Machine/Index.lean ====
section
/-! DEFINITION. Looking up the bundle at a context's PC (R52 to R57, R105): index words in the index-word cache, bundles in the dictionary
store; what an invalidation leaves in the fetch path (R57), and the maintenance that invalidates (R132). -/

namespace Sys2Proof.Machine

/-! ## Index words -/

/-- The leaf under which core `k` fetches from `va` for job `j`: it must be mapped with X (R55). -/
def State.fetchLeaf (s : State) (k j va : Nat) : Option Leaf := (s.coreLeaf k j va).filter (fun f => bitAt f.pte 4)

/-- A word of the segment as the fetch finds it. -/
inductive WordFetch where
  | word (v : Nat)
  | miss
  | bad
  deriving DecidableEq, Repr

/-- Whether word `w` lies in an index-stream section of the context's job, below the limit (R55, R94). -/
def State.inSegment (s : State) (x : Ctx) (w : Nat) : Bool :=
  let va := x.seq.base + 2 * w
  decide (w < x.seq.limit) && (s.loaded x.sched.job).sections.any (fun r => decide (r.1 ≤ va ∧ va + 2 ≤ r.1 + r.2))

/-- Word `w` through the index-word cache: a word whose memory has changed since is read as either (R105). -/
def State.fetchWord (s : State) (c w : Nat) : WordFetch :=
  let x := s.ctx c
  if s.inSegment x w then
    match (s.core (coreOf c)).icache.find? (fun e => e.1 == x.wordKey w) with
    | some e => .word (s.cachedWord e.2 w)
    | none => .miss
  else .bad

/-- What a fetch of a bundle finds. -/
inductive Fetched where
  | trap (cause tval lit : Nat)
  /-- index words that the cache lacks -/
  | words
  /-- a dictionary entry that is invalid -/
  | refill (entry : Nat)
  /-- the 384 bits, and the words of the stream they took -/
  | bundle (b len : Nat)
  deriving DecidableEq, Repr

/-- The words of a literal from word `w` on. -/
def State.fetchLiteral (s : State) (c w : Nat) : Nat → List Nat → Fetched
  | 0, l => .bundle (ofWords16 l.reverse) 25
  | n + 1, l =>
    match s.fetchWord c w with
    | .bad => .trap 0x09 w 1
    | .miss => .words
    | .word v => s.fetchLiteral c (w + 1) n (v :: l)

/-- The place of word `i` of a dictionary entry. -/
def DictEntry.wordPlace (e : DictEntry) (i : Nat) : Nat :=
  if e.va % 65536 + 2 * i < 65536 then e.pa + 2 * i else e.pb + (e.va + 2 * i - (e.va / 65536 + 1) * 65536)

/-- The contents of a valid entry: a word whose memory has changed since the entry was filled is read as either (R57, R105). -/
def State.entryBits (s : State) (e : DictEntry) : Nat :=
  ofWords16 ((List.range 24).map (fun i =>
    let old := fld e.bundle (16 * i) 16
    let new := s.readPlace (e.wordPlace i) 2
    if new = old ∨ bitAt (s.free (8100 + i)) 0 then old else new))

/-- The bundle of dictionary entry `n` for context `c`, selected by index word `w`. -/
def State.fetchEntry (s : State) (c n w : Nat) : Fetched :=
  match (s.core (coreOf c)).dict.find? (fun e => e.1 == n) with
  | some e =>
    if e.2.job ≠ (s.ctx c).sched.job then .trap 0x02 w 0
    else if !e.2.valid then .refill n
    else .bundle (s.entryBits e.2) 1
  | none => .trap 0x02 w 0

/-- The fetch of the bundle at the context's PC: the one in the fetch path since before an invalidation (R57), or what the caches give. -/
def State.fetch (s : State) (c : Nat) : Fetched :=
  let x := s.ctx c
  match x.seq.path with
  | some b => .bundle b.1 b.2
  | none =>
    match s.fetchWord c x.seq.pc with
    | .bad => .trap 0x09 x.seq.pc 0
    | .miss => .words
    | .word v =>
      match decodeIndex x.win.dsize v with
      | .illegal => .trap 0x02 v 0
      | .entry i => s.fetchEntry c (x.win.dbase + i) v
      | .escape => s.fetchLiteral c (x.seq.pc + 1) 24 []


/-! ## Invalidation (R57, R132) -/

/-- R57: before what context `c` would fetch on core `k` is invalidated, its bundle may be in the fetch path, by a free value: it then
issues with its old contents. -/
def State.holdPath (s : State) (c : Nat) : State :=
  match s.fetch c with
  | .bundle b n => if (s.ctx c).resident ∧ bitAt (s.free 5420) (c % 4) then s.modCtx c (fun x => { x with seq := { x.seq with path := some (b, n) } }) else s
  | _ => s

/-- The same for the contexts of core `k`. -/
def State.holdPaths (s : State) (k : Nat) : State := (ctxsOf k).foldl State.holdPath s

/-- The fetch path of core `k` is discarded: its next bundles are fetched again (R132). -/
def State.dropPaths (s : State) (k : Nat) : State :=
  (ctxsOf k).foldl (fun t c => if (t.ctx c).seq.path.isSome then t.modCtx c (fun x => { x with seq := { x.seq with path := none } }) else t) s

/-- An `iinv` performs: every dictionary entry and every index word of core `k` whose recorded address it covers. -/
def performIinv (s : State) (k : Nat) (m : Maint) : State :=
  (s.holdPaths k).modCore k (fun c => { c with
    dict := c.dict.map (fun e => if m.covers s k e.2.va then (e.1, { e.2 with valid := false }) else e)
    icache := c.icache.filter (fun e => !m.covers s k (e.1 % 2 ^ 55)) })

/-- A maintenance operation performs on core `k`. -/
def performMaint (s : State) (k : Nat) (m : Maint) : State := if m.inv then performIinv s k m else cleanLines s k m

/-- The maintenance operations that satisfy `p` perform, on every core. -/
def State.performMaints (s : State) (p : Maint → Bool) : State := s.cores.foldl (fun t c => t.performOn performMaint p c.1) s

end Sys2Proof.Machine
end

