-- ==== Sys2Proof/Machine/Trigger.lean ====
section
/-! DEFINITION. What every trigger of a function unit does: it reads T and O, latches O, holds its unit, and sends its result
toward the result port (R60, R61, R76 to R78). -/

namespace Sys2Proof.Machine

/-- The context that issues. -/
def State.me (s : State) : Ctx := s.ctx s.cur

/-! ## Bytes that have been written and not ordered, and acquires (R175, R187; notes/assumptions/59.md) -/

/-- Removes, of the entries in the ways of context `c`, those that an order of the context has come to. -/
def State.orderFresh (s : State) (c : Nat) (p : Fresh → Bool) : State :=
  let q := fun (f : Fresh) => bitAt (s.ctx c).win.ways f.way && p f
  if (s.core (coreOf c)).fresh.any q then s.modCore (coreOf c) (fun k => { k with fresh := k.fresh.filter (fun f => !q f) }) else s

/-- Whether an entry is of the owner of `i`. -/
def Fresh.ofOwner (f : Fresh) (job place : Nat) : Bool := f.job == job && f.place == place

/-- An acquire of context `c` orders what others have written to its ways, and its own writes that a counter tells of. -/
def State.acquireOf (s : State) (c : Nat) : State :=
  let x := s.ctx c
  s.orderFresh c (fun f => !f.ofOwner x.sched.job x.sched.place || f.counter != 0)
/-- An acquire of the current context. -/
def State.acquire (s : State) : State := s.acquireOf s.cur

/-! ## Triggers -/

/-- The operand of a trigger: the named source, or the latch as the moves of the same bundle leave it (R60, R66). -/
def operand (s l : State) (fu name : Nat) (w : Want) : PVal :=
  if name = 0xFFF then l.me.latch fu 0 else s.readName s.cur name w

/-- Operand port 2 as the moves of the same bundle leave it. -/
def operand2 (l : State) (fu : Nat) : PVal := l.me.latch fu 1

/-- The trap conditions of a trigger's two sources. -/
def portCands (s : State) (tn on : Nat) (wt wo : Want) : List Cand :=
  s.sourceCands s.cur tn wt ++ (if on = 0xFFF then [] else s.sourceCands s.cur on wo)

/-- Whether reading the sources stalls (R79). -/
def portStalls (s : State) (tn on : Nat) : Bool := s.sourceStalls s.cur tn || (on != 0xFFF && s.sourceStalls s.cur on)

/-- The names a trigger writes: its operand port, unless it takes the latched operand (R61, R67). -/
def trigNames (fu on : Nat) : List Nat := if on = 0xFFF then [] else [0x400 + 4 * fu]

/-- Writes the latch of port o (R61). -/
def latchOperand (fu on : Nat) (v : PVal) (s : State) : State :=
  if on = 0xFFF then s else s.modCtx s.cur (fun x => x.setLatch fu 0 (portHolds fu v))

/-- A result on its way to a port (R77): a vector unit's kind is set at the trigger (R63). -/
def Ctx.send (x : Ctx) (fu bound ii : Nat) (v : Option PVal) (mask : Option Tile) (flags : Nat) (en : Nat)
    (cond : Option (Nat × Bool)) (fp : Bool) : Ctx :=
  let f : Flight := ⟨fu, bound, x.level, x.seq.cyc + bound - ii + 1, x.seq.cyc + bound, v, mask, flags, en, cond, x.seq.pc, none⟩
  let pairs : BitVec 8 :=
    match v with
    | some p => if 3 ≤ fu then (if p.kind = .pair then x.ports.pairs ||| BitVec.ofNat 8 (2 ^ fu)
                                else x.ports.pairs &&& ~~~(BitVec.ofNat 8 (2 ^ fu))) else x.ports.pairs
    | none => x.ports.pairs
  { x with ports := { x.ports with flights := x.ports.flights ++ [f], pairs := pairs,
                                   flagDue := if fp then max x.ports.flagDue (x.seq.cyc + bound) else x.ports.flagDue } }

/-- A trigger's meaning from its unit, interval, sources and the result it sends. -/
def trigSem (s l : State) (fu ii tn on : Nat) (wt wo : Want) (cands : List Cand) (send : Ctx → Ctx) : Sem where
  phase := 30
  cands := portCands s tn on wt wo ++ cands
  firm := portCands s tn on wt wo
  names := trigNames fu on
  unit := some (fu, ii)
  stall := portStalls s tn on
  reads := [tn, on]
  act := fun e => (latchOperand fu on (operand s l fu on wo) e).modCtx s.cur send

end Sys2Proof.Machine
end

