-- ==== Sys2Proof/Machine/Address.lean ====
section
/-! DEFINITION. The address unit ag (R112, Table 6.2): one definition per operation. -/

namespace Sys2Proof.Machine

/-- T and O of an ag trigger. -/
def agT (o : AgOps) (s : State) : Nat := (s.readName s.cur o.t .scalar).asScalar
/-- The value at ag's operand port. -/
def agO (o : AgOps) (s l : State) : Nat := (operand s l 1 o.o .scalar).asScalar

/-- An ag operation: bound 2, interval 1, a result that wraps at 64 bits. -/
def agSem (o : AgOps) (cands : List Cand) (val : Nat) (s l : State) : Sem :=
  trigSem s l 1 1 o.t o.o .scalar .scalar cands (fun x => x.send 1 2 1 (some (PVal.scal val)) none 0 0 none false)

/-- The index i_n as ag reads it: zero at or beyond the depth (R115). -/
def Ctx.loopIndex (x : Ctx) (n : Nat) : Nat := if n < x.seq.ldepth then (x.loopAt n).index else 0

def agLeaSem (o : AgOps) (s l : State) : Sem := agSem o [] (agT o s + agO o s l * 2 ^ o.sub) s l
def agAffSem (o : AgOps) (s l : State) : Sem :=
  agSem o (candIf (decide (6 ≤ o.sub)) illegalCombination) (agT o s + s.me.loopIndex o.sub * agO o s l) s l
def agBoundSem (o : AgOps) (s l : State) : Sem :=
  { agSem o (candIf (decide (agO o s l ≤ agT o s)) ⟨0x10, .val (agT o s)⟩) (agT o s) s l with risk := [0x10] }
def agSpaSem (o : AgOps) (s l : State) : Sem := agSem o [] (2 ^ 26 + agT o s % 4 * 2 ^ 24 + agO o s l % 2 ^ 24) s l
def agGvaSem (o : AgOps) (s l : State) : Sem :=
  agSem o [] ((operand2 l 1).asScalar + agT o s % 2 ^ 12 * 2 ^ 40 + agO o s l % 2 ^ 40) s l
def agAddsSem (o : AgOps) (s l : State) : Sem := agSem o [] (agT o s + agO o s l) s l

/-! ## The rows -/

/-- AG_LEA: T plus O shifted left by 0-7. -/
def execAgLea (o : AgOps) (s : State) : Host.Outcome State Fault Refusal :=
  issueOne 4 (agLeaSem o) s
/-- AG_AFF: T plus a loop index times O. -/
def execAgAff (o : AgOps) (s : State) : Host.Outcome State Fault Refusal :=
  issueOne 4 (agAffSem o) s
/-- AG_BOUND: Passes T when below O unsigned, otherwise traps with cause bound. -/
def execAgBound (o : AgOps) (s : State) : Host.Outcome State Fault Refusal :=
  issueOne 4 (agBoundSem o) s
/-- AG_SPA: Forms a cluster scratchpad address. -/
def execAgSpa (o : AgOps) (s : State) : Host.Outcome State Fault Refusal :=
  issueOne 4 (agSpaSem o) s
/-- AG_GVA: Forms a peer global address from the window base in o2. -/
def execAgGva (o : AgOps) (s : State) : Host.Outcome State Fault Refusal :=
  issueOne 4 (agGvaSem o) s
/-- AG_ADDS: T plus O. -/
def execAgAdds (o : AgOps) (s : State) : Host.Outcome State Fault Refusal :=
  issueOne 4 (agAddsSem o) s

end Sys2Proof.Machine
end

