-- ==== Sys2Proof/Machine/System.lean ====
section
/-! DEFINITION. The system registers (R122, R123, Table 6.5): reading them, and the writes `sset` makes. -/

namespace Sys2Proof.Machine

/-- Region `r`. -/
def State.region (s : State) (r : Nat) : Region := look Region.reset s.miller.regions r

/-- nreg as it reads (Table 11.2). -/
def State.nregWord (s : State) (c : Nat) : Nat :=
  let r := (s.ctx c).win.nreg
  let g := s.region r
  if g.inst then r + 16 + 2 ^ 40 * g.hwidth else r

/-- coreid (Table 1.4). -/
def coreidWord (c : Nat) : Nat := coreOf c + 512 * (c % 4)

/-- dieid (Table 19.5). -/
def dieidWord (c : Nat) : Nat := dieOf (coreOf c) + 256 * (Config.stepping 0 % 256) + 65536

/-- role (Table 19.6). -/
def State.roleWord (s : State) : Nat := s.boot.cmask + 16 * s.boot.prof + (if s.boot.chg.isSome then 256 else 0)

/-- The value of a system register other than fpstat; none for a number Table 6.5 does not list. -/
def State.sysRead (s : State) (c n : Nat) : Option Nat :=
  let x := s.ctx c
  let t := x.traps
  match n with
  | 0x000 => some x.fmts.mfmt
  | 0x001 => some x.fmts.cvtctl
  | 0x002 => some x.fmts.fpctl
  | 0x003 => some x.fmts.fpstat
  | 0x010 => some (x.win.vbase + 65536 * x.win.vcount)
  | 0x011 => some (x.win.dbase + 2 ^ 32 * x.win.dsize)
  | 0x012 => some (x.win.ways + 2 ^ 16 * lockedMask s (coreOf c) + 2 ^ 32 * x.win.wb)
  | 0x013 => some t.predl
  | 0x020 => some t.tvec
  | 0x021 => some (t.level + 16 * t.base1 + 256 * t.base2)
  | 0x022 => some t.cause1
  | 0x023 => some t.cause2
  | 0x024 => some t.epc1
  | 0x025 => some t.epc2
  | 0x026 => some t.tval1
  | 0x027 => some t.tval2
  | 0x028 => some t.tsave
  | 0x030 => some x.win.efrec0
  | 0x031 => some x.win.efrec1
  | 0x032 => some x.win.efrec2
  | 0x033 => some x.win.efrec3
  | 0x038 => some (s.nregWord c)
  | 0x039 => some (x.win.hit + 2 ^ 20 * x.win.miss + 2 ^ 40 * x.win.inval)
  | 0x040 => some (coreidWord c)
  | 0x041 => some (dieidWord c)
  | 0x042 => some s.roleWord
  | 0x043 => some s.boot.ready
  | 0x044 => some x.seq.kcond.toNat
  | 0x045 => some x.seq.wstep
  | 0x08F => some x.seq.ldepth
  | n =>
    if 0x050 ≤ n ∧ n ≤ 0x057 then some (look 0 x.regs.lnd (n - 0x050))
    else if 0x061 ≤ n ∧ n ≤ 0x06F then some (look 0 x.regs.lnd (16 + (n - 0x060)))
    else if 0x080 ≤ n ∧ n ≤ 0x085 then some ((x.loopAt (n - 0x080)).index + 2 ^ 32 * (x.loopAt (n - 0x080)).count)
    else if 0x088 ≤ n ∧ n ≤ 0x08D then some ((x.loopAt (n - 0x088)).exit + 2 ^ 32 * (x.loopAt (n - 0x088)).start)
    else none

/-- Whether `sset` may never write a register (Table 6.5). -/
def sysReadOnly (n : Nat) : Bool :=
  n == 0x013 || n == 0x021 || decide (0x030 ≤ n ∧ n ≤ 0x033) || decide (0x040 ≤ n ∧ n ≤ 0x043) || n == 0x045 ||
    decide (0x061 ≤ n ∧ n ≤ 0x06F)

/-- The least trap level at which `sset` may write a register. -/
def sysLevel (n : Nat) : Nat :=
  if n = 0x022 ∨ n = 0x024 ∨ n = 0x026 then 1 else if n = 0x023 ∨ n = 0x025 ∨ n = 0x027 then 2 else 0

/-- The trap conditions of `sset` by its number alone (R122). -/
def State.sysCands (s : State) (c n : Nat) : List Cand :=
  match s.sysRead c n with
  | none => [illegalRegister n]
  | some _ => candIf (sysReadOnly n || decide ((s.ctx c).level < sysLevel n)) illegalCombination

/-- A format write enters its shadow: the bundle and the two after it use the old value (R88). -/
def Formats.write (f : Formats) (reg v : Nat) : Formats := { f with shadow := f.shadow ++ [(reg, v, 3)] }

/-- Changes one loop level. -/
def Ctx.modLoop (x : Ctx) (n : Nat) (f : Loop → Loop) : Ctx :=
  { x with seq := { x.seq with loops := x.seq.loops.set n (f (x.loopAt n)) } }

/-- The effect of `sset` on the registers that have no instruction of their own here: reserved bits are ignored (R6). -/
def Ctx.sysWrite (x : Ctx) (n v : Nat) : Ctx :=
  let t := x.traps
  match n with
  | 0x000 => { x with fmts := x.fmts.write 0 v }
  | 0x001 => { x with fmts := x.fmts.write 1 v }
  | 0x002 => { x with fmts := x.fmts.write 2 v }
  | 0x020 => { x with traps := { t with tvec := fld v 6 26 * 64 + v % 2 } }
  | 0x022 => { x with traps := { t with cause1 := v % 1024 } }
  | 0x023 => { x with traps := { t with cause2 := v % 1024 } }
  | 0x024 => { x with traps := { t with epc1 := v % 2 ^ 32 } }
  | 0x025 => { x with traps := { t with epc2 := v % 2 ^ 32 } }
  | 0x026 => { x with traps := { t with tval1 := v % 2 ^ 64 } }
  | 0x027 => { x with traps := { t with tval2 := v % 2 ^ 64 } }
  | 0x028 => { x with traps := { t with tsave := fld v 9 55 * 512 } }
  | 0x039 => { x with win := { x.win with hit := fld v 0 20, miss := fld v 20 20, inval := fld v 40 20 } }
  | 0x044 => { x with seq := { x.seq with kcond := BitVec.ofNat 16 v, kset := x.seq.cyc + 2 } }
  | n =>
    if 0x050 ≤ n ∧ n ≤ 0x057 then { x with regs := { x.regs with lnd := put x.regs.lnd (n - 0x050) (max 12 (v % 65536)) } }
    else x

/-- The effect of `sset` on a loop level, which follows the bundle's own loop effects (R123). -/
def Ctx.loopWrite (x : Ctx) (n v : Nat) : Ctx :=
  if 0x080 ≤ n ∧ n ≤ 0x085 then x.modLoop (n - 0x080) (fun l => { l with count := fld v 32 32, index := v % 2 ^ 32 })
  else if 0x088 ≤ n ∧ n ≤ 0x08D then x.modLoop (n - 0x088) (fun l => { l with start := fld v 32 32, exit := v % 2 ^ 32 })
  else x

end Sys2Proof.Machine
end

