-- ==== Sys2Proof/Machine/Control.lean ====
section
/-! DEFINITION. The control slot (R113 to R132, Table 6.3): one definition per instruction. It reads its sources at the start of
the bundle and takes effect after every other slot (R66). -/

namespace Sys2Proof.Machine

/-! ## Sources and destinations (R113) -/

/-- A control source as a scalar. -/
def ctlRead (s : State) (name : Nat) : Nat := (s.readName s.cur name .scalar).asScalar

/-- The trap conditions of a control source. -/
def ctlCands (s : State) (name : Nat) : List Cand :=
  if isControlSource name then s.sourceCands s.cur name .scalar else [illegalRegister name]

/-- The trap conditions of a control destination: an s, a or o register. -/
def ctlDest (name : Nat) : List Cand := candIf (!decide (0x300 ≤ name ∧ name < 0x370)) (illegalRegister name)

/-- A control slot that does `act` to its context after the bundle. -/
def ctlSem (s : State) (cands : List Cand) (act : Ctx → Ctx) : Sem :=
  { phase := 60, cands := cands, act := fun e => e.modCtx s.cur act }

/-- A control slot that begins a wait (R113). -/
def waitSem (s : State) (cands : List Cand) (w : Wait) : Sem :=
  ctlSem s cands (fun x => { x with seq := { x.seq with wait := some w } })

/-- Words of the bundle that issues. -/
def State.myLen (s : State) : Nat := s.bundleLen s.cur s.me.seq.pc

/-- Address of the next bundle in the stream. -/
def State.fallPc (s : State) : Nat := s.me.seq.pc + s.myLen

/-- A branch target: the bundle's address plus a signed 24-bit offset. -/
def State.target (s : State) (off : Nat) : Nat := wrapInt 32 (s.me.seq.pc + toSigned 24 off)

/-- A jump, writing the link in s62 when asked. -/
def jumpSem (s : State) (cands : List Cand) (pc : Nat) (link : Bool) : Sem :=
  { phase := 60
    cands := cands
    names := if link then [0x33E] else []
    flow := .jump pc
    act := fun e => if link then e.modCtx s.cur (fun x => x.setS 62 s.fallPc) else e }

/-! ## Branches and calls (R114) -/

/-- The slots that do nothing (R72). -/
def nopSem (_s _l : State) : Sem := { phase := 60, act := id }
def ctNopSem : State → State → Sem := nopSem
def mxNopSem : State → State → Sem := nopSem
def cpNopSem : State → State → Sem := nopSem

def brSem (off : Nat) (s _l : State) : Sem := jumpSem s [] (s.target off) false
def brkSem (off k : Nat) (sense : Bool) (s _l : State) : Sem :=
  if s.me.k k = sense then jumpSem s [] (s.target off) false else ctlSem s [] id
def callSem (off : Nat) (s _l : State) : Sem := jumpSem s [] (s.target off) true
def retSem (s _l : State) : Sem := jumpSem s [] (s.me.s 62 % 2 ^ 32) false
def jmpSem (src : Nat) (link : Bool) (s _l : State) : Sem := jumpSem s (ctlCands s src) (ctlRead s src % 2 ^ 32) link

/-! ## Hardware loops (R115, R116, R296) -/

/-- `trap(loop overflow)`: its value is ldepth. -/
def loopOverflow (s : State) : Cand := ⟨0x13, .val s.me.seq.ldepth⟩

def loopSem (cnt off : Nat) (imm : Bool) (s _l : State) : Sem :=
  let n := if imm then cnt else ctlRead s cnt % 2 ^ 32
  let src := if imm then [] else ctlCands s cnt
  let bad := candIf (decide (off ≤ s.myLen)) illegalCombination
  let exit := s.me.seq.pc + off
  if n = 0 then jumpSem s (src ++ bad) exit false
  else
    ctlSem s (src ++ bad ++ candIf (decide (6 ≤ s.me.seq.ldepth)) (loopOverflow s)) (fun x => x.pushLoop ⟨n, 0, s.fallPc, exit⟩)

def lbrkSem (n : Nat) (cond sense : Bool) (k : Nat) (s _l : State) : Sem :=
  let bad := candIf (decide (s.me.seq.ldepth < s.me.loopBase + n)) (loopOverflow s)
  if cond && s.me.k k != sense then ctlSem s bad id
  else
    { phase := 60
      cands := bad
      flow := .jump (s.me.loopAt (n - 1)).exit
      point := true
      act := fun e => e.modCtx s.cur (fun x => x.popLoops n) }

/-! ## Waits on engines and memory (R117 to R120) -/

def twaitSem (src : Nat) (soft : Bool) (s _l : State) : Sem := waitSem s (ctlCands s src) (.tokens (ctlRead s src) soft)

/-- `cwait`: the address is checked at issue as an 8-byte load. -/
def cwaitSem (a sreg : Nat) (_scope : Nat) (s _l : State) : Sem :=
  let addr := s.me.a a
  let ps := s.parts s.cur addr 8 .load
  let w := waitSem s (candIf (addr % 8 != 0) ⟨0x0C, .val addr⟩ ++ partCands ps) (.counter addr (s.me.s sreg))
  { w with walks := partWalks ps, act := fun e => (w.act e).touchParts (coreOf s.cur) false ps }

def ewaitSem (s _l : State) : Sem := waitSem s [] .engines

/-- `tokc`: clears the error bits of the named tokens whose producer has completed. -/
def tokcSem (src : Nat) (s _l : State) : Sem :=
  let m := ctlRead s src
  ctlSem s (ctlCands s src) (fun x =>
    (List.range 64).foldl (fun y t => if bitAt m t ∧ !s.tokenBusy s.cur t then y.setTok t (y.tokSet t) false else y) x)

/-- `fence`: the order of accesses, which perform in order here (notes/assumptions/11.md); a release performs the context's `cwb`, an acquire orders what
others have written to the core. -/
def fenceSem (kind _scope : Nat) (_s _l : State) : Sem :=
  { phase := 60
    act := fun e => (let u := if 2 ≤ kind then e.release else e; if kind % 2 = 1 then u.acquire else u) }
def drainSem (s _l : State) : Sem := waitSem s [] .drain
def xfenceSem (s _l : State) : Sem := waitSem s [] .xfence

/-! ## Format and system registers (R121 to R123) -/

def fmtwSem (reg src : Nat) (s _l : State) : Sem :=
  let v := ctlRead s src
  ctlSem s (ctlCands s src) (fun x => { x with fmts := x.fmts.write reg v })

/-- Writes a control destination. -/
def writeScalar (s : State) (dst v : Nat) : Sem :=
  { phase := 60, names := [dst], act := fun e => e.writeDest s.cur dst (PVal.scal v) }

def sgetSem (dst sys : Nat) (s _l : State) : Sem :=
  { writeScalar s dst ((s.sysRead s.cur sys).getD 0) with
    cands := ctlDest dst ++ candIf (s.sysRead s.cur sys).isNone (illegalRegister sys) }

/-- `sget` of fpstat (R51): the context's time runs on until every flag-raising operation has landed, at once when no landing
access, one of its own bundle among them, is still without its data by then, else by the events of those data. -/
def sgetFpstatSem (dst : Nat) (s _l : State) : Sem :=
  let d := s.me.ports.flagDue
  let t := s.me.seq.cyc
  { phase := 60
    names := [dst]
    cands := ctlDest dst
    extra := fun x => if x.seq.wait.isSome then 0 else d - t
    act := fun e =>
      if t < d ∧ e.me.missing d then e.modCtx s.cur (fun x => { x with seq := { x.seq with wait := some (.fpstat dst d) } })
      else
        let y := e.me.early (e.landDraw s.cur) t d
        let x := y.landUpTo d y.ports.flights.length
        (e.setCtx s.cur x).writeDest s.cur dst (PVal.scal x.fmts.fpstat) }

/-- `sset` of a register without an instruction of its own. -/
def ssetSem (src sys : Nat) (s _l : State) : Sem :=
  let v := ctlRead s src
  { ctlSem s (ctlCands s src ++ s.sysCands s.cur sys) (fun x => x.sysWrite sys v) with late := fun x => x.loopWrite sys v }

/-- `sset` of fpstat: a 1 clears a flag; a flag that lands with it stays set (R51). -/
def fpstatClearSem (src : Nat) (s _l : State) : Sem :=
  let v := ctlRead s src
  ctlSem s (ctlCands s src) (fun x => { x with fmts := { x.fmts with fpstat := x.fmts.fpstat &&& notBits 5 v } })

/-- The ways that a context is about to take by a `split` still to convert: they count as its own (R199; notes/assumptions/31.md). -/
def Ctx.incomingWays (x : Ctx) : Nat :=
  match x.seq.wait with
  | some (.split new) => if x.bound then new &&& notBits 16 x.win.ways else 0
  | _ => 0

/-- The ways that contexts of core `k` other than `c` are about to take. -/
def splitComing (s : State) (k c : Nat) : Nat := (ctxsOf k).foldl (fun m d => if d = c then m else m ||| (s.ctx d).incomingWays) 0

/-- Ways of core `k` owned by contexts other than `c`, that of a pre-empted job with the same number among them (R307), or released, as a
mask. -/
def otherWays (s : State) (k c : Nat) : Nat :=
  (List.range 16).foldl (fun m w =>
    match s.way k w with
    | .cache => m
    | .owned j d => if d = c ∧ j = (s.ctx c).sched.job then m else m + 2 ^ w
    | .released _ _ => m + 2 ^ w) 0 ||| splitComing s k c

/-- `sset` of split (R199): the conversion ends by SPLIT_CONVERT. -/
def ssetSplitSem (src : Nat) (s _l : State) : Sem :=
  let new := ctlRead s src % 65536
  let k := coreOf s.cur
  let busy := new &&& notBits 16 s.me.win.ways &&& lockedMask s k
  waitSem s (ctlCands s src ++ candIf (new &&& otherWays s k s.cur != 0) illegalCombination ++ candIf (busy != 0) ⟨0x08, .val busy⟩)
    (.split new)

/-- `sset` of dict (R56). -/
def ssetDictSem (src : Nat) (s _l : State) : Sem :=
  let v := ctlRead s src
  let size := fld v 32 15
  let base := fld v 0 14
  ctlSem s (ctlCands s src ++ candIf (decide (16384 < size ∨ 16384 < base + size)) illegalCombination)
    (fun x => { x with win := { x.win with dbase := base, dsize := size } })

/-- Whether the windows [a, a + n) and [b, b + m) share a tile. -/
def windowsMeet (a n b m : Nat) : Bool := overlap a n b m && decide (0 < n) && decide (0 < m)

/-- `sset` of vwin (R133). -/
def ssetVwinSem (src : Nat) (s _l : State) : Sem :=
  let v := ctlRead s src
  let base := fld v 0 10
  let count := fld v 16 10
  let clash := (ctxsOf (coreOf s.cur)).any (fun d =>
    d != s.cur && (s.ctx d).bound && windowsMeet base count (s.ctx d).win.vbase (s.ctx d).win.vcount)
  ctlSem s (ctlCands s src ++
      candIf (base % 16 != 0 || count % 16 != 0 || decide (768 < base + count) || clash) illegalCombination)
    (fun x => { x with win := { x.win with vbase := base, vcount := count } })

/-- `sset` of nreg (R241). -/
def ssetNregSem (src : Nat) (s _l : State) : Sem :=
  let r := ctlRead s src % 16
  let mask := (s.job s.me.sched.job).elim 0 (·.rmask)
  ctlSem s (ctlCands s src ++ candIf (!bitAt mask r || !(s.region r).inst) illegalCombination)
    (fun x => { x with win := { x.win with nreg := r } })

/-- `sset` of ldepth (R123, R296): it follows the bundle's own loop effects. -/
def ssetLdepthSem (src : Nat) (s _l : State) : Sem :=
  let v := ctlRead s src
  { ctlSem s (ctlCands s src ++ candIf (decide (7 ≤ v ∨ v < s.me.loopBase)) illegalCombination) id with
    late := fun x => { x with seq := { x.seq with ldepth := v } } }

/-! ## Group masks (R124) -/

/-- Whether a group mask names a place that its job's placement map lacks. -/
def maskOutside (places : List Place) (core die ctx : Nat) : Bool :=
  (List.range 4).any (fun d => bitAt die d && (List.range 128).any (fun b => bitAt core b &&
    !places.any (fun p => p.die == d && p.cluster == b / 4 && p.core == b % 4 && p.ctx == ctx)))

def gmsetSem (g n : Nat) (s _l : State) : Sem :=
  let core := s.me.s n + 2 ^ 64 * s.me.s (n + 1)
  let die := s.me.s (n + 2) % 16
  let ctx := fld (s.me.s (n + 2)) 4 2
  ctlSem s (candIf (maskOutside (s.loaded s.me.sched.job).places core die ctx) illegalCombination)
    (fun x => { x with regs := { x.regs with gm := put x.regs.gm g (core, die, ctx) } })

/-! ## Ways, jobs and the Miller (R127 to R129) -/

def bacqSem (mask : Nat) (s _l : State) : Sem := waitSem s [] (.ways mask)

/-- `brel`: releases each named way that the context owns; the corrections with a range in it go. -/
def brelSem (mask : Nat) (s _l : State) : Sem :=
  let k := coreOf s.cur
  let own := mask &&& s.me.win.ways
  { phase := 60
    act := fun e =>
      forWays (fun t w => (invalWay t k w).setWay k w (.released s.me.sched.job s.cur)) own 16 0
        (e.modCtx s.cur (fun x => { x with win := { x.win with ways := x.win.ways &&& notBits 16 own } })) }

/-- Queue `q`. -/
def State.queue (s : State) (q : Nat) : Queue := look Queue.reset s.miller.queues q
/-- Changes queue `q`. -/
def State.modQueue (s : State) (q : Nat) (f : Queue → Queue) : State :=
  { s with miller := { s.miller with queues := put s.miller.queues q (f (s.queue q)) } }

/-- Slots of a queue's ring. -/
def Queue.slots (q : Queue) : Nat := 2 ^ max 2 (q.qcfg % 16)
/-- Memory and address of a queue's ring and of its index line (Table 20.2). -/
def Queue.ringSpace (q : Queue) : Space := if bitAt q.qbase 63 then .host else .dram
def Queue.ring (q : Queue) : Nat := fld q.qbase 6 46 * 64
def Queue.lineSpace (q : Queue) : Space := if bitAt q.qidx 63 then .host else .dram
def Queue.line (q : Queue) : Nat := fld q.qidx 7 45 * 128
/-- The write and the read index of a queue (R339). -/
def State.writeIndex (s : State) (q : Queue) : Nat := s.readN q.lineSpace q.line 4
def State.readIndex (s : State) (q : Queue) : Nat := s.readN q.lineSpace (q.line + 64) 4
/-- Slots a queue holds, modulo 2^32. -/
def State.held (s : State) (q : Queue) : Nat := (s.writeIndex q + 2 ^ 32 - s.readIndex q) % 2 ^ 32

/-- Whether a device-side queue has a free slot. -/
def State.hasSlot (s : State) (q : Nat) : Bool := decide (s.held (s.queue q) < (s.queue q).slots)

/-- Stores a 64-byte packet of job `j` into the next slot of queue `q`, then advances the write index (R128). -/
def State.pushSlot (s : State) (q pkt j : Nat) : State :=
  let u := s.queue q
  let w := s.writeIndex u
  let s1 := s.writeN u.ringSpace (u.ring + 64 * (w % u.slots)) 64 pkt
  let s2 := s1.writeN u.lineSpace u.line 4 ((w + 1) % 2 ^ 32)
  s2.modQueue q (fun u => { u with pushers := put u.pushers (w % u.slots) j })

/-- `qpush`: the packet is read as a 64-byte load of Table 9.1 (notes/assumptions/17.md). -/
def qpushSem (a sreg : Nat) (nb : Bool) (s _l : State) : Sem :=
  let addr := s.me.a a
  let q := s.me.s sreg % 64
  let job := s.me.sched.job
  let ps := s.parts s.cur addr 64 .load
  let allowed := bitAt (s.queue q).qcfg 4 && bitAt ((s.job job).elim 0 (·.qmask)) q
  { phase := 60
    cands := candIf (addr % 64 != 0) ⟨0x0C, .val addr⟩ ++ candIf (!allowed) illegalCombination ++ partCands ps
    walks := partWalks ps
    act := fun e =>
      let e1 := (e.touchParts (coreOf s.cur) false ps).release
      if e1.hasSlot q then
        let e2 := e1.pushSlot q (e1.readParts ps) job
        if nb then e2.modCtx s.cur (fun x => x.setCond 15 false) else e2
      else if nb then e1.modCtx s.cur (fun x => x.setCond 15 true)
      else e1.modCtx s.cur (fun x => { x with seq := { x.seq with wait := some (.push q (e1.readParts ps)) } }) }

def haltSem (s _l : State) : Sem := { ctlSem s [] id with flow := .halt }

/-! ## Traps, points, hints (R130 to R132, R298) -/

def trapSem (code : Nat) (s _l : State) : Sem := { ctlSem s [] id with flow := .trap 0x11 code }
def brkpSem (code : Nat) (s _l : State) : Sem := { ctlSem s [] id with flow := .trap 0x12 code }
def tretSem (s _l : State) : Sem := { ctlSem s (candIf (s.me.level == 0) illegalCombination) id with flow := .tret }
def pptSem (s _l : State) : Sem := { ctlSem s [] id with point := true, ppt := true }
def yieldSem (s _l : State) : Sem := ctlSem s [] (fun x => { x with sched := { x.sched with yieldAt := some s.clock } })

/-- `cwb` and `iinv`: recorded, and performed at a free moment until the next `fsync`, a `cwb` until the next release too (R105). -/
def maintSem (inv : Bool) (a sreg : Nat) (s : State) : Sem :=
  { phase := 60
    act := fun e => e.modCore (coreOf s.cur) (fun k => { k with maint := k.maint ++ [⟨s.me.sched.job, s.me.sched.place, inv, s.me.a a, s.me.s sreg⟩] }) }

def cwbSem (a sreg : Nat) (s _l : State) : Sem := maintSem false a sreg s
def iinvSem (a sreg : Nat) (s _l : State) : Sem := maintSem true a sreg s
def fsyncSem (s _l : State) : Sem := waitSem s [] .fsync

/-! ## The rows -/

/-- BR: Unconditional branch. -/
def execBr (off : Nat) (s : State) : Host.Outcome State Fault Refusal :=
  issueOne 3 (brSem off) s
/-- BRK: Branch on a condition register. -/
def execBrk (off k : Nat) (sense : Bool) (s : State) : Host.Outcome State Fault Refusal :=
  issueOne 3 (brkSem off k sense) s
/-- CALL: Branch writing the link in s62. -/
def execCall (off : Nat) (s : State) : Host.Outcome State Fault Refusal :=
  issueOne 3 (callSem off) s
/-- RET: Branch to s62. -/
def execRet (s : State) : Host.Outcome State Fault Refusal :=
  issueOne 3 retSem s
/-- JMP: Branch to a register, optionally linking. -/
def execJmp (src : Nat) (link : Bool) (s : State) : Host.Outcome State Fault Refusal :=
  issueOne 3 (jmpSem src link) s
/-- LOOP: Pushes a hardware loop level or skips when the count is zero. -/
def execLoop (cnt off : Nat) (imm : Bool) (s : State) : Host.Outcome State Fault Refusal :=
  issueOne 3 (loopSem cnt off imm) s
/-- LBRK: Pops loop levels and branches to the exit. -/
def execLbrk (n : Nat) (cond sense : Bool) (k : Nat) (s : State) : Host.Outcome State Fault Refusal :=
  issueOne 3 (lbrkSem n cond sense k) s
/-- TWAIT: Waits for tokens to be set. -/
def execTwait (src : Nat) (soft : Bool) (s : State) : Host.Outcome State Fault Refusal :=
  issueOne 3 (twaitSem src soft) s
/-- CWAIT: Waits for a counter to reach a value. -/
def execCwait (a sreg scope : Nat) (s : State) : Host.Outcome State Fault Refusal :=
  issueOne 3 (cwaitSem a sreg scope) s
/-- FENCE: Orders earlier and later accesses at a scope. -/
def execFence (kind scope : Nat) (s : State) : Host.Outcome State Fault Refusal :=
  issueOne 3 (fenceSem kind scope) s
/-- DRAIN: Waits for earlier remote accesses to complete. -/
def execDrain (s : State) : Host.Outcome State Fault Refusal :=
  issueOne 3 drainSem s
/-- XFENCE: Waits for earlier xcpy writes and makes them visible. -/
def execXfence (s : State) : Host.Outcome State Fault Refusal :=
  issueOne 3 xfenceSem s
/-- FMTW: Writes mfmt, cvtctl or fpctl under the shadow. -/
def execFmtw (reg src : Nat) (s : State) : Host.Outcome State Fault Refusal :=
  issueOne 3 (fmtwSem reg src) s
/-- SGET: Reads a system register into a scalar. -/
def execSget (dst sys : Nat) (s : State) : Host.Outcome State Fault Refusal :=
  issueOne 3 (sgetSem dst sys) s
/-- SGET_FPSTAT: Reads fpstat after running on until earlier flag-raising operations land. -/
def execSgetFpstat (dst : Nat) (s : State) : Host.Outcome State Fault Refusal :=
  issueOne 3 (sgetFpstatSem dst) s
/-- SSET: Writes a system register that has no row of its own. -/
def execSset (src sys : Nat) (s : State) : Host.Outcome State Fault Refusal :=
  issueOne 3 (ssetSem src sys) s
/-- SSET_SPLIT: Writes split, converting ways between cache and scratchpad. -/
def execSsetSplit (src : Nat) (s : State) : Host.Outcome State Fault Refusal :=
  issueOne 3 (ssetSplitSem src) s
/-- SSET_DICT: Writes the dictionary window. -/
def execSsetDict (src : Nat) (s : State) : Host.Outcome State Fault Refusal :=
  issueOne 3 (ssetDictSem src) s
/-- SSET_VWIN: Writes the vector window. -/
def execSsetVwin (src : Nat) (s : State) : Host.Outcome State Fault Refusal :=
  issueOne 3 (ssetVwinSem src) s
/-- SSET_NREG: Selects the content-named region. -/
def execSsetNreg (src : Nat) (s : State) : Host.Outcome State Fault Refusal :=
  issueOne 3 (ssetNregSem src) s
/-- SSET_LDEPTH: Writes the loop-stack depth. -/
def execSsetLdepth (src : Nat) (s : State) : Host.Outcome State Fault Refusal :=
  issueOne 3 (ssetLdepthSem src) s
/-- FPSTAT_CLEAR: Writing 1 to an fpstat flag clears it. -/
def execFpstatClear (src : Nat) (s : State) : Host.Outcome State Fault Refusal :=
  issueOne 3 (fpstatClearSem src) s
/-- GMSET: Writes a group-mask register. -/
def execGmset (g n : Nat) (s : State) : Host.Outcome State Fault Refusal :=
  issueOne 3 (gmsetSem g n) s
/-- BACQ: Acquires ways once they are released or free. -/
def execBacq (mask : Nat) (s : State) : Host.Outcome State Fault Refusal :=
  issueOne 3 (bacqSem mask) s
/-- BREL: Releases owned ways. -/
def execBrel (mask : Nat) (s : State) : Host.Outcome State Fault Refusal :=
  issueOne 3 (brelSem mask) s
/-- QPUSH: Pushes a packet into a device-side queue. -/
def execQpush (a sreg : Nat) (nb : Bool) (s : State) : Host.Outcome State Fault Refusal :=
  issueOne 3 (qpushSem a sreg nb) s
/-- HALT: Ends the context after its bundle. -/
def execHalt (s : State) : Host.Outcome State Fault Refusal :=
  issueOne 3 haltSem s
/-- TRAP: Raises a software trap after the bundle. -/
def execTrap (code : Nat) (s : State) : Host.Outcome State Fault Refusal :=
  issueOne 3 (trapSem code) s
/-- TRET: Returns one trap level. -/
def execTret (s : State) : Host.Outcome State Fault Refusal :=
  issueOne 3 tretSem s
/-- PPT: Marks the point after the bundle as a pre-emption point. -/
def execPpt (s : State) : Host.Outcome State Fault Refusal :=
  issueOne 3 pptSem s
/-- CWB: Writes back lines of a range to L2. -/
def execCwb (a sreg : Nat) (s : State) : Host.Outcome State Fault Refusal :=
  issueOne 3 (cwbSem a sreg) s
/-- IINV: Invalidates dictionary and index-word entries of a range. -/
def execIinv (a sreg : Nat) (s : State) : Host.Outcome State Fault Refusal :=
  issueOne 3 (iinvSem a sreg) s
/-- FSYNC: Waits for earlier cwb and iinv and discards the fetch path. -/
def execFsync (s : State) : Host.Outcome State Fault Refusal :=
  issueOne 3 fsyncSem s
/-- EWAIT: Waits for every earlier engine instruction and sets k15. -/
def execEwait (s : State) : Host.Outcome State Fault Refusal :=
  issueOne 3 ewaitSem s
/-- BRKP: Raises a breakpoint trap after the bundle. -/
def execBrkp (code : Nat) (s : State) : Host.Outcome State Fault Refusal :=
  issueOne 3 (brkpSem code) s
/-- TOKC: Clears error bits of completed tokens. -/
def execTokc (src : Nat) (s : State) : Host.Outcome State Fault Refusal :=
  issueOne 3 (tokcSem src) s
/-- YIELD: Passes the context's turn. -/
def execYield (s : State) : Host.Outcome State Fault Refusal :=
  issueOne 3 yieldSem s
/-- CT_NOP: Control slot does nothing. -/
def execCtNop (s : State) : Host.Outcome State Fault Refusal :=
  issueOne 3 ctNopSem s
/-- MX_NOP: Matrix slot does nothing. -/
def execMxNop (s : State) : Host.Outcome State Fault Refusal :=
  issueOne 1 mxNopSem s
/-- CP_NOP: Copy slot does nothing. -/
def execCpNop (s : State) : Host.Outcome State Fault Refusal :=
  issueOne 2 cpNopSem s

end Sys2Proof.Machine
end

