-- ==== Sys2Proof/Machine/Crc.lean ====
section
/-! DEFINITION. The checksums of the Flume (R233, R234): CRC-8, CRC-32C and the content checksum of a Zstandard frame. -/

namespace Sys2Proof.Machine

/-- One bit of CRC-8 with polynomial 0x07, most significant bit first. -/
def crc8Bit (c : Nat) : Nat := if bitAt c 7 then (2 * c % 256) ^^^ 0x07 else 2 * c % 256

/-- CRC-8 of bytes from an initial value (R233). -/
def crc8 (bs : List Nat) : Nat := bs.foldl (fun c b => (List.range 8).foldl (fun x _ => crc8Bit x) (c ^^^ b % 256)) 0

/-- One bit of CRC-32C, reflected. -/
def crc32cBit (c : Nat) : Nat := if c % 2 = 1 then (c / 2) ^^^ 0x82F63B78 else c / 2

/-- CRC-32C of bytes: initial value and final exclusive-or all ones. -/
def crc32c (bs : List Nat) : Nat :=
  (bs.foldl (fun c b => (List.range 8).foldl (fun x _ => crc32cBit x) (c ^^^ b % 256)) 0xFFFFFFFF) ^^^ 0xFFFFFFFF

/-! ## XXH64 with seed 0, for RFC 8878 -/

def xxP1 : Nat := 0x9E3779B185EBCA87
def xxP2 : Nat := 0xC2B2AE3D27D4EB4F
def xxP3 : Nat := 0x165667B19E3779F9
def xxP4 : Nat := 0x85EBCA77C2B2AE63
def xxP5 : Nat := 0x27D4EB2F165667C5

/-- Rotation left of a 64-bit word. -/
def rotl64 (x n : Nat) : Nat := (x * 2 ^ n % 2 ^ 64) ||| (x % 2 ^ 64 / 2 ^ (64 - n))

/-- Bytes as a little-endian number. -/
def leNat : List Nat → Nat
  | [] => 0
  | b :: r => b % 256 + 256 * leNat r

/-- A number as `n` bytes, little-endian. -/
def leBytes : Nat → Nat → List Nat
  | 0, _ => []
  | n + 1, v => v % 256 :: leBytes n (v / 256)

/-- One lane's round. -/
def xxRound (acc lane : Nat) : Nat := rotl64 ((acc + lane * xxP2) % 2 ^ 64) 31 * xxP1 % 2 ^ 64

/-- The accumulators after the whole 32-byte stripes, and the bytes left. -/
def xxStripes : Nat → List Nat → List Nat → List Nat × List Nat
  | 0, acc, bs => (acc, bs)
  | n + 1, acc, bs =>
    xxStripes n (acc.zipIdx.map (fun p => xxRound p.1 (leNat ((bs.drop (8 * p.2)).take 8)))) (bs.drop 32)

/-- The bytes after the stripes: eight, then four, then one at a time. -/
def xxTail : Nat → Nat → List Nat → Nat
  | 0, h, _ => h
  | n + 1, h, bs =>
    if 8 ≤ bs.length then
      xxTail n ((rotl64 (h ^^^ xxRound 0 (leNat (bs.take 8))) 27 * xxP1 + xxP4) % 2 ^ 64) (bs.drop 8)
    else if 4 ≤ bs.length then
      xxTail n ((rotl64 (h ^^^ (leNat (bs.take 4) * xxP1 % 2 ^ 64)) 23 * xxP2 + xxP3) % 2 ^ 64) (bs.drop 4)
    else
      match bs with
      | [] => h
      | b :: r => xxTail n (rotl64 (h ^^^ (b % 256 * xxP5 % 2 ^ 64)) 11 * xxP1 % 2 ^ 64) r

/-- XXH64 of bytes. -/
def xxh64 (bs : List Nat) : Nat :=
  let n := bs.length
  let h0 : Nat × List Nat :=
    if 32 ≤ n then
      let r := xxStripes (n / 32) [(xxP1 + xxP2) % 2 ^ 64, xxP2, 0, 2 ^ 64 - xxP1] bs
      let a := r.1
      let h := (rotl64 (a.getD 0 0) 1 + rotl64 (a.getD 1 0) 7 + rotl64 (a.getD 2 0) 12 + rotl64 (a.getD 3 0) 18) % 2 ^ 64
      (a.foldl (fun g v => ((g ^^^ xxRound 0 v) * xxP1 + xxP4) % 2 ^ 64) h, r.2)
    else (xxP5, bs)
  let h1 := xxTail (n + 1) ((h0.1 + n) % 2 ^ 64) h0.2
  let h2 := (h1 ^^^ (h1 / 2 ^ 33)) * xxP2 % 2 ^ 64
  let h3 := (h2 ^^^ (h2 / 2 ^ 29)) * xxP3 % 2 ^ 64
  h3 ^^^ (h3 / 2 ^ 32)

end Sys2Proof.Machine
end

