-- ==== Sys2Proof/Machine/Inflate.lean ====
section
/-! DEFINITION. Raw Deflate as RFC 1951 defines it (R234). Output is kept reversed; a malformed stream keeps the bytes it has
expanded (R235). -/

namespace Sys2Proof.Machine

/-- Bits of bytes, least significant first. -/
def bitsOf (bs : List Nat) : List Bool := bs.flatMap (fun b => (List.range 8).map (fun i => bitAt b i))

/-- Takes `n` bits, the first least significant. -/
def takeBits : Nat → List Bool → Option (Nat × List Bool)
  | 0, bs => some (0, bs)
  | _ + 1, [] => none
  | n + 1, b :: r => (takeBits n r).map (fun p => (b.toNat + 2 * p.1, p.2))

/-- A canonical Huffman code by its code lengths: (length, code, symbol) for every symbol of non-zero length. -/
def huffCodes (lens : List Nat) : List (Nat × Nat × Nat) :=
  ((List.range 15).foldl (fun (acc : Nat × List (Nat × Nat × Nat)) i =>
    let l := i + 1
    let syms := (lens.zipIdx.filter (fun p => p.1 == l)).map (·.2)
    let new := syms.zipIdx.map (fun p => (l, acc.1 + p.2, p.1))
    ((acc.1 + syms.length) * 2, acc.2 ++ new)) (0, [])).2

/-- Whether code lengths ask for more codes than there are. -/
def overSubscribed (lens : List Nat) : Bool :=
  decide (2 ^ 15 < (lens.filter (fun l => l != 0)).foldl (fun n l => n + 2 ^ (15 - l)) 0)

/-- Whether code lengths leave codes unused. -/
def incomplete (lens : List Nat) : Bool :=
  decide ((lens.filter (fun l => l != 0)).foldl (fun n l => n + 2 ^ (15 - l)) 0 < 2 ^ 15)

/-- Reads one symbol: bits enter a code from its most significant end; `n` bounds its length. -/
def huffRead (codes : List (Nat × Nat × Nat)) : Nat → Nat → Nat → List Bool → Option (Nat × List Bool)
  | 0, _, _, _ => none
  | _ + 1, _, _, [] => none
  | n + 1, len, code, b :: r =>
    let c := 2 * code + b.toNat
    match codes.find? (fun e => e.1 == len + 1 && e.2.1 == c) with
    | some e => some (e.2.2, r)
    | none => huffRead codes n (len + 1) c r

/-- Base and extra bits of a length code 257 to 285. -/
def lenBase : Nat → Nat × Nat
  | 28 => (258, 0)
  | k => if k < 8 then (k + 3, 0) else ((4 + k % 4) * 2 ^ (k / 4 - 1) + 3, k / 4 - 1)

/-- Base and extra bits of a distance code. -/
def distBase (k : Nat) : Nat × Nat := if k < 4 then (k + 1, 0) else ((2 + k % 2) * 2 ^ (k / 2 - 1) + 1, k / 2 - 1)

/-- Copies `n` bytes from `d` back, one at a time. -/
def copyBack (d : Nat) : Nat → List Nat → List Nat
  | 0, out => out
  | n + 1, out => copyBack d n (out.getD (d - 1) 0 :: out)

/-- What an expansion has reached: output reversed, bits left; none where the stream is malformed. -/
structure Inf where
  out : List Nat
  rest : Option (List Bool)

/-- A block of literals, lengths and distances to its end; `fuel` bounds the symbols. -/
def infBlock (lc dc : List (Nat × Nat × Nat)) : Nat → List Nat → List Bool → Inf
  | 0, out, _ => ⟨out, none⟩
  | fuel + 1, out, bs =>
    match huffRead lc 15 0 0 bs with
    | none => ⟨out, none⟩
    | some (256, r) => ⟨out, some r⟩
    | some (sym, r) =>
      if sym < 256 then infBlock lc dc fuel (sym :: out) r
      else if 285 < sym then ⟨out, none⟩
      else
        let lb := lenBase (sym - 257)
        match takeBits lb.2 r with
        | none => ⟨out, none⟩
        | some (le, r1) =>
          match huffRead dc 15 0 0 r1 with
          | none => ⟨out, none⟩
          | some (ds, r2) =>
            let db := distBase ds
            match takeBits db.2 r2 with
            | none => ⟨out, none⟩
            | some (de, r3) =>
              let d := db.1 + de
              if 29 < ds ∨ out.length < d ∨ 32768 < d then ⟨out, none⟩
              else infBlock lc dc fuel (copyBack d (lb.1 + le) out) r3

/-- The fixed codes. -/
def fixedLens : List Nat := List.replicate 144 8 ++ List.replicate 112 9 ++ List.replicate 24 7 ++ List.replicate 8 8

/-- The order of the code length code's lengths. -/
def clOrder : List Nat := [16, 17, 18, 0, 8, 7, 9, 6, 10, 5, 11, 4, 12, 3, 13, 2, 14, 1, 15]

/-- Reads `n` three-bit lengths. -/
def read3 : Nat → List Bool → Option (List Nat × List Bool)
  | 0, bs => some ([], bs)
  | n + 1, bs =>
    match takeBits 3 bs with
    | none => none
    | some (v, r) => (read3 n r).map (fun p => (v :: p.1, p.2))

/-- Reads code lengths until there are `want`, most recent first. -/
def readLens (cc : List (Nat × Nat × Nat)) (want : Nat) : Nat → List Nat → List Bool → Option (List Nat × List Bool)
  | 0, _, _ => none
  | fuel + 1, acc, bs =>
    if want < acc.length then none
    else if acc.length = want then some (acc.reverse, bs)
    else
      match huffRead cc 7 0 0 bs with
      | none => none
      | some (sym, r) =>
        if sym < 16 then readLens cc want fuel (sym :: acc) r
        else
          let p : Nat × Nat × Option Nat := if sym = 16 then (2, 3, acc.head?) else if sym = 17 then (3, 3, some 0) else (7, 11, some 0)
          match takeBits p.1 r, p.2.2 with
          | some (n, r1), some v => readLens cc want fuel (List.replicate (n + p.2.1) v ++ acc) r1
          | _, _ => none

/-- The two codes of a dynamic block: literal lengths and distance lengths. -/
def dynCodes (bs : List Bool) : Option (List Nat × List Nat × List Bool) :=
  match takeBits 14 bs with
  | none => none
  | some (h, r) =>
    let hlit := h % 32 + 257
    let hdist := h / 32 % 32 + 1
    match read3 (h / 1024 + 4) r with
    | none => none
    | some (cl, r1) =>
      let lens := (List.range 19).map (fun s => ((clOrder.zip cl).find? (fun p => p.1 == s)).elim 0 (·.2))
      if overSubscribed lens ∨ incomplete lens then none
      else
        match readLens (huffCodes lens) (hlit + hdist) (hlit + hdist + 1) [] r1 with
        | none => none
        | some (all, r2) =>
          let lit := all.take hlit
          let dist := all.drop hlit
          let many := decide (1 < (dist.filter (fun l => l != 0)).length)
          if 286 < hlit ∨ lit.getD 256 0 = 0 ∨ overSubscribed lit ∨ overSubscribed dist ∨
              (incomplete lit ∧ 1 < (lit.filter (fun l => l != 0)).length) ∨ (incomplete dist ∧ many) then none
          else some (lit, dist, r2)

/-- A stored block: to the next byte of the stream, whose bits left are a multiple of 8, then LEN, NLEN and the bytes. -/
def infStored (out : List Nat) (bs : List Bool) : Inf :=
  match takeBits 32 (bs.drop (bs.length % 8)) with
  | none => ⟨out, none⟩
  | some (h, r) =>
    let n := h % 65536
    if h / 65536 ≠ 65535 - n then ⟨out, none⟩
    else
      let have_ := min n (r.length / 8)
      let bytes := (List.range have_).map (fun i => (takeBits 8 (r.drop (8 * i))).elim 0 (·.1))
      ⟨bytes.reverse ++ out, if have_ < n then none else some (r.drop (8 * n))⟩

/-- Blocks to the final one; `fuel` bounds the blocks. -/
def infBlocks : Nat → List Nat → List Bool → Inf
  | 0, out, _ => ⟨out, none⟩
  | fuel + 1, out, bs =>
    match takeBits 3 bs with
    | none => ⟨out, none⟩
    | some (h, r) =>
      let b : Inf :=
        if h / 2 = 0 then infStored out r
        else if h / 2 = 1 then infBlock (huffCodes fixedLens) (huffCodes (List.replicate 30 5)) r.length out r
        else if h / 2 = 2 then
          match dynCodes r with
          | none => ⟨out, none⟩
          | some (l, d, r1) => infBlock (huffCodes l) (huffCodes d) r1.length out r1
        else ⟨out, none⟩
      match b.rest with
      | none => b
      | some r1 => if h % 2 = 1 then b else infBlocks fuel b.out r1

/-- A Deflate payload: the bytes expanded and whether it was malformed. The final block ends in the last byte. -/
def inflate (payload : List Nat) : List Nat × Bool :=
  let bs := bitsOf payload
  let r := infBlocks (bs.length + 1) [] bs
  (r.out.reverse, match r.rest with | none => true | some l => decide (8 ≤ l.length))

end Sys2Proof.Machine
end

