-- ==== Sys2Proof/Machine/Zstd.lean ====
section
/-! DEFINITION. One Zstandard frame as RFC 8878 defines it, without a dictionary (R234). Output is kept reversed; a malformed
frame keeps the bytes it has expanded (R235). -/

namespace Sys2Proof.Machine

/-! ## Bitstreams read from their end -/

/-- A bitstream read backward: the bits left, the next one first, and how many were read beyond its start. -/
structure Back where
  bits : List Bool
  past : Nat

/-- Opens a backward bitstream: the highest set bit of the last byte ends the padding. -/
def openBack (bs : List Nat) : Option Back :=
  match bs.getLast? with
  | none => none
  | some l =>
    if l = 0 then none
    else
      let bits := bs.reverse.flatMap (fun b => (List.range 8).map (fun i => bitAt b (7 - i)))
      some ⟨bits.drop (8 - Nat.log2 l), 0⟩

/-- Reads `n` bits, the first most significant; bits beyond the start read as zero. -/
def readBack : Nat → Nat → Back → Nat × Back
  | 0, acc, s => (acc, s)
  | n + 1, acc, s =>
    match s.bits with
    | b :: r => readBack n (2 * acc + b.toNat) { s with bits := r }
    | [] => readBack n (2 * acc) { s with past := s.past + 1 }

/-! ## FSE tables -/

/-- One state of an FSE table: symbol, bits of the next state, and its base. -/
structure FseCell where
  sym : Nat
  nb : Nat
  base : Nat

/-- A table: accuracy log and cells. -/
structure Fse where
  al : Nat
  cells : List FseCell

/-- The symbol cells of probability 1 and up are spread over the positions below `high`: `n` cells are still to be placed. -/
def fseSpread (size high step : Nat) : Nat → Nat → List Nat → Sparse Nat → Sparse Nat
  | 0, _, _, t => t
  | _ + 1, _, [], t => t
  | n + 1, pos, s :: r, t =>
    let next := (List.range size).foldl (fun p _ => if high ≤ p then (p + step) % size else p) ((pos + step) % size)
    fseSpread size high step n next r ((pos, s) :: t)

/-- The decoding table of a distribution; a probability of −1 is a cell at the top. -/
def fseTable (al : Nat) (freq : List Int) : Fse :=
  let size := 2 ^ al
  let low := (freq.zipIdx.filter (fun p => p.1 == -1)).map (·.2)
  let high := size - low.length
  let syms := freq.zipIdx.flatMap (fun p => if 0 < p.1 then List.replicate p.1.toNat p.2 else [])
  let spread := fseSpread size high (size / 2 + size / 8 + 3) syms.length 0 syms []
  let at_ := fun i => if high ≤ i then low.getD (size - 1 - i) 0 else look 0 spread i
  let cells := (List.range size).foldl (fun (acc : List FseCell × Sparse Nat) i =>
    let s := at_ i
    let d := look (if freq.getD s 0 = -1 then 1 else (freq.getD s 0).toNat) acc.2 s
    let nb := al - Nat.log2 d
    (⟨s, nb, d * 2 ^ nb - size⟩ :: acc.1, put acc.2 s (d + 1))) ([], [])
  ⟨al, cells.1.reverse⟩

/-- The table of an RLE mode: one symbol, no bits. -/
def fseRle (sym : Nat) : Fse := ⟨0, [⟨sym, 0, 0⟩]⟩

/-- Zero probabilities that follow a zero: groups of two bits. -/
def fseZeros : Nat → List Bool → List Int → Option (List Int × List Bool)
  | 0, _, _ => none
  | fuel + 1, bs, acc =>
    match takeBits 2 bs with
    | none => none
    | some (n, r) =>
      let acc1 := List.replicate n 0 ++ acc
      if n = 3 then fseZeros fuel r acc1 else some (acc1, r)

/-- Probabilities until `left` is used up, most recent first. -/
def fseProbs (maxSym : Nat) : Nat → Nat → List Int → List Bool → Option (List Int × List Bool)
  | 0, _, _, _ => none
  | fuel + 1, left, acc, bs =>
    if left = 0 then some (acc, bs)
    else if maxSym < acc.length then none
    else
      let n := Nat.log2 (left + 1) + 1
      let lowMask := 2 ^ (n - 1) - 1
      let threshold := 2 ^ n - 1 - (left + 1)
      match takeBits (n - 1) bs with
      | none => none
      | some (lowv, r) =>
        let rd : Option (Nat × List Bool) :=
          if lowv < threshold then some (lowv, r)
          else
            match takeBits 1 r with
            | none => none
            | some (b, r1) => (let v := lowv + b * 2 ^ (n - 1); some (if lowMask < v then v - threshold else v, r1))
        match rd with
        | none => none
        | some (v, r1) =>
          let p : Int := (v : Int) - 1
          if left < p.natAbs then none
          else if p = 0 then
            match fseZeros fuel r1 (0 :: acc) with
            | none => none
            | some (acc1, r2) => fseProbs maxSym fuel left acc1 r2
          else fseProbs maxSym fuel (left - p.natAbs) (p :: acc) r1

/-- Reads a table description from bytes: the table and the bytes left. -/
def readFse (maxLog maxSym : Nat) (bs : List Nat) : Option (Fse × List Nat) :=
  let bits := bitsOf bs
  match takeBits 4 bits with
  | none => none
  | some (a, r) =>
    let al := a + 5
    if maxLog < al then none
    else
      match fseProbs maxSym (bits.length + 1) (2 ^ al) [] r with
      | none => none
      | some (acc, r1) =>
        if maxSym + 1 < acc.length then none
        else some (fseTable al acc.reverse, bs.drop ((bits.length - r1.length + 7) / 8))

/-- The cell of a state. -/
def Fse.cell (t : Fse) (st : Nat) : FseCell := t.cells.getD st ⟨0, 0, 0⟩
/-- The first state. -/
def Fse.start (t : Fse) (s : Back) : Nat × Back := readBack t.al 0 s
/-- The state after a symbol. -/
def Fse.next (t : Fse) (st : Nat) (s : Back) : Nat × Back :=
  let c := t.cell st
  let r := readBack c.nb 0 s
  (c.base + r.1, r.2)

/-! ## Huffman trees -/

/-- A tree: the longest code, and for every index of that many bits its symbol and length. -/
structure Huf where
  bits : Nat
  table : List (Nat × Nat)

/-- The tree of all weights but the last, which the others determine. -/
def hufOf (ws : List Nat) : Option Huf :=
  let sum := (ws.filter (fun w => w != 0)).foldl (fun n w => n + 2 ^ (w - 1)) 0
  if sum = 0 ∨ 255 < ws.length ∨ ws.any (fun w => decide (11 < w)) then none
  else
    let m := Nat.log2 sum + 1
    let left := 2 ^ m - sum
    if 11 < m ∨ left ≠ 2 ^ Nat.log2 left then none
    else
      let all := ws ++ [Nat.log2 left + 1]
      some ⟨m, (List.range m).flatMap (fun i =>
        (all.zipIdx.filter (fun p => p.1 == i + 1)).flatMap (fun p => List.replicate (2 ^ i) (p.2, m - i)))⟩

/-- Weights by two interleaved states, until the bits run out; most recent first. -/
def fseWeights (t : Fse) : Nat → Nat → Nat → List Nat → Back → Option (List Nat)
  | 0, _, _, _, _ => none
  | fuel + 1, st1, st2, acc, s =>
    let acc1 := (t.cell st1).sym :: acc
    let r := t.next st1 s
    if r.2.past ≠ 0 then some ((t.cell st2).sym :: acc1) else fseWeights t fuel st2 r.1 acc1 r.2

/-- Reads a tree description: the tree and the bytes left. -/
def readHuf (bs : List Nat) : Option (Huf × List Nat) :=
  match bs with
  | [] => none
  | h :: r =>
    if h < 128 then
      let body := r.take h
      if body.length < h then none
      else
        match readFse 6 11 body with
        | none => none
        | some (t, rest) =>
          match openBack rest with
          | none => none
          | some s =>
            let a := t.start s
            let b := t.start a.2
            if b.2.past ≠ 0 then none
            else
              match fseWeights t 256 a.1 b.1 [] b.2 with
              | none => none
              | some ws => (hufOf ws.reverse).map (fun u => (u, r.drop h))
    else
      let n := h - 127
      let k := (n + 1) / 2
      if r.length < k then none
      else
        let ws := ((r.take k).flatMap (fun b => [b / 16, b % 16])).take n
        (hufOf ws).map (fun u => (u, r.drop k))

/-- `n` symbols of a Huffman stream, most recent first; the stream must end with them. -/
def hufStream (u : Huf) : Nat → List Nat → Back → Option (List Nat)
  | 0, acc, s => if s.bits = [] ∧ s.past = 0 then some acc else none
  | n + 1, acc, s =>
    if s.bits = [] then none
    else
      let e := u.table.getD (readBack u.bits 0 s).1 (0, 1)
      hufStream u n (e.1 :: acc) (readBack e.2 0 s).2

/-- A stream of bytes that holds `n` symbols, most recent first. -/
def hufBytes (u : Huf) (n : Nat) (bs : List Nat) : Option (List Nat) := (openBack bs).bind (hufStream u n [])

/-! ## Literals -/

/-- What a frame carries from block to block. -/
structure ZState where
  /-- output, reversed -/
  out : List Nat
  huf : Option Huf
  ll : Option Fse
  off : Option Fse
  ml : Option Fse
  reps : List Nat

/-- Four streams behind a jump table of three sizes. -/
def fourStreams (u : Huf) (n : Nat) (bs : List Nat) : Option (List Nat) :=
  let a := leNat (bs.take 2)
  let b := leNat ((bs.drop 2).take 2)
  let c := leNat ((bs.drop 4).take 2)
  let r := bs.drop 6
  let q := (n + 3) / 4
  if bs.length < 6 + a + b + c ∨ n < 3 * q then none
  else
    match hufBytes u q (r.take a), hufBytes u q ((r.drop a).take b), hufBytes u q ((r.drop (a + b)).take c),
      hufBytes u (n - 3 * q) (r.drop (a + b + c)) with
    | some w, some x, some y, some z => some (w.reverse ++ x.reverse ++ y.reverse ++ z.reverse)
    | _, _, _, _ => none

/-- The literals section of a compressed block: literals, the tree in force, bytes left. -/
def readLiterals (max : Nat) (huf : Option Huf) (bs : List Nat) : Option (List Nat × Option Huf × List Nat) :=
  let b0 := bs.headD 0
  let typ := b0 % 4
  let sf := b0 / 4 % 4
  if bs = [] then none
  else if typ < 2 then
    let hl := if sf % 2 = 0 then 1 else if sf = 1 then 2 else 3
    let n := if sf % 2 = 0 then b0 / 8 else leNat (bs.take hl) / 16
    let r := bs.drop hl
    let want := if typ = 0 then n else 1
    if bs.length < hl ∨ max < n ∨ r.length < want then none
    else if typ = 0 then some (r.take n, huf, r.drop n)
    else some (List.replicate n (r.headD 0), huf, r.drop 1)
  else
    let hl := if sf < 2 then 3 else sf + 2
    let w := if sf < 2 then 10 else if sf = 2 then 14 else 18
    let h := leNat (bs.take hl)
    let n := fld h 4 w
    let c := fld h (4 + w) w
    let r := bs.drop hl
    if bs.length < hl ∨ r.length < c ∨ max < n ∨ (sf ≠ 0 ∧ n < 6) then none
    else
      let body := r.take c
      let tree := if typ = 2 then readHuf body else huf.map (fun u => (u, body))
      match tree with
      | none => none
      | some (u, st) =>
        let lits := if sf = 0 then (hufBytes u n st).map List.reverse else fourStreams u n st
        lits.map (fun l => (l, some u, r.drop c))

/-! ## Sequences -/

/-- The predefined distributions. -/
def llDefault : List Int :=
  [4, 3, 2, 2, 2, 2, 2, 2, 2, 2, 2, 2, 2, 1, 1, 1, 2, 2, 2, 2, 2, 2, 2, 2, 2, 3, 2, 1, 1, 1, 1, 1, -1, -1, -1, -1]
def mlDefault : List Int := [1, 4, 3, 2, 2, 2, 2, 2, 2] ++ List.replicate 37 1 ++ List.replicate 7 (-1)
def offDefault : List Int := [1, 1, 1, 1, 1, 1, 2, 2, 2] ++ List.replicate 15 1 ++ List.replicate 5 (-1)

/-- Base and extra bits of a literal-length code. -/
def llCode (c : Nat) : Nat × Nat :=
  if c < 16 then (c, 0)
  else [(16, 1), (18, 1), (20, 1), (22, 1), (24, 2), (28, 2), (32, 3), (40, 3), (48, 4), (64, 6), (128, 7), (256, 8), (512, 9),
    (1024, 10), (2048, 11), (4096, 12), (8192, 13), (16384, 14), (32768, 15), (65536, 16)].getD (c - 16) (0, 0)

/-- Base and extra bits of a match-length code. -/
def mlCode (c : Nat) : Nat × Nat :=
  if c < 32 then (c + 3, 0)
  else [(35, 1), (37, 1), (39, 1), (41, 1), (43, 2), (47, 2), (51, 3), (59, 3), (67, 4), (83, 4), (99, 5), (131, 7), (259, 8),
    (515, 9), (1027, 10), (2051, 11), (4099, 12), (8195, 13), (16387, 14), (32771, 15), (65539, 16)].getD (c - 32) (0, 0)

/-- One table of the sequences section by its mode. -/
def seqTable (mode maxLog maxSym defLog : Nat) (dist : List Int) (old : Option Fse) (bs : List Nat) : Option (Fse × List Nat) :=
  match mode with
  | 0 => some (fseTable defLog dist, bs)
  | 1 => (match bs with | [] => none | b :: r => if maxSym < b then none else some (fseRle b, r))
  | 2 => readFse maxLog maxSym bs
  | _ => old.map (fun t => (t, bs))

/-- The offset of a sequence, and the repeated offsets after it; 0 is no offset. -/
def seqOffset (v ll : Nat) (reps : List Nat) : Nat × List Nat :=
  let r1 := reps.getD 0 1
  let r2 := reps.getD 1 4
  let r3 := reps.getD 2 8
  if 3 < v then (v - 3, [v - 3, r1, r2])
  else
    match v - 1 + (if ll = 0 then 1 else 0) with
    | 0 => (r1, reps)
    | 1 => (r2, [r2, r1, r3])
    | 2 => (r3, [r3, r1, r2])
    | _ => (r1 - 1, [r1 - 1, r1, r2])

/-- Sequences: `n` are left; literals left, output reversed, states of the three tables, the bits. The result is the output,
the repeated offsets, the literals left, and whether all went well. -/
def runSeqs (window max : Nat) (tl tf tm : Fse) : Nat → List Nat → List Nat → Nat → List Nat → Nat × Nat × Nat → Back →
    List Nat × List Nat × List Nat × Bool
  | 0, lits, out, _, reps, _, s => (out, reps, lits, s.bits.isEmpty && s.past == 0)
  | n + 1, lits, out, made, reps, st, s =>
    let oc := (tf.cell st.2.1).sym
    let lc := llCode (tl.cell st.1).sym
    let mc := mlCode (tm.cell st.2.2).sym
    let ro := readBack oc 0 s
    let rm := readBack mc.2 0 ro.2
    let rl := readBack lc.2 0 rm.2
    let ll := lc.1 + rl.1
    let ml := mc.1 + rm.1
    let o := seqOffset (2 ^ oc + ro.1) ll reps
    if rl.2.past ≠ 0 ∨ lits.length < ll ∨ max < made + ll + ml then (out, reps, lits, false)
    else
      let out1 := (lits.take ll).reverse ++ out
      if o.1 = 0 ∨ out1.length < o.1 ∨ window < o.1 then (out1, reps, lits.drop ll, false)
      else
        let out2 := copyBack o.1 ml out1
        if n = 0 then runSeqs window max tl tf tm 0 (lits.drop ll) out2 (made + ll + ml) o.2 st rl.2
        else
          let a := tl.next st.1 rl.2
          let c := tm.next st.2.2 a.2
          let b := tf.next st.2.1 c.2
          runSeqs window max tl tf tm n (lits.drop ll) out2 (made + ll + ml) o.2 (a.1, b.1, c.1) b.2

/-- A compressed block. The result is the state, and whether the block was well formed. -/
def zBlock (window max : Nat) (z : ZState) (bs : List Nat) : ZState × Bool :=
  match readLiterals max z.huf bs with
  | none => (z, false)
  | some (lits, huf, r) =>
    let z1 := { z with huf := huf }
    let b0 := r.headD 0
    let nl : Nat × Nat :=
      if b0 < 128 then (b0, 1)
      else if b0 < 255 then ((b0 - 128) * 256 + r.getD 1 0, 2)
      else (r.getD 1 0 + 256 * r.getD 2 0 + 0x7F00, 3)
    if r.length < nl.2 then (z1, false)
    else if nl.1 = 0 then (if r.length = 1 then ({ z1 with out := lits.reverse ++ z.out }, true) else (z1, false))
    else
      match r.drop nl.2 with
      | [] => (z1, false)
      | m :: r1 =>
        if m % 4 ≠ 0 then (z1, false)
        else
          match seqTable (m / 64) 9 35 6 llDefault z.ll r1 with
          | none => (z1, false)
          | some (tl, r2) =>
            match seqTable (m / 16 % 4) 8 31 5 offDefault z.off r2 with
            | none => (z1, false)
            | some (tf, r3) =>
              match seqTable (m / 4 % 4) 9 52 6 mlDefault z.ml r3 with
              | none => (z1, false)
              | some (tm, r4) =>
                match openBack r4 with
                | none => (z1, false)
                | some s =>
                  let a := tl.start s
                  let b := tf.start a.2
                  let c := tm.start b.2
                  if c.2.past ≠ 0 then (z1, false)
                  else
                    let q := runSeqs window max tl tf tm nl.1 lits z.out 0 z.reps (a.1, b.1, c.1) c.2
                    let z2 := { z1 with out := q.1, reps := q.2.1, ll := some tl, off := some tf, ml := some tm }
                    if q.2.2.2 ∧ q.1.length + q.2.2.1.length ≤ z.out.length + max then
                      ({ z2 with out := q.2.2.1.reverse ++ q.1 }, true)
                    else (z2, false)

/-- Blocks to the last one: the state, and the bytes after it; none where a block is malformed. -/
def zBlocks (window : Nat) : Nat → ZState → List Nat → ZState × Option (List Nat)
  | 0, z, _ => (z, none)
  | fuel + 1, z, bs =>
    let max := min window 131072
    let h := leNat (bs.take 3)
    let n := h / 8
    let r := bs.drop 3
    if bs.length < 3 then (z, none)
    else
      let b : ZState × Option (List Nat) :=
        match h / 2 % 4 with
        | 0 =>
          if max < n then (z, none)
          else ({ z with out := (r.take n).reverse ++ z.out }, if r.length < n then none else some (r.drop n))
        | 1 =>
          (match r with
            | [] => (z, none)
            | v :: r1 => if max < n then (z, none) else ({ z with out := List.replicate n v ++ z.out }, some r1))
        | 2 =>
          if max < n ∨ r.length < n then (z, none)
          else (let q := zBlock window max z (r.take n); (q.1, if q.2 then some (r.drop n) else none))
        | _ => (z, none)
      match b.2 with
      | none => b
      | some r1 => if h % 2 = 1 then b else zBlocks window fuel b.1 r1

/-- What a frame expands to: the bytes, whether it was malformed, and whether its content checksum differs. -/
structure Expanded where
  out : List Nat
  bad : Bool
  sum : Bool

/-- R234: one frame that is the whole payload of a block of `usize` bytes. -/
def zstdFrame (usize : Nat) (bs : List Nat) : Expanded :=
  let d := bs.getD 4 0
  let single := bitAt d 5
  let wl := if single then 0 else 1
  let dl := [0, 1, 2, 4].getD (d % 4) 0
  let fl := if d / 64 = 0 then (if single then 1 else 0) else 2 ^ (d / 64)
  let w := bs.getD 5 0
  let did := leNat ((bs.drop (5 + wl)).take dl)
  let fcs := leNat ((bs.drop (5 + wl + dl)).take fl) + (if fl = 2 then 256 else 0)
  let window := if single then fcs else (let b := 2 ^ (10 + w / 8); b + b / 8 * (w % 8))
  let hl := 5 + wl + dl + fl
  if leNat (bs.take 4) ≠ 0xFD2FB528 ∨ bs.length < hl ∨ bitAt d 3 ∨ did ≠ 0 ∨ (fl ≠ 0 ∧ fcs ≠ usize) ∨ 2 ^ 20 < window then
    ⟨[], true, false⟩
  else
    let r := zBlocks window (bs.length + 1) ⟨[], none, none, none, none, [1, 4, 8]⟩ (bs.drop hl)
    let out := r.1.out.reverse
    match r.2 with
    | none => ⟨out, true, false⟩
    | some rest =>
      if bitAt d 2 then ⟨out, rest.length != 4, rest.length == 4 && leNat rest != xxh64 out % 2 ^ 32⟩
      else ⟨out, rest != [], false⟩

end Sys2Proof.Machine
end

