-- ==== Sys2Proof/Machine/Flume.lean ====
section
/-! DEFINITION. The Flume (R233 to R235): block headers, the expansion of a payload, and the order of checks. -/

namespace Sys2Proof.Machine

/-- A block header (Table 10.3). -/
structure FlumeHead where
  method : Nat
  last : Bool
  csize : Nat
  usize : Nat
  crc : Nat
  deriving DecidableEq, Repr

/-- The header of 32 bytes; none is a header fault. `fl` is the effective method field: 6 accepts any (R235, 1). -/
def flumeHead (fl : Nat) (h : List Nat) : Option FlumeHead :=
  let method := h.getD 2 0
  let flags := h.getD 3 0
  let csize := leNat ((h.drop 4).take 4)
  let usize := leNat ((h.drop 8).take 4)
  if h.take 2 ≠ [0x46, 0x4C] ∨ h.getD 16 0 ≠ crc8 (h.take 16) ∨ 1 < flags ∨ (h.drop 17).any (fun b => b != 0) ∨ 4 < method ∨
      (fl ≠ 6 ∧ fl ≠ method + 1) ∨ usize = 0 ∨ 1048576 < usize ∨ (method = 0 ∧ csize ≠ usize) ∨ (method = 3 ∧ usize % 2 = 1) then none
  else some ⟨method, flags % 2 == 1, csize, usize, leNat ((h.drop 12).take 4)⟩

/-- RLE16: (count, value) pairs; a bad pair ends the expansion. -/
def rle16 : Nat → List Nat → List Nat × Bool
  | 0, _ => ([], false)
  | n + 1, bs =>
    match bs with
    | [] => ([], false)
    | c0 :: c1 :: v0 :: v1 :: r =>
      let c := c0 + 256 * c1
      if c = 0 then ([], true)
      else (let q := rle16 n r; ((List.replicate c [v0, v1]).flatten ++ q.1, q.2))
    | _ => ([], true)

/-- Running sums of 16-bit deltas (R234). -/
def undelta : Nat → Nat → List Nat → List Nat
  | 0, _, _ => []
  | n + 1, acc, bs =>
    match bs with
    | a :: b :: r => (let v := (acc + a + 256 * b) % 65536; v % 256 :: v / 256 :: undelta n v r)
    | l => l

/-- What a payload expands to, whether it is malformed, and whether its content checksum differs. -/
def flumeExpand (h : FlumeHead) (payload : List Nat) : Expanded :=
  match h.method with
  | 0 => ⟨payload, false, false⟩
  | 1 => (let r := rle16 (payload.length + 1) payload; ⟨r.1, r.2, false⟩)
  | 2 => zstdFrame h.usize payload
  | 3 => (let r := zstdFrame h.usize payload; { r with out := undelta (r.out.length + 1) 0 r.out })
  | _ => (let r := inflate payload; ⟨r.1, r.2, false⟩)

/-- What one block gives: the bytes to be written, and its fault. -/
structure FlumeBlock where
  out : List Nat
  fault : Option Nat
  deriving DecidableEq, Repr

/-- R235, 2 and 3: payload, then checksums. `short` says the payload itself could not be read whole. -/
def flumeBody (h : FlumeHead) (payload : List Nat) (short : Bool) : FlumeBlock :=
  let e := flumeExpand h payload
  let out := e.out.take h.usize
  if e.bad ∨ short ∨ e.out.length ≠ h.usize then ⟨out, some 0x56⟩
  else if e.sum ∨ crc32c e.out ≠ h.crc then ⟨out, some 0x55⟩
  else ⟨out, none⟩

/-- What a block makes of a stream whose destination has `need` bytes left (R235): the stream goes on, or ends without or with a fault. A
destination that is exactly full at the end of a block that is not marked last ends it without a fault or with the stream fault of R289, as
`exact` chooses (notes/assumptions/61.md). -/
def streamEnd (need : Nat) (h : FlumeHead) (b : FlumeBlock) (exact : Bool) : Option (Option Nat) :=
  if need < b.out.length then some (some 0x56)
  else
    match b.fault with
    | some c => some (some c)
    | none =>
      if need = b.out.length then some (if h.last || exact then none else some 0x56)
      else if h.last then some (some 0x56)
      else none

/-- The bytes of the next block header from its start: payload rounded up to 32 (R233). -/
def FlumeHead.padded (h : FlumeHead) : Nat := (h.csize + 31) / 32 * 32

/-- A stored block of bytes with its header and check sums, as `swrite` builds it (R232). -/
def storedBlock (bs : List Nat) (last : Bool) : List Nat :=
  let h := [0x46, 0x4C, 0, last.toNat] ++ leBytes 4 bs.length ++ leBytes 4 bs.length ++ leBytes 4 (crc32c bs)
  h ++ [crc8 h] ++ List.replicate 15 0 ++ bs ++ List.replicate ((bs.length + 31) / 32 * 32 - bs.length) 0

/-- A stream of stored blocks of at most 1 MiB. -/
def storedStream : Nat → List Nat → List Nat
  | 0, _ => []
  | n + 1, bs =>
    if bs.length ≤ 1048576 then storedBlock bs true
    else storedBlock (bs.take 1048576) false ++ storedStream n (bs.drop 1048576)

end Sys2Proof.Machine
end

