-- ==== Sys2Proof/Machine/Float.lean ====
section
/-! DEFINITION. Floating-point values, exactly: reading a code, rounding once into a format, and the flags of R44.
Flags are numbers in the places of fpstat (Table 2.12): inx 16, unf 8, ovf 4, dz 2, inv 1. -/

namespace Sys2Proof.Machine

/-- How a format uses its top exponent code (R30). -/
inductive TopCode where
  | ieee | nanOnly | finite
  deriving DecidableEq, Repr

/-- A floating-point format (Table 2.3). -/
structure FFmt where
  ebits : Nat
  mbits : Nat
  bias : Nat
  top : TopCode
  deriving DecidableEq, Repr

/-- The floating-point format of a code of Table 2.1. -/
def ffmt : Nat → Option FFmt
  | 0x2 => some ⟨5, 10, 15, .ieee⟩
  | 0x3 => some ⟨8, 7, 127, .ieee⟩
  | 0x6 => some ⟨4, 3, 7, .nanOnly⟩
  | 0x7 => some ⟨5, 2, 15, .ieee⟩
  | 0x8 => some ⟨3, 2, 3, .finite⟩
  | 0x9 => some ⟨2, 3, 1, .finite⟩
  | 0xA => some ⟨2, 1, 1, .finite⟩
  | 0xD => some ⟨8, 23, 127, .ieee⟩
  | _ => none

/-- f32. -/
def f32 : FFmt := ⟨8, 23, 127, .ieee⟩
/-- f16. -/
def f16 : FFmt := ⟨5, 10, 15, .ieee⟩

/-- Bits of a code without its sign. -/
def FFmt.magBits (f : FFmt) : Nat := f.ebits + f.mbits

/-- The code of the largest finite magnitude (Table 2.3). -/
def FFmt.maxFin (f : FFmt) : Nat :=
  match f.top with
  | .ieee => (2 ^ f.ebits - 1) * 2 ^ f.mbits - 1
  | .nanOnly => 2 ^ f.magBits - 2
  | .finite => 2 ^ f.magBits - 1

/-- The code of infinity in a format that has one. -/
def FFmt.infCode (f : FFmt) : Nat := (2 ^ f.ebits - 1) * 2 ^ f.mbits

/-- The default NaN's magnitude code (R31). -/
def FFmt.nanCode (f : FFmt) : Nat :=
  match f.top with
  | .ieee => (2 ^ f.ebits - 1) * 2 ^ f.mbits + 2 ^ (f.mbits - 1)
  | .nanOnly => 2 ^ f.magBits - 1
  | .finite => 2 ^ f.magBits - 1

/-- A code with a sign. -/
def FFmt.signed (f : FFmt) (neg : Bool) (mag : Nat) : Nat := if neg then 2 ^ f.magBits + mag else mag

/-- A positive exact value num/den · 2^exp; `den` is at least 1. -/
structure Mag where
  num : Nat
  den : Nat
  exp : Int
  deriving DecidableEq, Repr

/-- What a code stands for: a zero, a finite value, an infinity, a NaN. -/
inductive FVal where
  | zero (neg : Bool)
  | fin (neg : Bool) (m : Mag)
  | inf (neg : Bool)
  | nan (neg : Bool) (signalling : Bool)
  deriving DecidableEq, Repr

/-- The sign of a value. -/
def FVal.neg : FVal → Bool
  | .zero n => n
  | .fin n _ => n
  | .inf n => n
  | .nan n _ => n

/-- Reads a code by its value, subnormals included (R30, R31). -/
def FFmt.read (f : FFmt) (c : Nat) : FVal :=
  let neg := bitAt c f.magBits
  let e := fld c f.mbits f.ebits
  let m := c % 2 ^ f.mbits
  let topE := 2 ^ f.ebits - 1
  if e = 0 then
    if m = 0 then .zero neg else .fin neg ⟨m, 1, 1 - (f.bias : Int) - f.mbits⟩
  else
    match f.top with
    | .ieee =>
      if e = topE then (if m = 0 then .inf neg else .nan neg (!bitAt m (f.mbits - 1)))
      else .fin neg ⟨2 ^ f.mbits + m, 1, (e : Int) - f.bias - f.mbits⟩
    | .nanOnly =>
      if e = topE ∧ m = 2 ^ f.mbits - 1 then .nan neg false
      else .fin neg ⟨2 ^ f.mbits + m, 1, (e : Int) - f.bias - f.mbits⟩
    | .finite => .fin neg ⟨2 ^ f.mbits + m, 1, (e : Int) - f.bias - f.mbits⟩

/-- Reads a code with a subnormal replaced by a zero of the same sign (R32). -/
def FFmt.readFlush (f : FFmt) (c : Nat) : FVal :=
  if fld c f.mbits f.ebits = 0 then .zero (bitAt c f.magBits) else f.read c

/-- Multiplies a number by 2^e, as a fraction (numerator, denominator). -/
def scale (num den : Nat) (e : Int) : Nat × Nat :=
  match e with
  | .ofNat k => (num * 2 ^ k, den)
  | .negSucc k => (num, den * 2 ^ (k + 1))

/-- ⌊log2 x⌋ of a positive exact value. -/
def Mag.log2 (x : Mag) : Int :=
  let e0 : Int := (Nat.log2 x.num : Int) - Nat.log2 x.den + x.exp
  let p := scale x.num x.den (x.exp - e0)
  if p.2 ≤ p.1 then e0 else e0 - 1

/-- The rounding modes of Table 2.7; `sr` carries its 16-bit draw (R41). -/
inductive Rnd where
  | rne | rtz | rdn | rup
  | sr (g : Nat)
  deriving DecidableEq, Repr

/-- The mode a two-bit modifier field selects (Table 2.7). -/
def rndOf : Nat → Rnd
  | 0 => .rne
  | 1 => .rtz
  | 2 => .rdn
  | _ => .rup

/-- Rounds q + r/d, of sign `neg`, to an integer magnitude (Table 2.7, R41). -/
def roundUnit (mode : Rnd) (neg : Bool) (q r d : Nat) : Nat :=
  match mode with
  | .rne => if 2 * r > d ∨ (2 * r = d ∧ q % 2 = 1) then q + 1 else q
  | .rtz => q
  | .rdn => if neg ∧ r ≠ 0 then q + 1 else q
  | .rup => if ¬ neg ∧ r ≠ 0 then q + 1 else q
  | .sr g => if r * 65536 + g * d ≥ 65536 * d then q + 1 else q

/-- A magnitude rounded to a multiple of 2^Q: the multiple, and whether it is inexact. -/
def Mag.roundAt (x : Mag) (mode : Rnd) (neg : Bool) (Q : Int) : Nat × Bool :=
  let p := scale x.num x.den (x.exp - Q)
  (roundUnit mode neg (p.1 / p.2) (p.1 % p.2) p.2, p.1 % p.2 != 0)

/-- One rounding of a positive exact value into a format with an exponent unbounded above:
the magnitude code (beyond `maxFin` when it overflows), inexact, and tiny after rounding (R44). -/
def FFmt.roundMag (f : FFmt) (mode : Rnd) (neg : Bool) (x : Mag) : Nat × Bool × Bool :=
  let E := x.log2
  let emin : Int := 1 - f.bias
  let qmin : Int := emin - f.mbits
  if E < emin then
    let r := x.roundAt mode neg qmin
    let u := x.roundAt mode neg (E - f.mbits)
    (r.1, r.2, !(decide (E = emin - 1) && u.1 == 2 ^ (f.mbits + 1)))
  else
    let r := x.roundAt mode neg (E - f.mbits)
    ((E - emin).toNat * 2 ^ f.mbits + r.1, r.2, false)

/-- Flags (Table 2.12). -/
def flINX : Nat := 16
def flUNF : Nat := 8
def flOVF : Nat := 4
def flDZ : Nat := 2
def flINV : Nat := 1

/-- Joins flags. -/
def orFlags (a b : Nat) : Nat := a ||| b

/-- What an overflow delivers in a format with infinity, sat = 0 (Table 2.8). -/
def FFmt.ovfCode (f : FFmt) (mode : Rnd) (neg : Bool) : Nat :=
  match mode with
  | .rne => f.infCode
  | .sr _ => f.infCode
  | .rtz => f.maxFin
  | .rdn => if neg then f.infCode else f.maxFin
  | .rup => if neg then f.maxFin else f.infCode

/-- Rounds a finite non-zero value once into a format (R8 `round`, R44, "finite, overflow" of Table 2.8):
the code and the flags. -/
def FFmt.round (f : FFmt) (mode : Rnd) (sat neg : Bool) (x : Mag) : Nat × Nat :=
  let r := f.roundMag mode neg x
  if r.1 > f.maxFin then
    let c :=
      match f.top with
      | .ieee => if sat then f.maxFin else f.ovfCode mode neg
      | .nanOnly => if sat then f.maxFin else f.nanCode
      | .finite => f.maxFin
    (f.signed neg c, flOVF + flINX)
  else
    (f.signed neg r.1, (if r.2.1 then flINX else 0) + (if r.2.1 ∧ r.2.2 then flUNF else 0))

/-- A finite value as a signed number times a power of two: ± num · 2^exp, `den` being 1. -/
def dyadic (v : FVal) : Int × Int :=
  match v with
  | .fin n m => (if n then -(m.num : Int) else m.num, m.exp)
  | _ => (0, 0)

/-- A signed number times 2^e as a value; zero takes the sign given. -/
def ofDyadic (zneg : Bool) (m e : Int) : FVal :=
  if m = 0 then .zero zneg else .fin (decide (m < 0)) ⟨m.natAbs, 1, e⟩

/-- The exact sum of two dyadic numbers. -/
def dyAdd (a b : Int × Int) : Int × Int :=
  let e := min a.2 b.2
  (a.1 * 2 ^ (a.2 - e).toNat + b.1 * 2 ^ (b.2 - e).toNat, e)

/-- The default NaN of arithmetic, positive (R33), with INV when an operand signals. -/
def FFmt.nanResult (f : FFmt) (inv : Bool) : Nat × Nat := (f.nanCode, if inv then flINV else 0)

/-- A value delivered into a format: zeros and infinities as they are, finite values rounded once. -/
def FFmt.deliver (f : FFmt) (mode : Rnd) (sat : Bool) : FVal → Nat × Nat
  | .zero n => (f.signed n 0, 0)
  | .inf n => (f.signed n f.infCode, 0)
  | .nan _ s => f.nanResult s
  | .fin n x => f.round mode sat n x

/-- Whether a value is a NaN. -/
def FVal.isNaN : FVal → Bool
  | .nan _ _ => true
  | _ => false

/-- Whether a value is a signalling NaN. -/
def FVal.isSNaN : FVal → Bool
  | .nan _ s => s
  | _ => false

/-- The sign of an exact zero sum (R145): + except in RDN. -/
def zeroSumNeg (mode : Rnd) : Bool := mode = .rdn

/-- The sum of two values, by IEEE 754 (R32, R33, R145). -/
def FFmt.add (f : FFmt) (mode : Rnd) (sat : Bool) (a b : FVal) : Nat × Nat :=
  match a, b with
  | .nan _ s, v => f.nanResult (s || v.isSNaN)
  | v, .nan _ s => f.nanResult (s || v.isSNaN)
  | .inf m, .inf n => if m = n then (f.signed m f.infCode, 0) else f.nanResult true
  | .inf m, _ => (f.signed m f.infCode, 0)
  | _, .inf n => (f.signed n f.infCode, 0)
  | .zero m, .zero n => (f.signed (if m = n then m else zeroSumNeg mode) 0, 0)
  | x, y =>
    let s := dyAdd (dyadic x) (dyadic y)
    f.deliver mode sat (ofDyadic (zeroSumNeg mode) s.1 s.2)

/-- A value with its sign turned. -/
def FVal.flip : FVal → FVal
  | .zero n => .zero (!n)
  | .fin n m => .fin (!n) m
  | .inf n => .inf (!n)
  | .nan n s => .nan (!n) s

/-- The exact product of two values that are not NaN; ∞ · 0 gives none. -/
def mulExact (a b : FVal) : Option FVal :=
  let n := a.neg != b.neg
  match a, b with
  | .inf _, .zero _ => none
  | .zero _, .inf _ => none
  | .inf _, _ => some (.inf n)
  | _, .inf _ => some (.inf n)
  | .zero _, _ => some (.zero n)
  | _, .zero _ => some (.zero n)
  | .fin _ x, .fin _ y => some (.fin n ⟨x.num * y.num, x.den * y.den, x.exp + y.exp⟩)
  | v, _ => some v

/-- The product of two values, by IEEE 754. -/
def FFmt.mul (f : FFmt) (mode : Rnd) (sat : Bool) (a b : FVal) : Nat × Nat :=
  if a.isNaN ∨ b.isNaN then f.nanResult (a.isSNaN || b.isSNaN)
  else
    match mulExact a b with
    | none => f.nanResult true
    | some v => f.deliver mode sat v

/-- a · b + c with one rounding (R145). Infinity times zero sets INV also where the addend is a quiet NaN, which the spec leaves open
(DESIGN CHOICE, notes/assumptions/8.md). -/
def FFmt.fma (f : FFmt) (mode : Rnd) (sat : Bool) (a b c : FVal) : Nat × Nat :=
  if a.isNaN ∨ b.isNaN then f.nanResult (a.isSNaN || b.isSNaN || c.isSNaN || (mulExact a b).isNone && !a.isNaN && !b.isNaN)
  else
    match mulExact a b with
    | none => f.nanResult true
    | some p => f.add mode sat p c

/-- The quotient a / b, correctly rounded; a zero divisor of a finite non-zero number sets DZ (R111, Table 7.7). -/
def FFmt.div (f : FFmt) (mode : Rnd) (sat : Bool) (a b : FVal) : Nat × Nat :=
  let n := a.neg != b.neg
  match a, b with
  | .nan _ s, v => f.nanResult (s || v.isSNaN)
  | v, .nan _ s => f.nanResult (s || v.isSNaN)
  | .inf _, .inf _ => f.nanResult true
  | .zero _, .zero _ => f.nanResult true
  | .inf _, _ => (f.signed n f.infCode, 0)
  | _, .inf _ => (f.signed n 0, 0)
  | .zero _, _ => (f.signed n 0, 0)
  | .fin _ _, .zero _ => (f.signed n f.infCode, flDZ)
  | .fin _ x, .fin _ y => f.round mode sat n ⟨x.num * y.den, x.den * y.num, x.exp - y.exp⟩

/-- How two values compare: less, equal, greater; none when unordered. -/
def fcompare (a b : FVal) : Option Ordering :=
  let val : FVal → Int × Int := fun v => dyadic v
  match a, b with
  | .nan _ _, _ => none
  | _, .nan _ _ => none
  | .inf m, .inf n => some (if m = n then .eq else if m then .lt else .gt)
  | .inf m, _ => some (if m then .lt else .gt)
  | _, .inf n => some (if n then .gt else .lt)
  | x, y =>
    let d := dyAdd (val x) (-(val y).1, (val y).2)
    some (if d.1 < 0 then .lt else if d.1 = 0 then .eq else .gt)

/-- The code of a value read from the same format. -/
def FFmt.code (f : FFmt) (v : FVal) : Nat := (f.deliver .rne false v).1

/-- The smaller (or larger) of two values: −0 < +0, one quiet NaN gives the other, a signalling NaN the default NaN with INV (R145). -/
def FFmt.minmax (f : FFmt) (larger : Bool) (a b : FVal) : Nat × Nat :=
  if a.isSNaN ∨ b.isSNaN then f.nanResult true
  else if a.isNaN ∧ b.isNaN then f.nanResult false
  else if a.isNaN then (f.code b, 0)
  else if b.isNaN then (f.code a, 0)
  else
    let aFirst : Bool :=
      match fcompare a b with
      | some .lt => true
      | some .gt => false
      | _ => a.neg
    ((if aFirst != larger then f.code a else f.code b), 0)

end Sys2Proof.Machine
end

