-- ==== Sys2Proof/Machine/Formats.lean ====
section
/-! DEFINITION. The format codes of Table 2.1, conversion (R43 to R47), twin-shift (R34, R35), block scales (R36 to R38)
and stochastic draws (R41, R42). -/

namespace Sys2Proof.Machine

/-- Width of a format (Table 2.1). -/
def fmtWidth : Nat → Nat
  | 0x4 => 8 | 0x5 => 8 | 0x6 => 8 | 0x7 => 8 | 0x8 => 8 | 0x9 => 8
  | 0xA => 4 | 0xB => 4 | 0xC => 8
  | 0xD => 32 | 0xE => 32 | 0xF => 32
  | _ => 16

/-- Whether a format is a signed or unsigned integer format. -/
def fmtIsInt : Nat → Bool
  | 0x0 => true | 0x1 => true | 0x4 => true | 0x5 => true | 0xB => true | 0xE => true | 0xF => true
  | _ => false

/-- Whether an integer format is signed (Table 2.2). -/
def fmtSigned : Nat → Bool
  | 0x0 => true | 0x4 => true | 0xB => true | 0xE => true
  | _ => false

/-- Whether a format is 32 bits wide, so that its operands are pairs (R28). -/
def fmtPair (f : Nat) : Bool := fmtWidth f == 32

/-- Smallest value of an integer format (Table 2.2). -/
def fmtMin (f : Nat) : Int := if fmtSigned f then -(2 ^ (fmtWidth f - 1) : Nat) else 0
/-- Largest value of an integer format (Table 2.2). -/
def fmtMax (f : Nat) : Int := if fmtSigned f then (2 ^ (fmtWidth f - 1) : Nat) - 1 else (2 ^ fmtWidth f : Nat) - 1

/-- An integer format's code as an integer. -/
def fmtInt (f c : Nat) : Int := if fmtSigned f then toSigned (fmtWidth f) c else (c % 2 ^ fmtWidth f : Nat)

/-- An exact integer delivered into an integer format, saturated or wrapped (R29). -/
def fitInt (f : Nat) (sat : Bool) (x : Int) : Nat :=
  if sat then wrapInt (fmtWidth f) (max (fmtMin f) (min (fmtMax f) x)) else wrapInt (fmtWidth f) x

/-- A finite value rounded into an integer format: out of range gives the nearer end and INV (Table 2.8). -/
def roundToInt (f : Nat) (mode : Rnd) (neg : Bool) (x : Mag) : Nat × Nat :=
  let r := x.roundAt mode neg 0
  let v : Int := if neg then -(r.1 : Int) else r.1
  if v < fmtMin f then (wrapInt (fmtWidth f) (fmtMin f), flINV)
  else if v > fmtMax f then (wrapInt (fmtWidth f) (fmtMax f), flINV)
  else (wrapInt (fmtWidth f) v, if r.2 then flINX else 0)

/-- Table 2.8: a source value converted into the format of code `dst`. -/
def convFVal (dst : Nat) (mode : Rnd) (sat : Bool) (v : FVal) : Nat × Nat :=
  match ffmt dst with
  | some f =>
    match v with
    | .zero n => (f.signed n 0, 0)
    | .fin n x => f.round mode sat n x
    | .inf n =>
      match f.top with
      | .ieee => (f.signed n f.infCode, 0)
      | .nanOnly => (f.signed n (if sat then f.maxFin else f.nanCode), flINV)
      | .finite => (f.signed n f.maxFin, flINV)
    | .nan n s =>
      match f.top with
      | .finite => (f.signed n f.maxFin, flINV)
      | _ => (f.signed n f.nanCode, if s then flINV else 0)
  | none =>
    match v with
    | .zero _ => (0, 0)
    | .fin n x => roundToInt dst mode n x
    | .inf n => (wrapInt (fmtWidth dst) (if n then fmtMin dst else fmtMax dst), flINV)
    | .nan _ _ => (0, flINV)

/-- An integer as a value. -/
def ofInt (x : Int) : FVal := ofDyadic false x 0

/-- `cvt` of one value (R43 to R46). -/
def convert (dst src : Nat) (mode : Rnd) (sat : Bool) (c : Nat) : Nat × Nat :=
  match ffmt src with
  | some f => convFVal dst mode sat (f.readFlush c)
  | none =>
    if fmtIsInt dst then (fitInt dst sat (fmtInt src c), 0)
    else convFVal dst mode sat (ofInt (fmtInt src c))

/-- The divisor of `cvts`: a positive normal f32 number, or nothing (R47). -/
def divisorOf (d : Nat) : Option Mag :=
  match f32.readFlush d with
  | .fin false m => some m
  | _ => none

/-- `cvts` of one value by a divisor (R47). An invalid divisor makes every value a quiet NaN of its source's sign;
INV from the divisor is set once by the instruction. -/
def convertScaled (dst src : Nat) (mode : Rnd) (sat : Bool) (d : Option Mag) (c : Nat) : Nat × Nat :=
  match ffmt src with
  | none => (0, 0)
  | some f =>
    let x := f.readFlush c
    match d with
    | none => ((convFVal dst mode sat (.nan x.neg false)).1, 0)
    | some m =>
      match x with
      | .fin n y => convFVal dst mode sat (.fin n ⟨y.num * m.den, y.den * m.num, y.exp - m.exp⟩)
      | v => convFVal dst mode sat v

/-! ## Stochastic draws (R42) -/

/-- One step of the stochastic state. -/
def srStep (st : Nat) : Nat :=
  let a := (st ^^^ (st <<< 13)) % 2 ^ 32
  let b := a ^^^ (a >>> 17)
  (b ^^^ (b <<< 5)) % 2 ^ 32

/-- `n` draws from a state: the draws in order, and the state after them. -/
def srDraws : Nat → Nat → List Nat × Nat
  | 0, st => ([], st)
  | n + 1, st =>
    let s1 := srStep st
    let r := srDraws n s1
    (s1 / 65536 :: r.1, r.2)

/-- The rounding mode of cvtctl.rnd for a value whose draw is `g` (R40). -/
def cvtRnd (rnd g : Nat) : Rnd := if rnd = 4 then .sr g else rndOf rnd

/-! ## Twin-shift (R34, R35) -/

/-- 2^7 times the value of a ts8 code at scale 1 (R34). -/
def ts8Val (c : Nat) : Int :=
  let a : Int := (2 ^ (7 - fld c 4 3) : Nat)
  let b : Int := (2 ^ (7 - fld c 0 3) : Nat)
  (if bitAt c 7 then -a else a) + (if bitAt c 3 then -b else b)

/-- Whether code `c` is a better encoding than code `b` of the number N/D (R35: nearest, then the smaller magnitude,
then the smaller shift1, shift2, then sign1 = 0). -/
def ts8Better (N : Int) (D : Nat) (c b : Nat) : Bool :=
  let dist : Nat → Nat := fun k => (ts8Val k * D - N).natAbs
  let key : Nat → List Nat := fun k => [dist k, (ts8Val k).natAbs, fld k 4 3, fld k 0 3, fld k 7 1]
  decide (List.Lex (· < ·) (key c) (key b))

/-- The canonical ts8 code of N/D, in units of 2^−7 (R35). -/
def ts8Nearest (N : Int) (D : Nat) : Nat :=
  (List.range 256).foldl (fun b c => if ts8Better N D c b then c else b) 0

/-- R35: the canonical code of a value at scale 1, with its flags. -/
def ts8Encode (v : FVal) : Nat × Nat :=
  match v with
  | .zero _ => (0x08, 0)
  | .inf _ => (0x08, flINV)
  | .nan _ _ => (0x08, flINV)
  | .fin n x =>
    let p := scale x.num x.den (x.exp + 7)
    if p.1 > 256 * p.2 then (if n then 0x88 else 0x00, flOVF + flINX)
    else
      let N : Int := if n then -(p.1 : Int) else p.1
      let c := ts8Nearest N p.2
      (c, if ts8Val c * p.2 = N then 0 else flINX)

/-- A ts8 code as a value at scale 1. The sixteen zero codes read as +0, for R34 gives their zero no sign (DESIGN CHOICE,
notes/assumptions/69.md). -/
def ts8Read (c : Nat) : FVal := ofDyadic false (ts8Val c) (-7)

/-! ## Block scale (R36 to R38) -/

/-- emax of a block-scaled element format (Table 2.5). -/
def blkEmax : Nat → Option Int
  | 0x6 => some 8 | 0x7 => some 15 | 0x8 => some 4 | 0x9 => some 2 | 0xA => some 2 | 0x4 => some 0 | 0xC => some 1
  | _ => none

/-- A value with its exponent moved by `k`: x · 2^k. -/
def FVal.mulPow (v : FVal) (k : Int) : FVal :=
  match v with
  | .fin n m => .fin n ⟨m.num, m.den, m.exp + k⟩
  | w => w

/-- The block-scaled element of a value already divided by its scale: the clamp sets no flag (R38). -/
def blkElement (fmt : Nat) (mode : Rnd) (v : FVal) : Nat × Nat :=
  match v with
  | .fin n x =>
    if fmt = 0xC then
      let r := ts8Encode v
      (r.1, if r.2 &&& flOVF ≠ 0 then 0 else r.2)
    else
      match ffmt fmt with
      | some f =>
        let r := f.roundMag mode n x
        if r.1 > f.maxFin then (f.signed n f.maxFin, 0)
        else (f.signed n r.1, (if r.2.1 then flINX else 0) + (if r.2.1 ∧ r.2.2 then flUNF else 0))
      | none =>
        let r := x.roundAt mode n (-6)
        let q : Int := if n then -(r.1 : Int) else r.1
        if q > 127 then (127, 0) else if q < -128 then (128, 0)
        else (wrapInt 8 q, if r.2 then flINX else 0)
  | .zero n => if fmt = 0xC then (0x08, 0) else if fmt = 0x4 then (0, 0) else ((ffmt fmt).elim 0 (fun f => f.signed n 0), 0)
  | _ => (0, 0)

/-- The larger of two positive magnitudes. -/
def Mag.max (a b : Mag) : Mag :=
  match fcompare (.fin false ⟨a.num, 1, a.exp⟩) (.fin false ⟨b.num, 1, b.exp⟩) with
  | some .lt => b
  | _ => a

/-- The largest magnitude of a block's finite values. -/
def blkMax (vs : List FVal) : Option Mag :=
  vs.foldl (fun m v =>
    match v with
    | .fin _ x => (match m with | none => some x | some y => some (y.max x))
    | _ => m) none

/-- Whether a value is an infinity or a NaN. -/
def FVal.special : FVal → Bool
  | .inf _ => true
  | .nan _ _ => true
  | _ => false

/-- R38: the scale and the elements of one block (values already flushed), with its flags.
`modes` gives each value's rounding mode in order. In a block with an infinity or a NaN every element is code 0, for ts8 too (DESIGN CHOICE,
notes/assumptions/69.md). -/
def quantBlock (fmt : Nat) (vs : List FVal) (modes : List Rnd) : Nat × List Nat × Nat :=
  let emax := (blkEmax fmt).getD 0
  if vs.any FVal.special then (511, vs.map (fun _ => 0), flINV)
  else
    match blkMax vs with
    | none => (0, vs.map (fun _ => if fmt = 0xC then 0x08 else 0), 0)
    | some m =>
      let s : Int := max 0 (min 510 (m.log2 - emax + 255))
      let es := (vs.zip modes).map (fun p => blkElement fmt p.2 (p.1.mulPow (255 - s)))
      (s.toNat, es.map (·.1), es.foldl (fun a e => orFlags a e.2) 0)

/-- An element of a block-scaled format read by its value, before the scale (R37, R38). -/
def blkRead (fmt c : Nat) : FVal :=
  if fmt = 0xC then ts8Read (c % 256)
  else
    match ffmt fmt with
    | some f => f.read (c % 2 ^ (f.magBits + 1))
    | none => ofDyadic false (toSigned 8 c) (-6)

/-- `dqblk` of one element under a bs9 scale (R38). -/
def dequant (dst fmt : Nat) (mode : Rnd) (sat : Bool) (s c : Nat) : Nat × Nat :=
  if s % 512 = 511 then ((ffmt dst).elim 0 FFmt.nanCode, flINV)
  else convFVal dst mode sat ((blkRead fmt c).mulPow ((s % 512 : Nat) - 255))

/-! ## Values of a tile (R26, R153) -/

/-- Values per 16-bit element of a format of at most 16 bits. -/
def perElem (fmt : Nat) : Nat := 16 / fmtWidth fmt

/-- Values per row (R153). -/
def rowVals (fmt : Nat) : Nat := if fmtPair fmt then 64 else 64 * perElem fmt

/-- Value `v` (row-major) of a tile or pair. -/
def valAt (fmt : Nat) (lo hi : Tile) (v : Nat) : Nat :=
  if fmtPair fmt then pairAt lo hi v
  else elemAt lo (v / perElem fmt) / 2 ^ (fmtWidth fmt * (v % perElem fmt)) % 2 ^ fmtWidth fmt

/-- A number packed from values of width `w`, the first lowest. -/
def packVals (w : Nat) : List Nat → Nat
  | [] => 0
  | v :: r => v % 2 ^ w + 2 ^ w * packVals w r

/-- The two tiles of a list of values in a format; a tile format leaves the high tile zero. -/
def tilesOf (fmt : Nat) (vs : List Nat) : Tile × Tile :=
  if fmtPair fmt then
    (BitVec.ofNat 16384 (packVals 16 vs), BitVec.ofNat 16384 (packVals 16 (vs.map (· / 65536))))
  else (BitVec.ofNat 16384 (packVals (fmtWidth fmt) vs), 0#16384)

end Sys2Proof.Machine
end

