-- ==== Sys2Proof/Machine/Vector.lean ====
section
/-! DEFINITION. The vector ALUs va0 and va1 (R133 to R145, Tables 7.2 and 7.3): one definition per operation. -/

namespace Sys2Proof.Machine

/-! ## Formats and modifiers (Table 7.2) -/

/-- Set I of Table 7.2. -/
def fmtsI : List Nat := [0xE, 0xF, 0x0, 0x1, 0x4, 0x5, 0xB]
/-- Set M. -/
def fmtsM : List Nat := [0xE, 0xF, 0x0, 0x1, 0x4, 0x5]
/-- Set S. -/
def fmtsS : List Nat := [0xE, 0x0, 0x4, 0xB]
/-- Set W. -/
def fmtsW : List Nat := [0xE, 0xF, 0x0, 0x1]
/-- Set F. -/
def fmtsF : List Nat := [0xD, 0x2, 0x3]
/-- Every code of Table 2.1. -/
def fmtsAny : List Nat := List.range 16

/-- What a row of Table 7.2 allows: formats, a saturate bit, a rounding field up to `rndMax`, a mask. -/
structure ModRule where
  fmts : List Nat
  sat : List Nat
  rndMax : Nat
  rndFmts : List Nat
  mask : Bool

/-- Whether a modifier fits its row: sat only in formats of `sat`, rounding only in those of `rndFmts`. -/
def ModRule.ok (r : ModRule) (fmt : Nat) (sat : Bool) (rnd : Nat) (mask : Bool) : Bool :=
  r.fmts.contains fmt && (!sat || r.sat.contains fmt) && (rnd == 0 || (decide (rnd ≤ r.rndMax) && r.rndFmts.contains fmt)) &&
    (!mask || r.mask)

/-! ## Mapping a function over values -/

/-- The two tiles of an operand read as the format wants them. -/
def PVal.tiles (v : PVal) : Tile × Tile := (v.asTile, v.asHigh)

/-- The element a value lies in, which its mask bit governs (R137). -/
def maskOn (mask : Option Tile) (e : Nat) : Bool :=
  match mask with
  | some m => elemAt m e % 2 == 1
  | none => true

/-- A value-by-value operation on a format: the two result tiles and the flags of the values produced (R136, R137). -/
def mapVals (fmt : Nat) (mask : Option Tile) (f : Nat → Nat → Nat → Nat × Nat) (a b c : Tile × Tile) : (Tile × Tile) × Nat :=
  let n := if fmtPair fmt then 1 else perElem fmt
  let rs := (List.range (1024 * n)).map (fun v =>
    let r := f (valAt fmt a.1 a.2 v) (valAt fmt b.1 b.2 v) (valAt fmt c.1 c.2 v)
    (r.1, if maskOn mask (v / n) then r.2 else 0))
  (tilesOf fmt (rs.map (·.1)), rs.foldl (fun x r => x ||| r.2) 0)

/-- The value of a vector result, of the kind its format gives (R63). -/
def vecVal (pair : Bool) (t : Tile × Tile) : PVal := if pair then ⟨.pair, t.1, t.2⟩ else ⟨.tile, t.1, 0⟩

/-- Bound and interval of a vector operation, 32-bit ones taking B + I and 2 I (R76). -/
def vecTime (wide : Bool) (b ii : Nat) : Nat × Nat := if wide then (b + ii, 2 * ii) else (b, ii)

/-- The exceptions a vector operation may trap on (R50). -/
def vecEnables (s : State) : Nat := s.me.fmts.fpctl % 32

/-- A vector trigger: its modifier's legality, the mask from operand port 2, and the result `f` forms from T, O and port 2. -/
def vecSem (fu tn on fmt : Nat) (mask legal readO : Bool) (b ii : Nat) (fp : Bool)
    (f : Option Tile → Tile × Tile → Tile × Tile → Tile × Tile → (Tile × Tile) × Nat) (s l : State) : Sem :=
  let wide := fmtPair fmt
  let w : Want := if wide then .pair else .tile
  let tm := vecTime wide b ii
  let c := (operand2 l fu).tiles
  let m := if mask then some c.1 else none
  let r := f m (s.readName s.cur tn w).tiles (operand s l fu on (if readO then w else .any)).tiles c
  trigSem s l fu tm.2 tn on w (if readO then w else .any) (candIf (!legal) illegalCombination)
    (fun x => x.send fu tm.1 tm.2 (some (vecVal wide r.1)) m r.2 (vecEnables s) none fp)

/-- A va operation of class 0x2 that works value by value. -/
def vaSem (o : VaOps) (r : ModRule) (readO : Bool) (b : Nat) (fp : Bool) (f : Nat → Nat → Nat → Nat × Nat) : State → State → Sem :=
  vecSem (3 + o.u) o.t o.o o.fmt o.mask (r.ok o.fmt o.sat o.rnd o.mask) readO b 4 fp (fun m => mapVals o.fmt m f)

/-! ## Integer operations (R140) -/

/-- An integer operation on exact integers, delivered by `fit`. -/
def vaInt (o : VaOps) (r : ModRule) (readO : Bool) (b : Nat) (f : Int → Int → Int → Int) : State → State → Sem :=
  vaSem o r readO b false (fun x y z => (fitInt o.fmt o.sat (f (fmtInt o.fmt x) (fmtInt o.fmt y) (fmtInt o.fmt z)), 0))

/-- An integer operation on the values' bits. -/
def vaBits (o : VaOps) (r : ModRule) (readO : Bool) (f : Nat → Nat → Nat) : State → State → Sem :=
  vaSem o r readO 6 false (fun x y _ => (f x y % 2 ^ fmtWidth o.fmt, 0))

/-- round_int(x / 2^k, mode) (R140). -/
def roundShift (mode : Rnd) (x : Int) (k : Nat) : Int :=
  let q := roundUnit mode (decide (x < 0)) (x.natAbs / 2 ^ k) (x.natAbs % 2 ^ k) (2 ^ k)
  if x < 0 then -(q : Int) else q

/-- Rows add, sub, min, max, absd of Table 7.2. -/
def ruleI : ModRule := ⟨fmtsI, fmtsI, 0, [], true⟩
/-- Row avg. -/
def ruleAvg : ModRule := ⟨fmtsI, fmtsI, 3, fmtsI, true⟩
/-- Rows mul, mulh. -/
def ruleM : ModRule := ⟨fmtsM, fmtsM, 0, [], true⟩
/-- Row mulhr. -/
def ruleMulhr : ModRule := ⟨fmtsM, fmtsM, 3, fmtsM, true⟩
/-- Row mad. -/
def ruleMad : ModRule := ⟨fmtsM, fmtsM, 0, [], false⟩
/-- Rows abs, neg. -/
def ruleS : ModRule := ⟨fmtsS, fmtsS, 0, [], true⟩
/-- Row shl. -/
def ruleShl : ModRule := ⟨fmtsW, fmtsW, 0, [], true⟩
/-- Row shlr. -/
def ruleShlr : ModRule := ⟨fmtsW, fmtsW, 3, fmtsW, true⟩
/-- Rows shr, sra, popc, clz. -/
def ruleW : ModRule := ⟨fmtsW, [], 0, [], true⟩
/-- Rows and, or, xor, not, mov. -/
def ruleAny : ModRule := ⟨fmtsAny, [], 0, [], true⟩
/-- Row sel. -/
def ruleSel : ModRule := ⟨fmtsAny, [], 0, [], false⟩
/-- Row fshl, fshr in class 0x2. -/
def ruleFunnel : ModRule := ⟨[0, 1], [], 0, [], false⟩
/-- The comparisons. -/
def ruleCmp : ModRule := ⟨fmtsI ++ fmtsF, [], 0, [], true⟩
/-- Row clamp. -/
def ruleClamp : ModRule := ⟨fmtsI ++ fmtsF, [], 0, [], false⟩
/-- Rows fadd, fsub, fmul. -/
def ruleF : ModRule := ⟨fmtsF, fmtsF, 3, fmtsF, true⟩
/-- Rows fmin, fmax. -/
def ruleFmin : ModRule := ⟨fmtsF, [], 0, [], true⟩
/-- Row fma. -/
def ruleFma : ModRule := ⟨fmtsF, fmtsF, 3, fmtsF, false⟩

def vaAddSem (o : VaOps) : State → State → Sem := vaInt o ruleI true 6 (fun a b _ => a + b)
def vaSubSem (o : VaOps) : State → State → Sem := vaInt o ruleI true 6 (fun a b _ => a - b)
def vaMulSem (o : VaOps) : State → State → Sem := vaInt o ruleM true 6 (fun a b _ => a * b)
def vaMulhSem (o : VaOps) : State → State → Sem := vaInt o ruleM true 6 (fun a b _ => a * b / (2 ^ fmtWidth o.fmt : Nat))
def vaMulhrSem (o : VaOps) : State → State → Sem :=
  vaInt o ruleMulhr true 6 (fun a b _ =>
    roundShift (rndOf o.rnd) (a * b) (if fmtSigned o.fmt then fmtWidth o.fmt - 1 else fmtWidth o.fmt))
def vaMadSem (o : VaOps) : State → State → Sem := vaInt o ruleMad true 8 (fun a b c => a * b + c)
def vaAbsSem (o : VaOps) : State → State → Sem := vaInt o ruleS false 6 (fun a _ _ => a.natAbs)
def vaNegSem (o : VaOps) : State → State → Sem := vaInt o ruleS false 6 (fun a _ _ => -a)
def vaMinSem (o : VaOps) : State → State → Sem := vaInt o ruleI true 6 (fun a b _ => min a b)
def vaMaxSem (o : VaOps) : State → State → Sem := vaInt o ruleI true 6 (fun a b _ => max a b)
def vaAvgSem (o : VaOps) : State → State → Sem := vaInt o ruleAvg true 6 (fun a b _ => roundShift (rndOf o.rnd) (a + b) 1)
def vaAbsdSem (o : VaOps) : State → State → Sem := vaInt o ruleI true 6 (fun a b _ => (a - b).natAbs)
def vaShlSem (o : VaOps) : State → State → Sem :=
  vaInt o ruleShl true 6 (fun a b _ => a * (2 ^ (b % (fmtWidth o.fmt : Int)).toNat : Nat))
def vaShrSem (o : VaOps) : State → State → Sem := vaBits o ruleW true (fun a b => a / 2 ^ (b % fmtWidth o.fmt))
def vaSraSem (o : VaOps) : State → State → Sem :=
  vaBits o ruleW true (fun a b => wrapInt (fmtWidth o.fmt) (toSigned (fmtWidth o.fmt) a / (2 ^ (b % fmtWidth o.fmt) : Nat)))
def vaShlrSem (o : VaOps) : State → State → Sem :=
  vaInt o ruleShlr true 6 (fun a b _ => roundShift (rndOf o.rnd) a (b % (fmtWidth o.fmt : Int)).toNat)
def vaPopcSem (o : VaOps) : State → State → Sem := vaBits o ruleW false (fun a _ => popcount (fmtWidth o.fmt) a)
def vaClzSem (o : VaOps) : State → State → Sem := vaBits o ruleW false (fun a _ => leadZeros (fmtWidth o.fmt) a)

/-- The immediate forms work on 16-bit elements, unmasked (R65). -/
def vaImmSem (o : VaImmOps) (f : Nat → Nat → Nat → Nat) : State → State → Sem :=
  vecSem (3 + o.u) o.t o.o 0x1 false true true 6 4 false (fun m => mapVals 0x1 m (fun a b c => (f a b c % 65536, 0)))

/-- `mulsh`: 16-bit product, shifted with ties upward (R141). -/
def vaMulshSem (o : VaImmOps) : State → State → Sem :=
  vaImmSem o (fun a b _ =>
    let fmt := if bitAt o.imm 5 then 0x1 else 0x0
    let p := fmtInt fmt a * fmtInt fmt b
    let sh := fld o.imm 0 5
    fitInt fmt (bitAt o.imm 6) (if sh = 0 then p else (p + (2 ^ (sh - 1) : Nat)) / (2 ^ sh : Nat)))

/-! ## Logic, funnel shifts, comparison and selection (R142 to R144) -/

/-- A bitwise operation on whole tiles. -/
def vaLogic (o : VaOps) (readO : Bool) (f : Tile → Tile → Tile) : State → State → Sem :=
  vecSem (3 + o.u) o.t o.o o.fmt o.mask (ruleAny.ok o.fmt o.sat o.rnd o.mask) readO 6 4 false
    (fun _ a b _ => ((f a.1 b.1, if fmtPair o.fmt then f a.2 b.2 else 0), 0))

def vaAndSem (o : VaOps) : State → State → Sem := vaLogic o true (fun a b => a &&& b)
def vaOrSem (o : VaOps) : State → State → Sem := vaLogic o true (fun a b => a ||| b)
def vaXorSem (o : VaOps) : State → State → Sem := vaLogic o true (fun a b => a ^^^ b)
def vaNotSem (o : VaOps) : State → State → Sem := vaLogic o false (fun a _ => ~~~a)
def vaMovSem (o : VaOps) : State → State → Sem := vaLogic o false (fun a _ => a)

/-- The bits where (t, o, u) is the combination `i` of R142. -/
def minterm (i : Nat) (t o u : Tile) : Tile :=
  (if bitAt i 2 then t else ~~~t) &&& (if bitAt i 1 then o else ~~~o) &&& (if bitAt i 0 then u else ~~~u)

/-- `lut3`: bit by bit, imm[4 t + 2 o + u]. -/
def lut3 (imm : Nat) (t o u : Tile) : Tile :=
  (List.range 8).foldl (fun a i => if bitAt imm i then a ||| minterm i t o u else a) 0

def vaLut3Sem (o : VaImmOps) : State → State → Sem :=
  vecSem (3 + o.u) o.t o.o 0x1 false true true 6 4 false (fun _ a b c => ((lut3 o.imm a.1 b.1 c.1, 0), 0))

/-- `fshl` of one element by `n` (R143). -/
def funnelLeft (n t o : Nat) : Nat := if n = 0 then t else (t * 2 ^ n + o / 2 ^ (16 - n)) % 65536
/-- `fshr` of one element by `n`. -/
def funnelRight (n t o : Nat) : Nat := if n = 0 then t else (t / 2 ^ n + o * 2 ^ (16 - n)) % 65536

def vaFshlSem (o : VaOps) : State → State → Sem := vaSem o ruleFunnel true 6 false (fun a b c => (funnelLeft (c % 16) a b, 0))
def vaFshrSem (o : VaOps) : State → State → Sem := vaSem o ruleFunnel true 6 false (fun a b c => (funnelRight (c % 16) a b, 0))
def vaFshlImmSem (o : VaImmOps) : State → State → Sem := vaImmSem o (fun a b _ => funnelLeft (o.imm % 16) a b)
def vaFshrImmSem (o : VaImmOps) : State → State → Sem := vaImmSem o (fun a b _ => funnelRight (o.imm % 16) a b)

/-- How two values of a format compare, with INV for a signalling NaN (R144). -/
def cmpVals (fmt a b : Nat) : Option Ordering × Nat :=
  match ffmt fmt with
  | some f =>
    let x := f.readFlush a
    let y := f.readFlush b
    (fcompare x y, if x.isSNaN || y.isSNaN then flINV else 0)
  | none => (some (compare (fmtInt fmt a) (fmtInt fmt b)), 0)

/-- A comparison: all ones where `p` holds. -/
def vaCmp (o : VaOps) (p : Option Ordering → Bool) : State → State → Sem :=
  vaSem o ruleCmp true 6 (fmtsF.contains o.fmt) (fun a b _ =>
    let r := cmpVals o.fmt a b
    (if p r.1 then 2 ^ fmtWidth o.fmt - 1 else 0, r.2))

def vaCmpeqSem (o : VaOps) : State → State → Sem := vaCmp o (fun r => r == some .eq)
def vaCmpneSem (o : VaOps) : State → State → Sem := vaCmp o (fun r => r != some .eq)
def vaCmpltSem (o : VaOps) : State → State → Sem := vaCmp o (fun r => r == some .lt)
def vaCmpleSem (o : VaOps) : State → State → Sem := vaCmp o (fun r => r == some .lt || r == some .eq)

/-- `sel`: T where bit 0 of port 2's element is 1, else O. -/
def vaSelSem (o : VaOps) : State → State → Sem :=
  vecSem (3 + o.u) o.t o.o o.fmt o.mask (ruleSel.ok o.fmt o.sat o.rnd o.mask) true 6 4 false
    (fun _ a b c =>
      let m := elemMask c.1
      ((mixTile m b.1 a.1, if fmtPair o.fmt then mixTile m b.2 a.2 else 0), 0))

/-- min or max of two values of a format, with flags. -/
def minmaxVals (fmt : Nat) (larger : Bool) (a b : Nat) : Nat × Nat :=
  match ffmt fmt with
  | some f => f.minmax larger (f.readFlush a) (f.readFlush b)
  | none => (if larger then (if fmtInt fmt a ≤ fmtInt fmt b then b else a) else (if fmtInt fmt a ≤ fmtInt fmt b then a else b), 0)

/-- `clamp`: min(max(T, O), c). -/
def vaClampSem (o : VaOps) : State → State → Sem :=
  vaSem o ruleClamp true 6 (fmtsF.contains o.fmt) (fun a b c =>
    let m := minmaxVals o.fmt true a b
    let r := minmaxVals o.fmt false m.1 c
    (r.1, m.2 ||| r.2))

/-! ## Floating-point arithmetic (R145) -/

/-- A floating-point operation on flushed values; a format outside F is refused before it counts. -/
def vaFloat (o : VaOps) (r : ModRule) (b : Nat) (f : FFmt → FVal → FVal → FVal → Nat × Nat) : State → State → Sem :=
  let g := (ffmt o.fmt).getD f16
  vaSem o r true b true (fun x y z => f g (g.readFlush x) (g.readFlush y) (g.readFlush z))

def vaFaddSem (o : VaOps) : State → State → Sem := vaFloat o ruleF 6 (fun g a b _ => g.add (rndOf o.rnd) o.sat a b)
def vaFsubSem (o : VaOps) : State → State → Sem := vaFloat o ruleF 6 (fun g a b _ => g.add (rndOf o.rnd) o.sat a b.flip)
def vaFmulSem (o : VaOps) : State → State → Sem := vaFloat o ruleF 6 (fun g a b _ => g.mul (rndOf o.rnd) o.sat a b)
def vaFmaSem (o : VaOps) : State → State → Sem := vaFloat o ruleFma 8 (fun g a b c => g.fma (rndOf o.rnd) o.sat a b c)
def vaFminSem (o : VaOps) : State → State → Sem := vaFloat o ruleFmin 6 (fun g a b _ => g.minmax false a b)
def vaFmaxSem (o : VaOps) : State → State → Sem := vaFloat o ruleFmin 6 (fun g a b _ => g.minmax true a b)

/-! ## The rows -/

/-- VA_ADD: Element-wise integer add with wrap or saturate. -/
def execVaAdd (o : VaOps) (s : State) : Host.Outcome State Fault Refusal :=
  issueOne 4 (vaAddSem o) s
/-- VA_SUB: Element-wise integer subtract. -/
def execVaSub (o : VaOps) (s : State) : Host.Outcome State Fault Refusal :=
  issueOne 4 (vaSubSem o) s
/-- VA_MUL: Element-wise integer multiply. -/
def execVaMul (o : VaOps) (s : State) : Host.Outcome State Fault Refusal :=
  issueOne 4 (vaMulSem o) s
/-- VA_MULH: High half of the element product. -/
def execVaMulh (o : VaOps) (s : State) : Host.Outcome State Fault Refusal :=
  issueOne 4 (vaMulhSem o) s
/-- VA_MULHR: Rounded fixed-point product. -/
def execVaMulhr (o : VaOps) (s : State) : Host.Outcome State Fault Refusal :=
  issueOne 4 (vaMulhrSem o) s
/-- VA_MAD: Element multiply-add with operand port 2. -/
def execVaMad (o : VaOps) (s : State) : Host.Outcome State Fault Refusal :=
  issueOne 4 (vaMadSem o) s
/-- VA_ABS: Element absolute value. -/
def execVaAbs (o : VaOps) (s : State) : Host.Outcome State Fault Refusal :=
  issueOne 4 (vaAbsSem o) s
/-- VA_NEG: Element negation. -/
def execVaNeg (o : VaOps) (s : State) : Host.Outcome State Fault Refusal :=
  issueOne 4 (vaNegSem o) s
/-- VA_MIN: Element minimum. -/
def execVaMin (o : VaOps) (s : State) : Host.Outcome State Fault Refusal :=
  issueOne 4 (vaMinSem o) s
/-- VA_MAX: Element maximum. -/
def execVaMax (o : VaOps) (s : State) : Host.Outcome State Fault Refusal :=
  issueOne 4 (vaMaxSem o) s
/-- VA_AVG: Rounded element average. -/
def execVaAvg (o : VaOps) (s : State) : Host.Outcome State Fault Refusal :=
  issueOne 4 (vaAvgSem o) s
/-- VA_ABSD: Element absolute difference. -/
def execVaAbsd (o : VaOps) (s : State) : Host.Outcome State Fault Refusal :=
  issueOne 4 (vaAbsdSem o) s
/-- VA_AND: Bitwise and of tiles. -/
def execVaAnd (o : VaOps) (s : State) : Host.Outcome State Fault Refusal :=
  issueOne 4 (vaAndSem o) s
/-- VA_OR: Bitwise or of tiles. -/
def execVaOr (o : VaOps) (s : State) : Host.Outcome State Fault Refusal :=
  issueOne 4 (vaOrSem o) s
/-- VA_XOR: Bitwise exclusive-or of tiles. -/
def execVaXor (o : VaOps) (s : State) : Host.Outcome State Fault Refusal :=
  issueOne 4 (vaXorSem o) s
/-- VA_NOT: Bitwise not of T. -/
def execVaNot (o : VaOps) (s : State) : Host.Outcome State Fault Refusal :=
  issueOne 4 (vaNotSem o) s
/-- VA_LUT3: Three-input bitwise function given by an 8-bit immediate. -/
def execVaLut3 (o : VaImmOps) (s : State) : Host.Outcome State Fault Refusal :=
  issueOne 4 (vaLut3Sem o) s
/-- VA_SHL: Element shift left. -/
def execVaShl (o : VaOps) (s : State) : Host.Outcome State Fault Refusal :=
  issueOne 4 (vaShlSem o) s
/-- VA_SHR: Element logical shift right. -/
def execVaShr (o : VaOps) (s : State) : Host.Outcome State Fault Refusal :=
  issueOne 4 (vaShrSem o) s
/-- VA_SRA: Element arithmetic shift right. -/
def execVaSra (o : VaOps) (s : State) : Host.Outcome State Fault Refusal :=
  issueOne 4 (vaSraSem o) s
/-- VA_SHLR: Element rounding shift right. -/
def execVaShlr (o : VaOps) (s : State) : Host.Outcome State Fault Refusal :=
  issueOne 4 (vaShlrSem o) s
/-- VA_FSHL: Funnel shift left with per-element amounts from operand port 2. -/
def execVaFshl (o : VaOps) (s : State) : Host.Outcome State Fault Refusal :=
  issueOne 4 (vaFshlSem o) s
/-- VA_FSHL_IMM: Funnel shift left by an immediate amount. -/
def execVaFshlImm (o : VaImmOps) (s : State) : Host.Outcome State Fault Refusal :=
  issueOne 4 (vaFshlImmSem o) s
/-- VA_FSHR: Funnel shift right with per-element amounts from operand port 2. -/
def execVaFshr (o : VaOps) (s : State) : Host.Outcome State Fault Refusal :=
  issueOne 4 (vaFshrSem o) s
/-- VA_FSHR_IMM: Funnel shift right by an immediate amount. -/
def execVaFshrImm (o : VaImmOps) (s : State) : Host.Outcome State Fault Refusal :=
  issueOne 4 (vaFshrImmSem o) s
/-- VA_CMPEQ: Element equality mask. -/
def execVaCmpeq (o : VaOps) (s : State) : Host.Outcome State Fault Refusal :=
  issueOne 4 (vaCmpeqSem o) s
/-- VA_CMPNE: Element inequality mask. -/
def execVaCmpne (o : VaOps) (s : State) : Host.Outcome State Fault Refusal :=
  issueOne 4 (vaCmpneSem o) s
/-- VA_CMPLT: Element less-than mask. -/
def execVaCmplt (o : VaOps) (s : State) : Host.Outcome State Fault Refusal :=
  issueOne 4 (vaCmpltSem o) s
/-- VA_CMPLE: Element less-or-equal mask. -/
def execVaCmple (o : VaOps) (s : State) : Host.Outcome State Fault Refusal :=
  issueOne 4 (vaCmpleSem o) s
/-- VA_SEL: Selects T or O per element by operand port 2. -/
def execVaSel (o : VaOps) (s : State) : Host.Outcome State Fault Refusal :=
  issueOne 4 (vaSelSem o) s
/-- VA_CLAMP: Clamps T between O and operand port 2. -/
def execVaClamp (o : VaOps) (s : State) : Host.Outcome State Fault Refusal :=
  issueOne 4 (vaClampSem o) s
/-- VA_POPC: Element count of ones. -/
def execVaPopc (o : VaOps) (s : State) : Host.Outcome State Fault Refusal :=
  issueOne 4 (vaPopcSem o) s
/-- VA_CLZ: Element count of leading zeros. -/
def execVaClz (o : VaOps) (s : State) : Host.Outcome State Fault Refusal :=
  issueOne 4 (vaClzSem o) s
/-- VA_MOV: Delivers T, merged under a mask. -/
def execVaMov (o : VaOps) (s : State) : Host.Outcome State Fault Refusal :=
  issueOne 4 (vaMovSem o) s
/-- VA_FADD: Floating element sum. -/
def execVaFadd (o : VaOps) (s : State) : Host.Outcome State Fault Refusal :=
  issueOne 4 (vaFaddSem o) s
/-- VA_FSUB: Floating element difference. -/
def execVaFsub (o : VaOps) (s : State) : Host.Outcome State Fault Refusal :=
  issueOne 4 (vaFsubSem o) s
/-- VA_FMUL: Floating element product. -/
def execVaFmul (o : VaOps) (s : State) : Host.Outcome State Fault Refusal :=
  issueOne 4 (vaFmulSem o) s
/-- VA_FMA: Fused multiply-add with one rounding. -/
def execVaFma (o : VaOps) (s : State) : Host.Outcome State Fault Refusal :=
  issueOne 4 (vaFmaSem o) s
/-- VA_FMIN: Floating element minimum. -/
def execVaFmin (o : VaOps) (s : State) : Host.Outcome State Fault Refusal :=
  issueOne 4 (vaFminSem o) s
/-- VA_FMAX: Floating element maximum. -/
def execVaFmax (o : VaOps) (s : State) : Host.Outcome State Fault Refusal :=
  issueOne 4 (vaFmaxSem o) s
/-- VA_MULSH: 16-bit multiply with rounding shift from the immediate. -/
def execVaMulsh (o : VaImmOps) (s : State) : Host.Outcome State Fault Refusal :=
  issueOne 4 (vaMulshSem o) s

end Sys2Proof.Machine
end

