-- ==== Sys2Proof/Machine/Convert.lean ====
section
/-! DEFINITION. The conversion unit vc (R152 to R157, Table 7.8): conversion, block quantization, ts8 and packed pixels. -/

namespace Sys2Proof.Machine

/-! ## Modifiers (Table 7.8) -/

/-- f32, f16, bf16. -/
def isFloat3 (f : Nat) : Bool := f == 0xD || f == 2 || f == 3
/-- A format of Table 2.5. -/
def isBlk (f : Nat) : Bool := (blkEmax f).isSome

/-! ## Draws (R42) -/

/-- The rounding mode of every produced value, and the stochastic state after the instruction. -/
def vcModes (s : State) (draws : Bool) (n : Nat) : List Rnd × Nat :=
  let ctl := s.me.fmts.cvtctl
  let rnd := fld ctl 4 3
  if rnd = 4 then
    if draws then
      let d := srDraws n (ctl / 2 ^ 32)
      (d.1.map Rnd.sr, d.2)
    else (List.replicate n .rne, ctl / 2 ^ 32)
  else (List.replicate n (rndOf rnd), ctl / 2 ^ 32)

/-- Puts a stochastic state into cvtctl. -/
def Ctx.setSr (x : Ctx) (st : Nat) : Ctx :=
  { x with fmts := { x.fmts with cvtctl := st % 2 ^ 32 * 2 ^ 32 + x.fmts.cvtctl % 2 ^ 32 } }

/-! ## Placement (R153) -/

/-- The part: bits [1:0] of element (0, 0) of operand port 2, modulo the ratio. -/
def vcPart (o2 : Tile) (dst src : Nat) : Nat :=
  elemAt o2 0 % 4 % (max (rowVals dst) (rowVals src) / min (rowVals dst) (rowVals src))

/-- Values produced in each row. -/
def vcCount (dst src : Nat) : Nat := min (rowVals dst) (rowVals src)

/-- The source values that take part, in row order. -/
def vcSources (dst src p : Nat) (t : Tile × Tile) : List Nat :=
  let n := vcCount dst src
  (List.range (16 * n)).map (fun k =>
    valAt src t.1 t.2 (k / n * rowVals src + (if rowVals dst < rowVals src then p * n else 0) + k % n))

/-- The result tiles of produced values: zero bits elsewhere. -/
def vcPlace (dst src p : Nat) (vs : List Nat) : Tile × Tile :=
  let n := vcCount dst src
  let vd := rowVals dst
  let pre := if rowVals src < vd then p * n else 0
  let rows := (List.range 16).map (fun i => List.replicate pre 0 ++ (vs.drop (i * n)).take n ++ List.replicate (vd - pre - n) 0)
  tilesOf dst rows.flatten

/-- OR of the flags of the produced values. -/
def flagsOf (l : List (Nat × Nat)) : Nat := l.foldl (fun a r => a ||| r.2) 0

/-- A vc trigger: legality, what it wants of T and O, times, value, flags, and the stochastic state it leaves. Every vc conversion counts
as flag-raising for an `sget` of fpstat, also between formats in which none can be raised (R51; DESIGN CHOICE,
notes/assumptions/9.md). -/
def vcSem (o : VcOps) (legal : Bool) (cands : List Cand) (wt wo : Want) (wide : Bool) (b ii : Nat) (v : PVal) (flags sr : Nat)
    (s l : State) : Sem :=
  let tm := vecTime wide b ii
  trigSem s l 7 tm.2 o.t o.o wt wo (candIf (!legal) illegalCombination ++ cands)
    (fun x => (x.setSr sr).send 7 tm.1 tm.2 (some v) none flags (vecEnables s) none true)

/-- The kind an operand of a format is read with. -/
def wantFmt (f : Nat) : Want := if fmtPair f then .pair else .tile

/-- A conversion between formats: `f` gives each value from its mode and source. -/
def vcConvert (o : VcOps) (dst src : Nat) (legal draws : Bool) (cands : List Cand) (wo : Want) (b ii extra : Nat)
    (f : Nat → Rnd → Nat → Nat × Nat) (s l : State) : Sem :=
  let p := vcPart (operand2 l 7).asTile dst src
  let m := vcModes s draws (16 * vcCount dst src)
  let rs := (((vcSources dst src p (s.readName s.cur o.t (wantFmt src)).tiles).zip m.1).zipIdx).map (fun x => f x.2 x.1.2 x.1.1)
  vcSem o legal cands (wantFmt src) wo (fmtPair dst || fmtPair src) b ii
    (vecVal (fmtPair dst) (vcPlace dst src p (rs.map (·.1)))) (flagsOf rs ||| extra) m.2 s l

/-- Whether saturation is asked for in cvtctl (R49). -/
def vcSat (s : State) : Bool := bitAt s.me.fmts.cvtctl 7

/-- `cvt` (R43 to R46). -/
def vcCvtSem (o : VcOps) (s l : State) : Sem :=
  vcConvert o o.hi o.lo (o.hi != 0xC && o.lo != 0xC) true [] .any 8 4 0 (fun _ mode c => convert o.hi o.lo mode (vcSat s) c) s l

/-- `cvts` (R47, R154). -/
def vcCvtsSem (o : VcOps) (s l : State) : Sem :=
  let v := s.readName s.cur o.o .pair
  let d := divisorOf (pairAt v.asTile v.asHigh 0)
  vcConvert o o.hi o.lo (o.hi != 0xC && isFloat3 o.lo && o.o != 0xFFF) true [] .pair 12 8 (if d.isNone then flINV else 0)
    (fun _ mode c => convertScaled o.hi o.lo mode (vcSat s) d c) s l

/-- `dqblk` (R38, R155): value j of part p takes the scale in O(i, ⌊(p · V + j)/32⌋). -/
def vcDqblkSem (o : VcOps) (s l : State) : Sem :=
  let sc := (operand s l 7 o.o .tile).asTile
  let p := vcPart (operand2 l 7).asTile o.hi o.lo
  let n := vcCount o.hi o.lo
  let off := if rowVals o.hi < rowVals o.lo then p * n else 0
  vcConvert o o.hi o.lo (isFloat3 o.hi && isBlk o.lo) true [] .tile 14 8 0
    (fun k mode c => dequant o.hi o.lo mode (vcSat s) (elemAt sc (64 * (k / n) + (off + k % n) / 32)) c) s l

/-- `qts8` (R35, R156). -/
def vcQts8Sem (o : VcOps) (s l : State) : Sem :=
  vcConvert o o.hi o.lo (o.hi == 0xC && isFloat3 o.lo) false [] .any 8 4 0
    (fun _ _ c => ts8Encode (((ffmt o.lo).getD f16).readFlush c)) s l

/-- `dqts8` (R156): exact. -/
def vcDqts8Sem (o : VcOps) (s l : State) : Sem :=
  vcConvert o o.hi o.lo (isFloat3 o.hi && o.lo == 0xC) false [] .any 8 4 0
    (fun _ mode c => convFVal o.hi mode (vcSat s) (ts8Read c)) s l

/-- The blocks of 32 of a list. -/
def blocks32 (vs : List Nat) : List (List Nat) := (List.range (vs.length / 32)).map (fun k => (vs.drop (32 * k)).take 32)

/-- `qblk` (R38, R155): elements in the even tile, scales in the odd one. -/
def vcQblkSem (o : VcOps) (s l : State) : Sem :=
  let g := (ffmt o.lo).getD f16
  let p := vcPart (operand2 l 7).asTile o.hi o.lo
  let m := vcModes s (o.hi != 0xC) 1024
  let src := vcSources o.hi o.lo p (s.readName s.cur o.t (wantFmt o.lo)).tiles
  let qs := (blocks32 src).zipIdx.map (fun b => quantBlock o.hi (b.1.map g.readFlush) ((m.1.drop (32 * b.2)).take 32))
  let scales := tileOf (fun e =>
    if e % 64 / 2 = p then (qs.getD (2 * (e / 64) + e % 2) (0, [], 0)).1 else 0)
  vcSem o (isBlk o.hi && isFloat3 o.lo) [] (wantFmt o.lo) .any (fmtPair o.lo) 14 8
    ⟨.pair, (vcPlace o.hi o.lo p (qs.flatMap (fun q => q.2.1))).1, scales⟩
    (qs.foldl (fun a q => a ||| q.2.2) 0) m.2 s l

/-! ## Packed pixels (R39, R157) -/

/-- A tile operation of vc on T alone, without flags. -/
def vcTile (o : VcOps) (legal : Bool) (f : Tile → Tile) (s l : State) : Sem :=
  let tm := vecTime false 8 4
  trigSem s l 7 tm.2 o.t o.o .tile .any (candIf (!legal) illegalCombination)
    (fun x => x.send 7 tm.1 tm.2 (some ⟨.tile, f (s.readName s.cur o.t .tile).asTile, 0⟩) none 0 0 none false)

/-- Samples of width `w`: sample n of a row is bits [w n + w − 1 : w n], since groups are whole bytes (Table 2.6). -/
def unpackRows (w : Nat) (t : Tile) : Tile := tileOf (fun e => fld (tileRow t (e / 64)) (w * (e % 64)) w)

/-- A c16 element as a sample: its low bits, or the largest sample. -/
def toSample (w : Nat) (sat : Bool) (v : Nat) : Nat := if sat then min v (2 ^ w - 1) else v % 2 ^ w

/-- Packs the 64 elements of each row. -/
def packRowsW (w : Nat) (sat : Bool) (t : Tile) : Tile :=
  BitVec.ofNat 16384 (packRows ((List.range 16).map (fun i =>
    packVals w ((List.range 64).map (fun j => toSample w sat (elemAt t (64 * i + j)))))))

def vcUnpk10Sem (o : VcOps) : State → State → Sem := vcTile o (o.hi == 0 && o.lo == 0) (unpackRows 10)
def vcUnpk12Sem (o : VcOps) : State → State → Sem := vcTile o (o.hi == 0 && o.lo == 0) (unpackRows 12)
def vcUnpk14Sem (o : VcOps) : State → State → Sem := vcTile o (o.hi == 0 && o.lo == 0) (unpackRows 14)
def vcPk10Sem (o : VcOps) : State → State → Sem := vcTile o (o.hi == 0 && o.lo % 8 == 0) (packRowsW 10 (bitAt o.lo 3))
def vcPk12Sem (o : VcOps) : State → State → Sem := vcTile o (o.hi == 0 && o.lo % 8 == 0) (packRowsW 12 (bitAt o.lo 3))
def vcPk14Sem (o : VcOps) : State → State → Sem := vcTile o (o.hi == 0 && o.lo % 8 == 0) (packRowsW 14 (bitAt o.lo 3))

/-- `swap16`: the bytes of every element exchanged. -/
def vcSwap16Sem (o : VcOps) : State → State → Sem :=
  vcTile o (o.hi == 0 && o.lo == 0) (fun t => tileOf (fun e => elemAt t e % 256 * 256 + elemAt t e / 256))

/-! ## The rows -/

/-- VC_CVT: Converts selected values between formats under cvtctl. -/
def execVcCvt (o : VcOps) (s : State) : Host.Outcome State Fault Refusal :=
  issueOne 4 (vcCvtSem o) s
/-- VC_CVTS: Converts x/d with one rounding. -/
def execVcCvts (o : VcOps) (s : State) : Host.Outcome State Fault Refusal :=
  issueOne 4 (vcCvtsSem o) s
/-- VC_QBLK: Quantizes rows into block-scaled elements and scales. -/
def execVcQblk (o : VcOps) (s : State) : Host.Outcome State Fault Refusal :=
  issueOne 4 (vcQblkSem o) s
/-- VC_DQBLK: Dequantizes block-scaled elements. -/
def execVcDqblk (o : VcOps) (s : State) : Host.Outcome State Fault Refusal :=
  issueOne 4 (vcDqblkSem o) s
/-- VC_QTS8: Encodes values as canonical ts8. -/
def execVcQts8 (o : VcOps) (s : State) : Host.Outcome State Fault Refusal :=
  issueOne 4 (vcQts8Sem o) s
/-- VC_DQTS8: Decodes ts8 exactly. -/
def execVcDqts8 (o : VcOps) (s : State) : Host.Outcome State Fault Refusal :=
  issueOne 4 (vcDqts8Sem o) s
/-- VC_UNPK10: Unpacks P10 samples. -/
def execVcUnpk10 (o : VcOps) (s : State) : Host.Outcome State Fault Refusal :=
  issueOne 4 (vcUnpk10Sem o) s
/-- VC_UNPK12: Unpacks P12 samples. -/
def execVcUnpk12 (o : VcOps) (s : State) : Host.Outcome State Fault Refusal :=
  issueOne 4 (vcUnpk12Sem o) s
/-- VC_UNPK14: Unpacks P14 samples. -/
def execVcUnpk14 (o : VcOps) (s : State) : Host.Outcome State Fault Refusal :=
  issueOne 4 (vcUnpk14Sem o) s
/-- VC_PK10: Packs samples into P10. -/
def execVcPk10 (o : VcOps) (s : State) : Host.Outcome State Fault Refusal :=
  issueOne 4 (vcPk10Sem o) s
/-- VC_PK12: Packs samples into P12. -/
def execVcPk12 (o : VcOps) (s : State) : Host.Outcome State Fault Refusal :=
  issueOne 4 (vcPk12Sem o) s
/-- VC_PK14: Packs samples into P14. -/
def execVcPk14 (o : VcOps) (s : State) : Host.Outcome State Fault Refusal :=
  issueOne 4 (vcPk14Sem o) s
/-- VC_SWAP16: Swaps the bytes of every element. -/
def execVcSwap16 (o : VcOps) (s : State) : Host.Outcome State Fault Refusal :=
  issueOne 4 (vcSwap16Sem o) s

end Sys2Proof.Machine
end

