-- ==== Sys2Proof/Machine/Engine.lean ====
section
/-! DEFINITION. What the two engines share: the owner of an instruction that may have outlived its context's residence, tokens
(R222, R223), the fault record and the log entry of an engine fault (R237, R301), and the order that tokens give. -/

namespace Sys2Proof.Machine

/-- What an engine instruction records at its issue. -/
def State.issued (s : State) (stg : Bool) : Issued :=
  let x := s.me
  ⟨s.cur, x.sched.job, x.sched.place, s.seqno, x.seq.pc, if stg then some x.seq.wstep else none, x.win.ways, .queued, false⟩

/-- The context an engine instruction belongs to, where it is now; none while it is saved. -/
def State.ownerOf (s : State) (i : Issued) : Option Nat := s.placeCtx i.job i.place

/-- The owner's context, resident or saved (R305). -/
def State.ownerCtx (s : State) (i : Issued) : Ctx :=
  match s.ownerOf i with
  | some c => s.ctx c
  | none => (((s.loaded i.job).saved.find? (fun v => v.place == i.place)).map (·.ctx)).getD Ctx.reset

/-- Changes the owner's context, resident or saved. -/
def State.modOwner (s : State) (i : Issued) (f : Ctx → Ctx) : State := s.modPlace i.job i.place f

/-- Whether every token-in of an instruction is set (R223). -/
def Ctx.tinsSet (x : Ctx) (tins : List Nat) : Bool := tins.all (fun t => t == 63 || x.tokSet t)
/-- Whether a token-in carries its error bit. -/
def Ctx.tinsErr (x : Ctx) (tins : List Nat) : Bool := tins.any (fun t => t != 63 && x.tokErr t)

/-- Token-ins of a matrix and of a copy instruction. -/
def MxRun.tins (r : MxRun) : List Nat := [r.o.tin0, r.o.tin1, r.o.tin2]
def CpRun.tins (r : CpRun) : List Nat := [r.o.tin0, r.o.tin1, r.o.tin2]

/-- Whether an instruction was issued by the owner of `i`, before issue number `n`. -/
def Issued.before (i : Issued) (n : Nat) (j : Issued) : Bool := j.job == i.job && j.place == i.place && decide (j.seq < n)

/-- The tokens that instructions of the owner of `i`, issued before number `m` and still to complete, wait for, through tokens, before
those of `l`: `n` links of a chain. -/
def State.tokenChain (s : State) (i : Issued) (m : Nat) : Nat → List Nat → List Nat
  | 0, l => l
  | n + 1, l =>
    let more := s.engines.flatMap (fun e =>
      (e.2.mxq.filter (fun r => i.before m r.iss && l.contains r.o.tout)).flatMap MxRun.tins ++
      (e.2.cpq.filter (fun r => i.before m r.iss && l.contains r.o.tout)).flatMap CpRun.tins)
    s.tokenChain i m n ((l ++ more).eraseDups)

/-- Whether matrix instruction `r` is free of the writes of instruction `i` with token `tout`: no chain of tokens from before `r`
makes it wait for them (R175, R187). -/
def State.unordered (s : State) (i : Issued) (tout : Nat) (r : MxRun) : Bool :=
  !(r.iss.before r.iss.seq i && (s.tokenChain i r.iss.seq 64 (r.tins.filter (fun t => t != 63))).contains tout)

/-! ## Bytes that have been written and not ordered (R175, R187; notes/assumptions/59.md) -/

/-- An engine instruction with token `tout` issues: it no longer tells of what the token told of before, and tells of everything that
its token-ins do. -/
def Fresh.chain (job place tout : Nat) (tins : List Nat) (f : Fresh) : Fresh :=
  if f.ofOwner job place then
    { f with touts := (if tins.any (fun t => t != 63 && f.touts.contains t) then [tout] else []) ++ f.touts.filter (fun t => t != tout) }
  else f

/-- The same on every core, for an instruction of the current context; in its own ways the token tells of no earlier acquire any more. -/
def State.chainFresh (s : State) (job place tout : Nat) (tins : List Nat) : State :=
  if s.cores.any (fun c => !c.2.fresh.isEmpty) then
    { s with cores := s.cores.map (fun c => (c.1, { c.2 with fresh := c.2.fresh.map (fun f =>
        let g := f.chain job place tout tins
        if c.1 = coreOf s.cur ∧ bitAt (s.ctx s.cur).win.ways f.way then { g with acq := g.acq.filter (fun t => t != tout) } else g) })) }
  else s

/-- Whether bytes that a matrix instruction of the owner of `i` on core `k` reads are such bytes, or bytes that a running copy has
written, with no order between (R187). -/
def State.meetsFresh (s : State) (k : Nat) (i : Issued) (tins : List Nat) (ranges : List (Nat × Nat)) : Bool :=
  (s.core k).fresh.any (fun f => !(f.ofOwner i.job i.place && tins.any (fun t => t != 63 && f.touts.contains t)) &&
    f.ranges.any (fun g => ranges.any (fun r => overlap g.1 g.2 r.1 r.2))) ||
  s.engines.any (fun e => e.2.cpq.any (fun p =>
    p.wet.any (fun g => ranges.any (fun r => overlap g.1 g.2 (k * 2 ^ 24 + r.1) r.2)) &&
      !(i.before i.seq p.iss && (s.tokenChain i i.seq 64 (tins.filter (fun t => t != 63))).contains p.o.tout)))

/-- The tokens that tell of a copy's completion once it has completed: its own, and those of queued instructions of its owner that wait
for it. -/
def State.tellers (s : State) (i : Issued) (tout : Nat) : List Nat :=
  tout :: s.engines.flatMap (fun e =>
    (e.2.mxq.filter (fun q => !s.unordered i tout q)).map (·.o.tout) ++
    (e.2.cpq.filter (fun q => q.iss.before q.iss.seq i && (s.tokenChain q.iss q.iss.seq 64 (q.tins.filter (fun t => t != 63))).contains tout)).map (·.o.tout))

/-- The completed copy `r` leaves the scratchpad bytes it has written on each way that no acquire has ordered yet. -/
def State.noteFresh (s : State) (r : CpRun) : State :=
  if r.wet = [] then s
  else
    let touts := s.tellers r.iss r.o.tout
    (r.wet.map (fun g => g.1 / 2 ^ 20)).eraseDups.foldl (fun t w => t.addFresh (w / 16) ⟨r.iss.job, r.iss.place, r.op, w % 16, touts, [],
      r.counter, r.iss.step.isSome, (r.wet.filter (fun g => g.1 / 2 ^ 20 == w)).map (fun g => (g.1 % 2 ^ 24, g.2))⟩) s

/-- R187: a record that the matrix engine has written at offset `a` of core `k`'s scratchpad is ordered with later steps by the tokens of
its instruction alone. -/
def State.recordFresh (s : State) (k : Nat) (i : Issued) (tout a n : Nat) : State :=
  s.addFresh k ⟨i.job, i.place, 0, a / 2 ^ 20, s.tellers i tout, [], 0, i.step.isSome, [(a, n)]⟩

/-- R255: the acquire of an instruction's action, which its token tells of: what others have written to the ways of its context so far. -/
def State.tokenAcquire (s : State) (i : Issued) (tout : Nat) : State :=
  match s.ownerOf i with
  | none => s
  | some c =>
    if (s.core (coreOf c)).fresh = [] then s
    else s.modCore (coreOf c) (fun k => { k with fresh := k.fresh.map (fun f =>
      if bitAt (s.ctx c).win.ways f.way ∧ !f.ofOwner i.job i.place ∧ !f.acq.contains tout then { f with acq := tout :: f.acq } else f) })

/-- A write by an engine instruction. -/
def State.engineWrite (s : State) (i : Issued) (tout : Nat) (w : Space) (a n v : Nat) : State :=
  s.writeBy (s.unordered i tout) w a n v

/-- An atomic update by an engine instruction, with nothing between its read and its write (R272). -/
def State.engineUpdate (s : State) (i : Issued) (tout : Nat) (w : Space) (a n : Nat) (f : Nat → Nat) : State :=
  (s.updateBy (s.unordered i tout) w a n f).1

/-- R237: the fault record, unless a later-issued instruction's was written in the same cycle. -/
def Ctx.writeEfrec (x : Ctx) (clock seq w0 w1 w2 w3 : Nat) : Ctx :=
  if x.win.efclk = clock + 1 ∧ seq < x.win.efseq then x
  else
    { x with win := { x.win with efrec0 := w0, efrec1 := w1, efrec2 := w2,
                                 efrec3 := x.win.efrec3 / 2 ^ 48 * 2 ^ 48 + w3 % 2 ^ 48, efclk := clock + 1, efseq := seq } }

/-- Word 0 of an engine record (Table 10.5). -/
def recWord0 (cause eng op tok pv addr : Nat) : Nat :=
  cause * 2 ^ 56 + eng * 2 ^ 54 + op * 2 ^ 48 + tok * 2 ^ 42 + pv * 2 ^ 32 + addr % 2 ^ 32

/-- R237, R238, R301: an engine instruction of owner `i` ends in a fault: its record, and a log entry for cause 0x53 or
for an owner that has halted or been killed. -/
def engineFault (s : State) (i : Issued) (cause w0 w1 w2 w3 : Nat) : State :=
  let x := s.ownerCtx i
  let s1 := s.modOwner i (fun y => y.writeEfrec s.clock i.seq w0 w1 w2 w3)
  let gone := x.seq.run == .halted || x.seq.run == .killed
  if cause = 0x53 ∨ gone then
    let clips := (s1.ownerCtx i).win.efrec3 / 2 ^ 48 * 2 ^ 48
    let body := w0 + 2 ^ 64 * (w1 % 2 ^ 64) + 2 ^ 128 * (w2 % 2 ^ 64) + 2 ^ 192 * (clips + w3 % 2 ^ 48)
    markError (logEntry s1 i.job 4 cause x.level (placeBytes i.ctx) body) i.job 1
  else s1

/-- R222: the token out is set, with its error bit. -/
def setToken (s : State) (i : Issued) (t : Nat) (err : Bool) : State := s.modOwner i (fun x => x.setTok t true err)

end Sys2Proof.Machine
end

