-- ==== Sys2Proof/Machine/MillArith.lean ====
section
/-! DEFINITION. The arithmetic of the Millstone (R158 to R164, R171, R182): modes, alignment of a lane, the sums of a step,
corrections, and the value `mfin` delivers. -/

namespace Sys2Proof.Machine

/-! ## Modes (Table 8.1) -/

/-- The kinds of edge that Table 8.1 pairs. -/
inductive Fam where
  | fl16 | i16 | fl8 | i8 | fl4 | i4 | ts8
  deriving DecidableEq, Repr

/-- The kind of an edge by its format and scaled bit; none where R160 traps on the edge alone. -/
def famOf (fmt : Nat) (scaled : Bool) : Option Fam :=
  match fmt, scaled with
  | 0x2, false => some .fl16
  | 0x3, false => some .fl16
  | 0x0, false => some .i16
  | 0x6, _ => some .fl8
  | 0x7, _ => some .fl8
  | 0x8, _ => some .fl8
  | 0x9, _ => some .fl8
  | 0x4, true => some .fl8
  | 0x4, false => some .i8
  | 0xA, _ => some .fl4
  | 0xB, false => some .i4
  | 0xC, true => some .ts8
  | _, _ => none

/-- F of an edge's kind. -/
def Fam.frac : Fam → Int
  | .fl16 => 22
  | .fl8 => 9
  | .fl4 => 4
  | _ => 0

/-- Whether the edge's values are integers (R161). -/
def Fam.isInt : Fam → Bool
  | .i16 => true
  | .i8 => true
  | .i4 => true
  | _ => false

/-- Values per 16-bit element of an edge's kind (R181). -/
def Fam.pack : Fam → Nat
  | .fl16 => 1
  | .i16 => 1
  | .fl4 => 4
  | .i4 => 4
  | _ => 2

/-- n of Table 8.1 for a pair of edges; none where the pair fits no row (R160). -/
def modeN (a b : Fam) : Option Nat :=
  if a = .ts8 ∨ b = .ts8 then
    let o := if a = .ts8 then b else a
    if o = .fl16 ∨ o = .i16 then some 2
    else if o = .fl8 ∨ o = .i8 then some 4
    else none
  else if a = b then
    some (match a with | .fl16 => 1 | .i16 => 1 | .fl4 => 4 | .i4 => 4 | _ => 2)
  else none

/-! ## Alignment (R161) -/

/-- A value fed to a lane: its code and its block scale, 255 when unscaled; none is an element of a zero slice (R168). -/
abbrev Fed := Option (Nat × Nat)

/-- The value of a fed element before alignment. -/
def fedVal (fmt : Nat) (fam : Fam) : Fed → FVal
  | none => .zero false
  | some (c, s) => if fam.isInt then ofInt (fmtInt fmt c) else (blkRead fmt c).mulPow ((s % 512 : Nat) - 255)

/-- Whether a fed element marks its lane NaN. -/
def fedNaN (fmt : Nat) (fam : Fam) (x : Fed) : Bool :=
  (fedVal fmt fam x).special || (match x with | some (_, s) => s % 512 == 511 | none => false)

/-- v × 2^e rounded to the nearest integer, ties to even. -/
def roundScaled (v : FVal) (e : Int) : Int :=
  match v.mulPow e with
  | .fin n m => (let r := (m.roundAt .rne n 0).1; if n then -(r : Int) else r)
  | _ => 0

/-- ⌊log2 m⌋ of the largest magnitude m of a lane; 0 when every value is zero. -/
def laneExp (vs : List FVal) : Int := (blkMax vs).elim 0 Mag.log2

/-- R161: a lane aligned: its exponent, none when it is NaN-marked, and the integers α. -/
def alignLane (fmt : Nat) (fam : Fam) (xs : List Fed) : LaneExp × List Int :=
  let vs := xs.map (fedVal fmt fam)
  if xs.any (fedNaN fmt fam) then (none, xs.map (fun _ => 0))
  else if fam.isInt then (some 0, vs.map (fun v => roundScaled v 0))
  else
    let e := laneExp vs
    (some e, vs.map (fun v => roundScaled v (fam.frac - e)))

/-- A ts8 lane: none when NaN-marked, else the greatest block exponent; the codes' values in units of 2^−7; their block
exponents (R164). An element of a zero slice adds nothing. -/
def twinLane (xs : List Fed) : LaneExp × List Int × List Int :=
  let gs := xs.filterMap (fun x => x.map (fun p => ((p.2 % 512 : Nat) : Int) - 255))
  let f := gs.foldl max (gs.headD 0)
  let exp : LaneExp := if xs.any (fun x => match x with | some p => p.2 % 512 == 511 | none => false) then none else some f
  (exp, xs.map (fun x => x.elim 0 (fun p => ts8Val (p.1 % 256))), xs.map (fun x => x.elim f (fun p => ((p.2 % 512 : Nat) : Int) - 255)))

/-- An edge's lane as the cells see it: exponent, values, and the block exponents of a ts8 lane. -/
abbrev Lane := LaneExp × List Int × List Int

/-- Aligns one lane of an edge. -/
def feedLane (fmt : Nat) (fam : Fam) (xs : List Fed) : Lane :=
  if fam = .ts8 then twinLane xs else (let r := alignLane fmt fam xs; (r.1, r.2, []))

/-- A lane that carries no data: zeros (R166). -/
def zeroLane : Lane := (some 0, [], [])

/-! ## Corrections (R171) -/

/-- Σ α² over a lane, a full exact sum (R162). -/
def sumSquares (l : List Int) : Nat := l.foldl (fun n a => n + a.natAbs * a.natAbs) 0

/-- The correction vector of an edge; that of a NaN-marked lane is not stated, and is the free value given. -/
def corrections (lanes : List Lane) (free : Nat → Nat) : List Nat :=
  (lanes.zipIdx.map (fun p => match p.1.1 with | some _ => sumSquares p.1.2.1 | none => free p.2 % 2 ^ 64))

/-! ## The sums of a step -/

/-- Adds two lists, the shorter one going on with zeros. -/
def addLists : List Int → List Int → List Int
  | [], bs => bs
  | as_, [] => as_
  | a :: as_, b :: bs => (a + b) :: addLists as_ bs

/-- S of one output, scaled back to full squares: each square truncated to a multiple of 2^15 when `cut` (R162). -/
def squareSum (cut : Bool) (a b : List Int) : Int :=
  (addLists a b).foldl (fun t x => t + (let q := x * x; if cut then q / 2 ^ 15 * 2 ^ 15 else q)) 0

/-- T of one output: `act` the aligned activation lane, `w` the ts8 lane (R164). -/
def twinSum (act w : Lane) : Int :=
  let f := w.1.getD 0
  ((act.2.1.zip (w.2.1.zip w.2.2)).foldl (fun t p => t + p.1 * p.2.1 / (2 ^ (f - p.2.2).toNat : Nat)) (0 : Int))

/-- 128 lanes, those beyond the edge's own carrying zeros. -/
def lanes128 (l : List Lane) : List Lane := (List.range 128).map (fun i => l.getD i zeroLane)

/-- The sums of a step, row-major. `twinA` and `twinB` say which edge is ts8; `cut` that the squares are truncated. -/
def stepSums (twinA twinB cut : Bool) (a b : List Lane) : List Int :=
  let bs := lanes128 b
  (lanes128 a).flatMap (fun x =>
    bs.map (fun y => if twinB then twinSum x y else if twinA then twinSum y x else squareSum cut x.2.1 y.2.1))

/-! ## What `mfin` delivers (R158, R164, R182) -/

/-- c_ij: S − r − s, with the half in `frac`, or T; times 2^(e + f − frac). -/
def bankVal (twin : Bool) (sum : Int) (r s : Nat) (e f frac : Int) : FVal :=
  ofDyadic false (if twin then sum else sum - r - s) (e + f - frac)

/-- c × u × v, exact; none for ∞ · 0. A NaN scale is looked at first. -/
def scaleVal (c u v : FVal) : FVal :=
  if u.isNaN ∨ v.isNaN then .nan false (u.isSNaN || v.isSNaN)
  else
    match mulExact c u with
    | none => .nan false true
    | some x => (match mulExact x v with | none => .nan false true | some y => y)

/-- The delivered value and its flags: round(x) or round(x + z), z read by its value. -/
def finVal (mode : Rnd) (acc : Bool) (x : FVal) (z : Nat) : Nat × Nat :=
  match x with
  | .nan _ s => f32.nanResult (s || (acc && (f32.read z).isSNaN))
  | _ => if acc then f32.add mode false x (f32.read z) else f32.deliver mode false x

/-- A row of 128 f32 values as a z tile holds it. -/
def packRow (l : List Nat) : BitVec 4096 := BitVec.ofNat 4096 (packVals 32 l)

/-- One row of `mfin`: `z` the row as it was. -/
def finRow (b : Bank) (mode : Rnd) (acc : Bool) (i : Nat) (z : Nat) (sums : List Int) : List (Nat × Nat) :=
  (List.range 128).map (fun j =>
    match b.aexp.getD i (some 0), b.bexp.getD j (some 0) with
    | some e, some f =>
      let c := bankVal b.twin (sums.getD j 0) (b.r.getD i 0) (b.c.getD j 0) e f b.frac
      let u := f32.readFlush (b.u.getD i 0x3F800000)
      let v := f32.readFlush (b.v.getD j 0x3F800000)
      finVal mode acc (scaleVal c u v) (fld z (32 * j) 32)
    | _, _ => f32.nanResult true)

end Sys2Proof.Machine
end

