-- ==== Sys2Proof/Machine/Nest.lean ====
section
/-! DEFINITION. Copy patterns and loop nests (R218 to R221): the elements of a nest, the checks a copy makes at issue, and the
conversions of `cpyt` (R228, R229). -/

namespace Sys2Proof.Machine

/-! ## The pattern (Table 10.1) -/

/-- Words of pattern register `n`. -/
def Ctx.pattern (x : Ctx) (n : Nat) : List Nat := (List.range 24).map (fun w => rd x.regs.cp (24 * n + w))

/-- Word `w`. -/
def pw (p : List Nat) (w : Nat) : Nat := p.getD w 0
def patEs (p : List Nat) : Nat := 2 ^ fld (pw p 2) 0 3
def patFl (p : List Nat) : Nat := fld (pw p 2) 3 3
def patStg (p : List Nat) : Bool := bitAt (pw p 2) 6
def patRec (p : List Nat) : Bool := bitAt (pw p 2) 7
def patCarry (p : List Nat) : Bool := bitAt (pw p 2) 8
def patHandle (p : List Nat) : Nat := fld (pw p 2) 9 3
def patFlush (p : List Nat) : Bool := bitAt (pw p 2) 12
def patFill (p : List Nat) : Nat := fld (pw p 2) 16 16
def patTop (p : List Nat) : Nat := fld (pw p 3) 0 8
def patTsrc (p : List Nat) : Nat := fld (pw p 3) 8 4
def patTdst (p : List Nat) : Nat := fld (pw p 3) 12 4
def patArg (p : List Nat) : Nat := fld (pw p 3) 32 32
def patRecs (p : List Nat) : Nat := fld (pw p 23) 0 32
def patRecd (p : List Nat) : Nat := fld (pw p 23) 32 32
/-- The counter increment (R225). -/
def patInc (p : List Nat) : Nat := if pw p 22 = 0 then 1 else pw p 22

/-- One level of the nest: iterations, clip bounds, strides. -/
structure Level where
  n : Nat
  clo : Nat
  chi : Nat
  ss : Nat
  ds : Nat
  deriving DecidableEq, Repr

/-- Level `l`. -/
def patLevel (p : List Nat) (l : Nat) : Level :=
  let w := pw p (4 + 3 * l)
  let n := fld w 0 16 + 1
  ⟨n, fld w 16 16, if fld w 32 16 = 0 then n else fld w 32 16, pw p (5 + 3 * l), pw p (6 + 3 * l)⟩

/-- Fill bytes of a clipped element of `es` bytes, as a number (R220). -/
def fillBytes (zero : Bool) (fill es : Nat) : Nat :=
  if zero then 0 else (List.range es).foldl (fun v i => v + fld fill (8 * (i % 2)) 8 * 2 ^ (8 * i)) 0

/-- One element of a nest: indices i0 first, source and destination, whether it is clipped. -/
structure Elem where
  its : List Nat
  src : Nat
  dst : Nat
  clip : Bool
  deriving DecidableEq, Repr

/-- The elements of the levels given, the outermost first, from addresses `s` and `d` (R219). -/
def nestFrom : List Level → Nat → Nat → Bool → List Nat → List Elem
  | [], s, d, clip, its => [⟨its, s, d, clip⟩]
  | l :: r, s, d, clip, its =>
    (List.range l.n).flatMap (fun i =>
      nestFrom r ((s + i * l.ss) % 2 ^ 64) ((d + i * l.ds) % 2 ^ 64) (clip || decide (i < l.clo) || decide (l.chi ≤ i)) (i :: its))

/-- The elements of a pattern in nest order. -/
def patElems (p : List Nat) : List Elem :=
  nestFrom [patLevel p 5, patLevel p 4, patLevel p 3, patLevel p 2, patLevel p 1, patLevel p 0] (pw p 0) (pw p 1) false []

/-! ## What the opcodes use (Table 10.2) -/

/-- Effective method: the override, else the pattern's, for the opcodes that use it. -/
def effFl (op : Nat) (o : CpOps) (p : List Nat) : Nat :=
  if op = 2 ∨ op = 3 ∨ op = 7 ∨ op = 8 then (if o.method ≠ 0 then o.method else patFl p) else 0

/-- Whether the source is a Flume stream in memory. -/
def memStream (op : Nat) (o : CpOps) (p : List Nat) : Bool := op == 2 || (op == 3 && effFl op o p != 0)
/-- Whether the instruction's bytes pass through the Flume. -/
def usesFlume (op : Nat) (o : CpOps) (p : List Nat) : Bool := memStream op o p || (op == 7 && effFl op o p != 0)
/-- Whether it reads the nest's sources, and at which address (`swrite` at w1). -/
def readsNest (op : Nat) (o : CpOps) (p : List Nat) : Bool := op == 1 || op == 6 || op == 0x18 || op == 8 || (op == 3 && !memStream op o p)
/-- Whether it writes the nest's destinations. -/
def writesNest (op : Nat) : Bool := op == 1 || op == 2 || op == 3 || op == 6 || op == 7 || op == 9 || op == 0x18
/-- Whether it is a nest at all. -/
def isNest (op : Nat) : Bool := writesNest op || op == 8

/-- The address an element is read at. -/
def Elem.from (e : Elem) (op : Nat) : Nat := if op = 8 then e.dst else e.src

/-- Bytes of a destination element: of the destination format for `cpyt`. -/
def dstBytes (op : Nat) (p : List Nat) : Nat := if op = 3 then fmtWidth (patTdst p) / 8 else patEs p

/-! ## The conversions of `cpyt` -/

/-- R228: whether a transform is refused. -/
def cpytIllegal (p : List Nat) : Bool :=
  let top := patTop p
  let src := patTsrc p
  let dst := patTdst p
  let ok :=
    match top with
    | 0x00 => src != 0xC && dst != 0xC
    | 0x01 => isFloat3 src && dst != 0xC
    | 0x02 => isFloat3 src && isBlk dst && (patLevel p 0).n % 32 == 0
    | 0x04 => isFloat3 src && dst == 0xC
    | _ => false
  let badRec := patRec p &&
    (!(top == 0 || top == 2) || dst == 0xC || (famOf dst (top == 2)).isNone || decide (128 < (patLevel p 1).n) || decide (256 < (patLevel p 0).n))
  !ok || fmtWidth dst == 4 || !(fmtWidth src == 16 || fmtWidth src == 32) || 8 * patEs p != fmtWidth src || badRec

/-- Rounding mode of the `k`-th value a transform emits: one draw for each under SR (R42). -/
def cpytModes (cvtctl top dst n : Nat) : List Rnd :=
  let rnd := fld cvtctl 4 3
  if rnd = 4 then (if top = 4 ∨ dst = 0xC then List.replicate n .rne else (srDraws n (cvtctl / 2 ^ 32)).1.map Rnd.sr)
  else List.replicate n (rndOf rnd)

/-- What a transform of source values (none for a clipped element) gives: the converted values, the block scales of `qblk`, and the
flags that each value raises. -/
structure Transformed where
  vals : List (Option Nat)
  scales : List Nat
  flags : List Nat

/-- Puts results back over the values that were present. -/
def refill {α : Type} : List (Option Nat) → List α → List (Option α)
  | [], _ => []
  | some _ :: r, v :: vs => some v :: refill r vs
  | _ :: r, vs => none :: refill r vs

/-- `qblk` over successive blocks of 32 positions; a clipped position is no value of its block. -/
def quantRun (dst : Nat) (g : FFmt) : Nat → List (Option Nat) → List Rnd → Transformed
  | 0, _, _ => ⟨[], [], []⟩
  | n + 1, xs, ms =>
    let b := xs.take 32
    let vs := b.filterMap id
    let q := quantBlock dst (vs.map g.readFlush) (ms.take vs.length)
    let rest := quantRun dst g n (xs.drop 32) (ms.drop vs.length)
    ⟨refill b q.2.1 ++ rest.vals, q.1 :: rest.scales, b.map (fun _ => q.2.2) ++ rest.flags⟩

/-- The flag that an invalid divisor sets once for the instruction (R47). -/
def divisorFlag (p : List Nat) : Nat := if patTop p = 1 ∧ (divisorOf (patArg p)).isNone then flINV else 0

/-- R228: converts the values of a copy in stream order. -/
def transform (p : List Nat) (cvtctl : Nat) (xs : List (Option Nat)) : Transformed :=
  let src := patTsrc p
  let dst := patTdst p
  let top := patTop p
  let vs := xs.filterMap id
  let ms := cpytModes cvtctl top dst vs.length
  let sat := bitAt cvtctl 7
  let g := (ffmt src).getD f16
  if top = 2 then quantRun dst g (xs.length / 32) xs ms
  else
    let d := divisorOf (patArg p)
    let rs := (vs.zip ms).map (fun v =>
      if top = 0 then convert dst src v.2 sat v.1
      else if top = 1 then convertScaled dst src v.2 sat d v.1
      else ts8Encode (g.readFlush v.1))
    ⟨refill xs (rs.map (·.1)), [], (refill xs (rs.map (·.2))).map (fun f => f.getD 0)⟩

/-- R229: the record of the edge a transform wrote: lanes of level 1, K of level 0, one correction for each lane. -/
def cpytRecord (p : List Nat) (vals scales : List Nat) (free : Nat → Nat) : List Nat :=
  let k := (patLevel p 0).n
  let lanes := (patLevel p 1).n
  let dst := patTdst p
  let scaled := patTop p == 2
  match famOf dst scaled with
  | none => []
  | some f =>
    corrections ((List.range lanes).map (fun l =>
      feedLane dst f ((List.range k).map (fun i => some (vals.getD (k * l + i) 0, if scaled then scales.getD ((k * l + i) / 32) 0 else 255)))))
      free

/-! ## The checks at issue (R221, R227 to R231) -/

/-- What an address touches of own scratchpad: window offsets of `core`'s own window, by either address. -/
def ownOffset (core a : Nat) : Option Nat :=
  if a < 0x1000000 then some a
  else if 0x4000000 ≤ a ∧ a < 0x8000000 ∧ fld a 24 2 = core % 4 then some (a % 2 ^ 24)
  else none

/-- Cuts [a, a + n) at 64 KiB. -/
def cutPages : Nat → Nat → Nat → List (Nat × Nat)
  | 0, _, _ => []
  | fuel + 1, a, n =>
    let m := 65536 - a % 65536
    if n = 0 then [] else if n ≤ m then [(a % 2 ^ 64, n)] else (a % 2 ^ 64, m) :: cutPages fuel ((a + m) % 2 ^ 64) (n - m)

/-- The pieces of a range: none crosses a page, a way or a row of Table 9.1. -/
def pieces (a n : Nat) : List (Nat × Nat) := cutPages (n / 65536 + 2) a n

/-- The own way of an address, by either window. -/
def ownWay (core a : Nat) : Option Nat := (ownOffset core a).map (fun off => off / 2 ^ 20)

/-- The own ways under [a, a + n), as a mask. -/
def ownMask (core a n : Nat) : Nat := (pieces a n).foldl (fun m p => m ||| ((ownWay core p.1).elim 0 (fun w => 2 ^ w))) 0

/-- The trap conditions of bytes [a, a + n) of an engine access (R221). -/
def whereCands (core ways a n : Nat) : List Cand :=
  (pieces a n).flatMap (fun p =>
    candIf (decide ((0x1000000 ≤ p.1 ∧ p.1 < 0x4000000) ∨ 2 ^ 55 ≤ p.1) || (ownWay core p.1).any (fun w => !bitAt ways w)) (wayTrap p.1))

/-- `trap(alignment)` of an address. -/
def alignCand (a m : Nat) : List Cand := candIf (a % m != 0) ⟨0x0C, .val a⟩

/-- The trap conditions of an own-scratchpad window address with alignment `m` (R227). -/
def windowCands (core ways a m n : Nat) : List Cand :=
  if 0x1000000 ≤ a then [illegalCombination] else alignCand a m ++ whereCands core ways a n

/-- Whether a nest has an element that is not clipped, which alone uses the source base (R221). -/
def nestReads (p : List Nat) : Bool :=
  (List.range 6).all (fun l => let v := patLevel p l; decide (v.clo < min v.chi v.n))

/-- The strides of the levels that take a step: over all iterations, or (`read`) over those that are not clipped. -/
def usedStrides (p : List Nat) (source read : Bool) : List Nat :=
  (List.range 6).filterMap (fun l =>
    let v := patLevel p l
    if 1 < (if read then min v.chi v.n else v.n) then some (if source then v.ss else v.ds) else none)

/-- The lowest misaligned address of a list. -/
def lowestOff (m : Nat) (l : List Nat) : Option Nat :=
  l.foldl (fun acc a => if a % m = 0 then acc else some (acc.elim a (min a))) none

/-- Alignment of a base and of the strides from it (R221), at the lowest misaligned address of the base and the elements `addrs` (Table 17.2);
a misaligned stride that leads to no such element is reported at the address it first leads to (notes/assumptions/24.md). -/
def nestAlign (base : Nat) (strides addrs : List Nat) (m : Nat) : List Cand :=
  if base % m = 0 ∧ strides.all (fun t => t % m == 0) then []
  else
    match lowestOff m (base :: addrs) with
    | some a => [⟨0x0C, .val a⟩]
    | none => strides.flatMap (fun t => candIf (t % m != 0) ⟨0x0C, .val ((base + t) % 2 ^ 64)⟩)

/-- The ranges of own scratchpad and elsewhere a nest touches: sources of unclipped elements and destinations. -/
def nestRanges (op : Nat) (o : CpOps) (p : List Nat) : List (Nat × Nat) :=
  let es := patElems p
  (if writesNest op then es.map (fun e => (e.dst, dstBytes op p)) else []) ++
    (if readsNest op o p then (es.filter (fun e => !e.clip)).map (fun e => (e.from op, patEs p)) else [])

/-- Other ranges a copy uses: records and scales, all of own scratchpad. -/
def recordRanges (op : Nat) (p : List Nat) : List (Nat × Nat × Nat) :=
  (if op = 1 ∧ patCarry p then [(patRecs p, 128, 1024), (patRecd p, 128, 1024)] else []) ++
    (if op = 3 ∧ patRec p then [(patRecs p, 128, 1024)] else []) ++
    (if op = 3 ∧ patTop p = 2 then [(patArg p, 2, 2 * ((patElems p).length / 32))] else [])

/-- Every trap condition of a copy instruction of Table 10.2. -/
def copyCands (s : State) (op : Nat) (o : CpOps) : List Cand :=
  let x := s.me
  let p := x.pattern o.cp
  let k := coreOf s.cur
  let ways := x.win.ways
  let fl := effFl op o p
  let ctr := x.a o.a
  let illegal := (op == 2 && fl == 0) || fl == 7 || (op == 8 && decide (1 < fl)) || (op == 0x18 && ctr != 0) ||
    (op == 3 && cpytIllegal p) || (op == 4 && decide (64 < (patLevel p 0).n))
  let m := min (patEs p) 16
  let read := ((patElems p).filter (fun e => !e.clip)).map (fun e => e.from op)
  candIf illegal illegalCombination ++
    (if ctr = 0 then [] else alignCand ctr 8 ++ whereCands k ways ctr 8) ++
    (if op = 4 ∨ op = 5 then (if op = 4 then alignCand (pw p 0) 128 else []) ++ (if op = 4 then whereCands k ways (pw p 0) 1 else []) else []) ++
    (if writesNest op then nestAlign (pw p 1) (usedStrides p false false) ((patElems p).map (·.dst)) m else []) ++
    (if !nestReads p then []
     else if op = 8 then nestAlign (pw p 1) (usedStrides p false true) read m
     else if readsNest op o p then nestAlign (pw p 0) (usedStrides p true true) read m else []) ++
    (nestRanges op o p).flatMap (fun g => whereCands k ways g.1 g.2) ++
    (if memStream op o p then alignCand (pw p 0) 32 ++ whereCands k ways (pw p 0) 1 else []) ++
    (recordRanges op p).flatMap (fun r => windowCands k ways r.1 r.2.1 r.2.2)

/-- The own ways a copy may touch (R238). -/
def copyWays (s : State) (op : Nat) (o : CpOps) : Nat :=
  let x := s.me
  let p := x.pattern o.cp
  let k := coreOf s.cur
  let m0 := (nestRanges op o p).foldl (fun m g => m ||| ownMask k g.1 g.2) 0
  let m1 := (recordRanges op p).foldl (fun m r => m ||| ownMask k r.1 r.2.2) m0
  let m2 := if x.a o.a = 0 then m1 else m1 ||| ownMask k (x.a o.a) 8
  if memStream op o p then m2 ||| x.win.ways else m2

end Sys2Proof.Machine
end

