-- ==== Sys2Proof/Machine/Sluice.lean ====
section
/-! DEFINITION. The accesses of the copy engine (R221, R238, Table 10.4), the reads and writes that a copy is made of, and how they
perform: one by one and in no fixed order while the copy runs (R219, R224), the rest when it completes. -/

namespace Sys2Proof.Machine

/-! ## Engine accesses -/

/-- What an engine access finds at an address. -/
inductive Hit where
  | ok (t : Target)
  /-- own way `w`, whose owner tag is no longer the recorded one -/
  | lost (w : Nat)
  | fault (cause detail : Nat)
  deriving DecidableEq, Repr

/-- Whether way `w` still has the owner tag that instruction `i` recorded: a released way keeps its tag (R127). -/
def State.tagHolds (s : State) (i : Issued) (w : Nat) : Bool :=
  s.way (coreOf i.ctx) w == .owned i.job i.ctx || s.way (coreOf i.ctx) w == .released i.job i.ctx

/-- The ways an instruction recorded whose owner tag has changed (R238). -/
def State.lostWays (s : State) (i : Issued) : List Nat := (List.range 16).filter (fun w => bitAt i.ways w && !s.tagHolds i w)

/-- The check of one piece of an engine access. -/
def State.engHit (s : State) (r : CpRun) (a : Nat) (p : Perm) : Hit :=
  let k := coreOf r.iss.ctx
  match ownOffset k a with
  | some off =>
    let w := off / 2 ^ 20
    if !bitAt r.iss.ways w then .fault 0x51 0
    else if s.tagHolds r.iss w then .ok ⟨.sp, k * 2 ^ 24 + off, true, false, none⟩
    else .lost w
  | none =>
    match addrRow a with
    | 2 =>
      let t := k / 4 * 4 + fld a 24 2
      if r.op = 0x18 then .fault 0x5B 0
      else if tagJob (s.way t (a % 2 ^ 24 / 2 ^ 20)) = some r.iss.job then .ok ⟨.sp, t * 2 ^ 24 + a % 2 ^ 24, false, true, none⟩
      else .fault 0x52 t
    | 3 =>
      match s.coreLeaf k r.iss.job a with
      | none => .fault 0x50 0
      | some f =>
        if r.op = 0x18 ∧ ¬ (pteClass f.pte = 0 ∧ pteHome f.pte = 2) then .fault 0x5B 0
        else if pteClass f.pte = 1 ∨ !p.allows f.pte then .fault 0x51 0
        else
          let t := leafTarget f a
          if s.reachable t then .ok t else .fault 0x59 (s.peerPort (t.addr / 2 ^ 40))
    | _ => .fault 0x50 0

/-- What an access of core `k` for job `j` to `n` bytes at `a` does beside its data: the translation it used is cached, A and D are set,
lines are locked. -/
def State.engUse (s : State) (k j a : Nat) (t : Target) (write : Bool) (n : Nat) : State :=
  (match t.leaf with | some f => s.coreUsed k j a f | none => s).touch k t write n

/-- Reads pieces: the state after them, and their bytes as one number with the own ways found under another owner tag, which read as
zero; or the first fault. -/
def engReads (r : CpRun) : List (Nat × Nat) → State → State × Except (Nat × Nat) (Nat × Nat)
  | [], s => (s, .ok (0, 0))
  | (a, n) :: rest, s =>
    match s.engHit r a .load with
    | .fault c d => (s, .error (c, d))
    | .lost w => (let q := engReads r rest s; (q.1, q.2.map (fun v => (2 ^ (8 * n) * v.1, v.2 ||| 2 ^ w))))
    | .ok t =>
      if s.badIn t.space t.addr n ≠ [] then (s.meetBad t.space t.addr n, .error (0x5C, 0))
      else
        let s1 := s.engUse (coreOf r.iss.ctx) r.iss.job a t false n
        let q := engReads r rest s1
        (q.1, q.2.map (fun v => (s1.readN t.space t.addr n + 2 ^ (8 * n) * v.1, v.2)))

/-- Reads `n` bytes at `a`. -/
def engRead (s : State) (r : CpRun) (a n : Nat) : State × Except (Nat × Nat) (Nat × Nat) := engReads r (pieces a n) s

/-- What writing has come to: the state, bytes written, the own ways found under another owner tag, the scratchpad bytes written, and a
fault. -/
structure Wrote where
  s : State
  bytes : Nat
  gone : Nat
  wet : List (Nat × Nat)
  fault : Option (Nat × Nat)

/-- Nothing written yet. -/
def Wrote.start (s : State) : Wrote := ⟨s, 0, 0, [], none⟩

/-- A write at virtual address `a` performs, or, `later`, is left to become visible (R231). -/
def State.engPut (s : State) (r : CpRun) (later : Bool) (t : Target) (a n v : Nat) : State :=
  if later then
    let via := match t.leaf with | some f => f.via | none => ⟨0, 0, 2, false⟩
    s.modMem (fun m => { m with loose := m.loose ++ [⟨r.iss.job, r.iss.place, r.iss.seq, via, a, t.space.code, t.addr, n, v⟩] })
  else s.engineWrite r.iss r.o.tout t.space t.addr n v

/-- Writes pieces in order, up to a fault; a write into a lost way is discarded (R238). -/
def engWrites (r : CpRun) (later : Bool) : List (Nat × Nat) → Nat → Wrote → Wrote
  | [], _, w => w
  | (a, n) :: rest, v, w =>
    match w.s.engHit r a .store with
    | .fault c d => { w with fault := some (c, d) }
    | .lost x => engWrites r later rest (v / 2 ^ (8 * n)) { w with gone := w.gone ||| 2 ^ x }
    | .ok t =>
      let s1 := w.s.engUse (coreOf r.iss.ctx) r.iss.job a t true n
      engWrites r later rest (v / 2 ^ (8 * n)) { w with
        s := s1.engPut r later t a n (v % 2 ^ (8 * n))
        bytes := w.bytes + n
        wet := w.wet ++ (if t.space = .sp then [(t.addr, n)] else []) }

/-- The bytes [a, a + n) as they translate now. -/
def physRange (s : State) (r : CpRun) (p : Perm) (a n : Nat) : List (Nat × Nat × Nat) :=
  (pieces a n).filterMap (fun q =>
    match s.engHit r q.1 p with
    | .ok t => some (t.space.code, t.addr, q.2)
    | _ => none)

/-- Whether physical ranges meet. -/
def physMeet (x y : List (Nat × Nat × Nat)) : Bool := x.any (fun a => y.any (fun b => a.1 == b.1 && overlap a.2.1 a.2.2 b.2.1 b.2.2))

/-- Whether an access waits for a walk (R323), or for a vertical interface that pauses (R335). -/
def State.engHeld (s : State) (r : CpRun) (p : Perm) (a n : Nat) : Bool :=
  (pieces a n).any (fun q => s.walkWaits (coreOf r.iss.ctx) r.iss.job q.1 ||
    (match s.engHit r q.1 p with
     | .ok t => s.paused (t.crosses (dieOf (coreOf r.iss.ctx)))
     | _ => false))

/-- The walks that an access needs (R323). -/
def State.engWalks (s : State) (r : CpRun) (a n : Nat) : List Fetch := (pieces a n).filterMap (fun q => s.coreWalk (coreOf r.iss.ctx) r.iss.job q.1)

/-- Whether an access finds no fault at any of its pieces and has nothing to wait for. -/
def State.engClear (s : State) (r : CpRun) (p : Perm) (a n : Nat) : Bool :=
  !s.engHeld r p a n && (pieces a n).all (fun q =>
    match s.engHit r q.1 p with
    | .fault _ _ => false
    | .lost _ => true
    | .ok t => p == .store || s.badIn t.space t.addr q.2 == [])

/-! ## The reads and writes of a copy (R219, R227 to R229) -/

/-- A read: its iteration, address and length; a late one waits for the copy's data. -/
structure Rd where
  it : Nat
  addr : Nat
  len : Nat
  late : Bool
  deriving DecidableEq, Repr

/-- Where the bytes of a write come from. -/
inductive Feed where
  /-- the fill, once `off` bytes of the stream have come -/
  | fill (off : Nat)
  /-- the stream from byte `off` on -/
  | stream (off : Nat)
  /-- read `i` -/
  | read (i : Nat)
  /-- the conversion of element `e` -/
  | conv (e : Nat)
  /-- the scale of block `b` of `qblk` -/
  | scale (b : Nat)
  /-- 16 bytes of the record that `cpyt` writes -/
  | record (i : Nat)
  deriving DecidableEq, Repr

/-- A write. -/
structure Wr where
  it : Nat
  addr : Nat
  len : Nat
  late : Bool
  feed : Feed
  deriving DecidableEq, Repr

/-- Whether a write is of a destination element, which `bytes` and the completed prefix count (R237). -/
def Wr.elem (w : Wr) : Bool := !w.late && (match w.feed with | .scale _ => false | _ => true)

/-- Elements with the place of each in the stream it takes its bytes from. -/
def withOffs (step : Elem → Nat) : List Elem → Nat → List (Elem × Nat)
  | [], _ => []
  | e :: r, n => (e, n) :: withOffs step r (n + step e)

/-- Whether the nest's data come as a stream of bytes: from the Flume or from storage. -/
def CpRun.streamed (r : CpRun) : Bool := r.op == 7 || memStream r.op r.o r.pat

/-- The elements with their places in the stream: a clipped element takes no bytes of a Flume stream, and its bytes of a raw one are
skipped (R232, R235; notes/assumptions/18.md). -/
def CpRun.elems (r : CpRun) : List (Elem × Nat) :=
  let es := patEs r.pat
  let raw := r.op == 7 && effFl r.op r.o r.pat == 0
  withOffs (fun e => if e.clip && !raw then 0 else es) (patElems r.pat) 0

/-- Pieces of an element that read and write each on their own: its aligned 16-byte pieces (R217, R219). -/
def CpRun.blocks (r : CpRun) : Nat := if r.op = 3 then 1 else max 1 (patEs r.pat / 16)

/-- Bytes that each of them reads. -/
def CpRun.unit (r : CpRun) : Nat := if r.op = 3 then patEs r.pat else min (patEs r.pat) 16

/-- Whether the instruction is a nest that writes. -/
def CpRun.isCopy (r : CpRun) : Bool := writesNest r.op

/-- The reads of a copy; the first are those of its elements. -/
def CpRun.reads (r : CpRun) : List Rd :=
  if !r.isCopy then []
  else
    r.elems.zipIdx.flatMap (fun p => (List.range r.blocks).map (fun b => ⟨p.2, (p.1.1.src + 16 * b) % 2 ^ 64, r.unit, false⟩)) ++
      (if r.op = 1 ∧ patCarry r.pat then (List.range 64).map (fun i => ⟨r.elems.length, patRecs r.pat + 16 * i, 16, true⟩) else [])

/-- Where piece `b` of element `i` takes its bytes from. -/
def CpRun.feedOf (r : CpRun) (e : Elem) (off i b : Nat) : Feed :=
  if e.clip ∨ r.op = 9 then .fill (if r.streamed then off else 0)
  else if r.op = 3 then .conv i
  else if r.streamed then .stream (off + 16 * b)
  else .read (r.blocks * i + b)

/-- The writes of a copy, numbered like its reads. -/
def CpRun.writes (r : CpRun) : List Wr :=
  if !r.isCopy then []
  else
    let n := r.elems.length
    r.elems.zipIdx.flatMap (fun p => (List.range r.blocks).map (fun b =>
        ⟨p.2, (p.1.1.dst + 16 * b) % 2 ^ 64, if r.op = 3 then dstBytes r.op r.pat else r.unit, false, r.feedOf p.1.1 p.1.2 p.2 b⟩)) ++
      (if r.op = 1 ∧ patCarry r.pat then
        (List.range 64).map (fun i => ⟨n, patRecd r.pat + 16 * i, 16, true, .read (r.blocks * n + i)⟩) else []) ++
      (if r.op = 3 ∧ patTop r.pat = 2 then (List.range (n / 32)).map (fun b => ⟨n, patArg r.pat + 2 * b, 2, false, .scale b⟩) else []) ++
      (if r.op = 3 ∧ patRec r.pat then (List.range 64).map (fun i => ⟨n, patRecs r.pat + 16 * i, 16, true, .record i⟩) else [])

/-- The reads that a copy has to make. -/
def CpRun.firstReads (r : CpRun) : List Nat :=
  if !r.isCopy ∨ r.op = 9 then []
  else
    let n := r.elems.length
    (if r.streamed then [] else
      r.elems.zipIdx.flatMap (fun p => if p.1.1.clip then [] else (List.range r.blocks).map (fun b => r.blocks * p.2 + b))) ++
      (List.range (r.reads.length - r.blocks * n)).map (fun i => r.blocks * n + i)

/-- What a read has brought. -/
def CpRun.gotAt (r : CpRun) (i : Nat) : Option Nat := (r.got.find? (fun g => g.1 == i)).map (·.2)

/-- The source values of `cpyt`, none for a clipped element, and whether each has come; `d` is the stream. -/
def CpRun.sources (r : CpRun) (d : List Nat) : List (Option Nat × Bool) :=
  let es := patEs r.pat
  r.elems.zipIdx.map (fun p =>
    if p.1.1.clip then (none, true)
    else if r.streamed then
      (if p.1.2 + es ≤ d.length then (some (leNat ((d.drop p.1.2).take es)), true) else (some 0, false))
    else (match r.gotAt p.2 with | some v => (some v, true) | none => (some 0, false)))

/-- Whether element `e` can be converted: its value has come, with its whole block for `qblk` (R228). -/
def CpRun.ready (r : CpRun) (d : List Nat) (e : Nat) : Bool :=
  let l := r.sources d
  if patTop r.pat = 2 then ((l.drop (e / 32 * 32)).take 32).all (·.2) else (l.getD e (none, false)).2

/-- The conversion of what has come. -/
def CpRun.converted (r : CpRun) (d : List Nat) : Transformed := transform r.pat r.cvtctl ((r.sources d).map (·.1))

/-- The flags that a transform has raised (R228): of the elements it has converted, and of the divisor. -/
def CpRun.flags (r : CpRun) (d : List Nat) : Nat :=
  if r.op = 3 then
    ((r.converted d).flags.zipIdx.filter (fun p => r.ready d p.2)).foldl (fun a p => a ||| p.1) (divisorFlag r.pat)
  else 0

/-- The record of R229; free values where a level beyond level 1 iterates (notes/assumptions/28.md). -/
def CpRun.recordWord (s : State) (r : CpRun) (d : List Nat) (i : Nat) : Nat :=
  let t := r.converted d
  let fill := fillBytes r.o.fill (patFill r.pat) (dstBytes r.op r.pat)
  let free := fun l => s.free (8000 + l)
  let deep := (List.range 4).any (fun l => decide (1 < (patLevel r.pat (l + 2)).n))
  let vec := if deep then (List.range 128).map (fun l => free l % 2 ^ 64) else cpytRecord r.pat (t.vals.map (fun v => v.getD fill)) t.scales free
  vec.getD (2 * i) 0 % 2 ^ 64 + 2 ^ 64 * (vec.getD (2 * i + 1) 0 % 2 ^ 64)

/-- The bytes of a write; none while they have not come. -/
def CpRun.value (s : State) (r : CpRun) (d : List Nat) (w : Wr) : Option Nat :=
  let fill := fillBytes r.o.fill (patFill r.pat) w.len
  match w.feed with
  | .fill off => if off ≤ d.length then some fill else none
  | .stream off => if off + w.len ≤ d.length then some (leNat ((d.drop off).take w.len)) else none
  | .read i => r.gotAt i
  | .conv e => if r.ready d e then some (((r.converted d).vals.getD e none).getD fill) else none
  | .scale b => if r.ready d (32 * b) then some ((r.converted d).scales.getD b 0) else none
  | .record i => if (r.sources d).all (·.2) then some (r.recordWord s d i) else none

/-! ## How they perform -/

/-- A copy in progress: the state, the instruction, a fault. -/
structure Prog where
  s : State
  r : CpRun
  fault : Option (Nat × Nat)

/-- Read `i` performs. -/
def Prog.read (g : Prog) (i a n : Nat) : Prog :=
  let q := engRead g.s g.r a n
  match q.2 with
  | .error f => ⟨q.1, g.r, some f⟩
  | .ok v => ⟨q.1, { g.r with todo := g.r.todo.filter (fun j => j != i), got := g.r.got ++ [(i, v.1)], gone := g.r.gone ||| v.2 }, none⟩

/-- What a write leaves of the instruction; `count` says whether R237 counts its bytes. -/
def CpRun.after (r : CpRun) (w : Wrote) (count : Bool) : CpRun :=
  { r with wrote := r.wrote + (if count then w.bytes else 0), gone := r.gone ||| w.gone, wet := r.wet ++ w.wet }

/-- Bytes are written. -/
def Prog.put (g : Prog) (a n v : Nat) (count later : Bool) : Prog :=
  let w := engWrites g.r later (pieces a n) v (Wrote.start g.s)
  ⟨w.s, g.r.after w count, w.fault⟩

/-- Write `i` performs, or is discarded. -/
def Prog.write (g : Prog) (i a n v : Nat) (count later : Bool) : Prog :=
  let w := engWrites g.r later (pieces a n) v (Wrote.start g.s)
  let r := g.r.after w count
  if w.fault.isSome then ⟨w.s, r, w.fault⟩
  else ⟨w.s, { r with left := r.left.filter (fun j => j != i), lost := if w.gone = 0 then r.lost else i :: r.lost }, none⟩

/-- Whether the writes of the data are all performed, which the late reads and writes wait for. -/
def CpRun.dataDone (r : CpRun) : Bool := !r.writes.zipIdx.any (fun p => !p.1.late && r.left.contains p.2)

/-- Whether a write may perform before everything that is earlier in nest order: no read that may not see it is still to perform, and no
earlier write to its bytes (R219). -/
def State.mayWrite (s : State) (r : CpRun) (it a n : Nat) (reads : List Rd) (writes : List Wr) : Bool :=
  let dst := physRange s r .store a n
  r.todo.all (fun i => match reads[i]? with | some q => decide (it < q.it) || !physMeet dst (physRange s r .load q.addr q.len) | none => true) &&
    r.left.all (fun i => match writes[i]? with | some q => decide (it ≤ q.it) || !physMeet dst (physRange s r .store q.addr q.len) | none => true)

/-- What one read or write more leads a running copy to: of those that find no fault, in any order that R219 allows. -/
def copyMoves (s : State) (r : CpRun) (d : List Nat) : List Prog :=
  let g : Prog := ⟨s, r, none⟩
  let late := r.dataDone && r.fault.isNone
  r.todo.filterMap (fun i =>
    match r.reads[i]? with
    | some q => if (!q.late || late) && s.engClear r .load q.addr q.len then some (g.read i q.addr q.len) else none
    | none => none) ++
  r.left.filterMap (fun i =>
    match r.writes[i]? with
    | some q =>
      (match r.value s d q with
       | some v => if (!q.late || late) && s.engClear r .store q.addr q.len && s.mayWrite r q.it q.addr q.len r.reads r.writes then
           some (g.write i q.addr q.len v q.elem false) else none
       | none => none)
    | none => none)

/-- The reads of a group that are still to perform. -/
def Prog.readAll : List Nat → Prog → Prog
  | [], g => g
  | i :: rest, g =>
    if g.r.todo.contains i then
      match g.r.reads[i]? with
      | some q => (let h := g.read i q.addr q.len; if h.fault.isSome then h else h.readAll rest)
      | none => g.readAll rest
    else g.readAll rest
termination_by structural l => l

/-- The writes of a group that are still to perform; where the stream has no more, the bytes that it has of the first of them. -/
def Prog.writeAll (d : List Nat) : List Nat → Prog → Prog × Bool
  | [], g => (g, true)
  | i :: rest, g =>
    if g.r.left.contains i then
      match g.r.writes[i]? with
      | some q =>
        (match g.r.value g.s d q, q.feed with
         | some v, _ => (let h := g.write i q.addr q.len v q.elem (g.r.op == 0x18); if h.fault.isSome then (h, false) else h.writeAll d rest)
         | none, .stream off => (if off < d.length then g.put q.addr (d.length - off) (leNat (d.drop off)) true false else g, false)
         | none, _ => (g, false))
      | none => g.writeAll d rest
    else g.writeAll d rest
termination_by structural l => l

/-- What is left of a copy performs, group by group in nest order, up to a fault. -/
def Prog.finish (d : List Nat) : List (List Nat) → Prog → Prog
  | [], g => g
  | l :: rest, g =>
    let h := g.readAll l
    if h.fault.isSome then h
    else
      let k := h.writeAll d l
      if k.1.fault.isSome ∨ !k.2 then k.1 else k.1.finish d rest

/-- The groups: the blocks of `qblk`, else the pieces of each element together (R219), and what follows the elements one write each; none
that waits for the data where the stream has faulted. -/
def CpRun.groups (r : CpRun) : List (List Nat) :=
  let n := if r.fault.isSome then (r.writes.filter (fun w => !w.late)).length else r.writes.length
  let size := if r.op = 3 ∧ patTop r.pat = 2 then 32 else r.blocks
  let b := r.elems.length * r.blocks / size
  (List.range b).map (fun i => (List.range size).map (fun j => size * i + j)) ++ (List.range (n - size * b)).map (fun i => [size * b + i])

/-- The indices of the completed prefix (R237): none of an instruction that writes no nest, or whose blocks storage did not take. -/
def CpRun.pre (r : CpRun) : Option (List Nat) :=
  let done := r.elems.zipIdx.takeWhile (fun p => (List.range r.blocks).all (fun b =>
    !r.left.contains (r.blocks * p.2 + b) && !r.lost.contains (r.blocks * p.2 + b)))
  if r.isCopy ∨ (r.op = 8 ∧ r.fault.isNone) then done.getLast?.map (fun p => p.1.1.its) else none

end Sys2Proof.Machine
end

