-- ==== Sys2Proof/Machine/Storage.lean ====
section
/-! DEFINITION. Storage copies (R232, R359, R360): handles, NVMe commands and their PRP lists, the start of `sread` and `swrite`, and
what the drive's completions leave. -/

namespace Sys2Proof.Machine

/-! ## Handles (R359) -/

/-- Register `n` of storage handle `h` (Table 20.11). -/
def State.handleReg (s : State) (h n : Nat) : Nat := look 0 s.links.handles (8 * h + n)
/-- Whether a handle is configured, its block size, its limit in cycles, its staging window. -/
def State.handleValid (s : State) (h : Nat) : Bool := bitAt (s.handleReg h 2) 63
def State.blockSize (s : State) (h : Nat) : Nat := if bitAt (s.handleReg h 2) 48 then 4096 else 512
def State.handleLimit (s : State) (h : Nat) : Nat := (let v := s.handleReg h 6 % 65536; if v = 0 then 1000 else v) * 600000
def State.stageBase (s : State) (h : Nat) : Nat := fld (s.handleReg h 5) 20 32 * 2 ^ 20
def State.stageSlices (s : State) (h : Nat) : Nat := s.handleReg h 5 % 128

/-- Changes the links. -/
def State.modLinks (s : State) (f : Links → Links) : State := { s with links := f s.links }

/-- A free slice of a handle's window. -/
def State.freeSlice (s : State) (h : Nat) : Option Nat :=
  (List.range (s.stageSlices h)).find? (fun i => !s.links.nvme.any (fun c => c.handle == h && c.slice == some i))

/-! ## Commands (R360) -/

/-- The pages of a command's data in its slice, from the first on (R232). -/
def State.prpPages (s : State) (c : Nvme) (slice : Nat) : List Nat :=
  if c.op = 0 then []
  else
    let base := s.stageBase c.handle + slice * 2 ^ 20
    (List.range ((c.blocks * s.blockSize c.handle + 4095) / 4096)).map (fun i => base + 4096 * i)

/-- The second PRP entry: nothing for one page, the second page of two, else the place of the PRP list, which the Miller keeps in memory
of its own (notes/assumptions/18.md). -/
def State.prp2 (s : State) (l : List Nat) : Nat :=
  match l with
  | [_, p] => p
  | _ :: _ :: _ :: _ => s.free 5101 % 2 ^ 64
  | _ => 0

/-- The submission-queue entry of a command (PRESUMED layout: the NVMe base specification; notes/assumptions/18.md). -/
def State.nvmeEntry (s : State) (c : Nvme) (slice : Nat) : Nat :=
  let l := s.prpPages c slice
  c.op + 2 ^ 16 * (s.free 5100 % 65536) + 2 ^ 32 * fld (s.handleReg c.handle 2) 16 32 +
    (if c.op = 0 then 0
     else 2 ^ 192 * l.headD 0 + 2 ^ 256 * s.prp2 l + 2 ^ 320 * c.lba + 2 ^ 384 * ((c.blocks - 1) % 65536))

/-- Submits command `n` in slice `slice`: a Write's bytes are staged, the PRP list and the entry are built, the doorbell is rung. -/
def submitNvme (s : State) (c : Nvme) (slice : Nat) : State :=
  let tail := look 0 s.links.tails c.handle
  let depth := s.handleReg c.handle 2 % 4096 + 1
  let s1 := if c.op = 1 then s.writeN .dram (s.stageBase c.handle + slice * 2 ^ 20) c.data.length (leNat c.data) else s
  let s2 := s1.writeN .dram (fld (s.handleReg c.handle 0) 6 46 * 64 + 64 * tail) 64 (s.nvmeEntry c slice)
  s2.modLinks (fun l => { l with
    tails := setv 0 l.tails c.handle ((tail + 1) % depth)
    nvme := l.nvme.map (fun d => if d.n = c.n then { d with slice := some slice, prps := s.prpPages c slice, sent := some s.clock } else d) })

/-- Submits what has a free slice, each handle's commands in their order; `n` bounds the commands. -/
def pumpNvme (s : State) : Nat → State
  | 0 => s
  | n + 1 =>
    let waiting := s.links.nvme.filter (fun c => c.sent.isNone && !c.done)
    match (List.range 8).filterMap (fun h =>
        match waiting.find? (fun c => c.handle == h), s.freeSlice h with
        | some c, some i => some (c, i)
        | _, _ => none) with
    | [] => s
    | (c, i) :: _ => pumpNvme (submitNvme s c i) n

/-- The commands of a copy of `blocks` blocks from `lba`, at most 1 MiB each: (first block, blocks, bytes). -/
def cutBlocks (per bs : Nat) : Nat → Nat → Nat → List Nat → List (Nat × Nat × List Nat)
  | 0, _, _, _ => []
  | fuel + 1, lba, n, data =>
    if n = 0 then []
    else if n ≤ per then [(lba, n, data)]
    else (lba, per, data.take (per * bs)) :: cutBlocks per bs fuel (lba + per) (n - per) (data.drop (per * bs))

/-- Adds commands of instruction `seq` of core `k`. -/
def addNvme (s : State) (k seq h op : Nat) (l : List (Nat × Nat × List Nat)) : State :=
  let new := l.zipIdx.map (fun p => (⟨s.links.nvmeNext + p.2, k, seq, h, op, p.1.1, p.1.2.1, p.1.2.2, none, [], none, false⟩ : Nvme))
  let s1 := s.modLinks (fun l => { l with nvme := l.nvme ++ new, nvmeNext := l.nvmeNext + new.length })
  pumpNvme s1 (s1.links.nvme.length)

/-- Changes instruction `n` of core `k`'s Sluice. -/
def modCp (s : State) (k n : Nat) (f : CpRun → CpRun) : State :=
  s.modEng k (fun e => { e with cpq := e.cpq.map (fun r => if r.iss.seq = n then f r else r) })

/-- A fault found before the end. -/
def setCpFault (s : State) (k n : Nat) (f : Nat × Nat) : State := modCp s k n (fun r => { r with fault := some f })

/-- The bytes of a `swrite`'s source, in nest order, fill for clipped elements: the state after the reads, the bytes or a fault, and the
own ways found under another owner tag. -/
def nestBytes (r : CpRun) : List Elem → State → State × Except (Nat × Nat) (List Nat × Nat)
  | [], s => (s, .ok ([], 0))
  | e :: rest, s =>
    let es := patEs r.pat
    if e.clip then
      (let q := nestBytes r rest s; (q.1, q.2.map (fun l => (leBytes es (fillBytes r.o.fill (patFill r.pat) es) ++ l.1, l.2))))
    else
      let v := engRead s r (e.from r.op) es
      match v.2 with
      | .error f => (v.1, .error f)
      | .ok b => (let q := nestBytes r rest v.1; (q.1, q.2.map (fun l => (leBytes es b.1 ++ l.1, l.2 ||| b.2))))

/-- The start of a storage copy. -/
def startStorage (s : State) (k : Nat) (r : CpRun) : State :=
  let h := patHandle r.pat
  let lba := pw r.pat 0 % 2 ^ 48
  let blocks := fld (pw r.pat 0) 48 16 + 1
  let bs := s.blockSize h
  let per := 2 ^ 20 / bs
  if !s.handleValid h then setCpFault s k r.iss.seq (0x58, 0xFFFE)
  else if r.op = 7 then addNvme s k r.iss.seq h 2 (cutBlocks per bs (blocks + 1) lba blocks [])
  else
    let q := nestBytes r (patElems r.pat) s
    match q.2 with
    | .error f => setCpFault q.1 k r.iss.seq f
    | .ok raw =>
      let s0 := if raw.2 = 0 then q.1 else modCp q.1 k r.iss.seq (fun p => { p with gone := p.gone ||| raw.2 })
      let fl := effFl r.op r.o r.pat
      let data := if fl = 1 then storedStream (raw.1.length / 1048576 + 1) raw.1 else raw.1
      if (fl = 0 ∧ data.length ≠ blocks * bs) ∨ blocks * bs < data.length then setCpFault s0 k r.iss.seq (0x58, 0xFFFF)
      else addNvme s0 k r.iss.seq h 1 (cutBlocks per bs (blocks + 1) lba blocks (data ++ List.replicate (blocks * bs - data.length) 0))

/-- The commands of an instruction. -/
def State.nvmeOf (s : State) (k n : Nat) : List Nvme := s.links.nvme.filter (fun c => c.core == k && c.seq == n)

/-- Whether all of them have completed. -/
def State.nvmeDone (s : State) (k n : Nat) : Bool := (s.nvmeOf k n).all (·.done)

/-- The bytes that storage has staged for an instruction. -/
def State.staged (s : State) (k n : Nat) : List Nat := (s.nvmeOf k n).flatMap (·.data)

/-! ## Storage events -/

/-- A flush follows the writes of a `swrite` that asks for it. -/
def followFlush (s : State) (c : Nvme) : State :=
  match (s.eng c.core).cpq.find? (fun r => r.iss.seq == c.seq) with
  | some r =>
    if r.op = 8 ∧ patFlush r.pat ∧ c.op = 1 ∧ s.nvmeDone c.core c.seq then addNvme s c.core c.seq c.handle 0 [(0, 1, [])] else s
  | none => s

/-- A command completes with a status (SCT and SC); the bytes of a Read have been staged. -/
def completeNvme (s : State) (n status : Nat) (data : List Nat) : State :=
  match s.links.nvme.find? (fun c => c.n == n && c.sent.isSome && !c.done) with
  | none => s
  | some c =>
    let bytes := c.blocks * s.blockSize c.handle
    let got := if c.op = 2 ∧ status % 2048 = 0 then (data ++ List.replicate (bytes - data.length) 0).take bytes else []
    let s1 := if got = [] then s else s.writeN .dram (s.stageBase c.handle + c.slice.getD 0 * 2 ^ 20) bytes (leNat got)
    let s2 := s1.modLinks (fun l => { l with nvme := l.nvme.map (fun d => if d.n = n then { d with done := true, slice := none, data := got } else d) })
    let live := (s2.eng c.core).cpq.any (fun r => r.iss.seq == c.seq)
    let s3 :=
      if !live then s2.modLinks (fun l => { l with nvme := l.nvme.filter (fun d => d.n != n) })
      else if status % 2048 ≠ 0 then
        modCp s2 c.core c.seq (fun r => if r.fault.isNone then { r with fault := some (0x58, status % 2048) } else r)
      else followFlush s2 c
    pumpNvme s3 s3.links.nvme.length

/-- A command that has outlived its handle's limit ends its copy; it stays with the drive. -/
def timeoutNvme (s : State) (n : Nat) : State :=
  match s.links.nvme.find? (fun c => c.n == n && !c.done) with
  | none => s
  | some c =>
    match c.sent with
    | none => s
    | some t =>
      if s.clock < t + s.handleLimit c.handle then s
      else modCp s c.core c.seq (fun r => if r.fault.isNone then { r with fault := some (0x58, 0xFFFD) } else r)

end Sys2Proof.Machine
end

