-- ==== Sys2Proof/Machine/Copy.lean ====
section
/-! DEFINITION. The copy slot and the Sluice (R218 to R238): issue, the start of a copy, the blocks of a Flume stream, load-blocks, what a
running copy may do next, and what completion leaves. -/

namespace Sys2Proof.Machine

/-! ## Issue -/

/-- A copy or named-line instruction as the queue of R85 holds it. The stochastic state that a transform draws from is that of the start of
its bundle, before the draws of a vc trigger of the bundle (R42; DESIGN CHOICE, notes/assumptions/60.md). -/
def cpRun (s : State) (op : Nat) (o : CpOps) (ways : Nat) : CpRun :=
  let x := s.me
  let p := x.pattern o.cp
  let i := s.issued (o.stg || (decide (op < 0x10 ∨ op = 0x18) && patStg p))
  { iss := { i with ways := ways }, op := op, o := o, pat := p, counter := x.a o.a, cvtctl := x.fmts.cvtctl, region := x.win.nreg, order := 0
    pos := 0, block := 0, data := [], ended := false, fault := none, todo := [], got := [], left := [], lost := [], gone := 0, wrote := 0
    wet := [], acts := 0, acc := [], install := (s.region x.win.nreg).install }

/-- What issuing does: the token out is cleared, a transform under SR takes its draw, which follows those of a vc trigger of the bundle (R42;
notes/assumptions/60.md), the instruction is queued. -/
def cpIssue (s : State) (op : Nat) (o : CpOps) (ways : Nat) (e : State) : State :=
  let r := cpRun s op o ways
  let e1 := e.modCtx s.cur (fun x =>
    let y := x.setTok o.tout false false
    if op = 3 ∧ fld x.fmts.cvtctl 4 3 = 4 then y.setSr (srStep (x.fmts.cvtctl / 2 ^ 32)) else y)
  let e2 := e1.chainFresh r.iss.job r.iss.place o.tout r.tins
  { e2.modEng (coreOf s.cur) (fun g => { g with cpq := g.cpq ++ [{ r with iss := { r.iss with seq := e2.seqno } }] }) with
    seqno := e2.seqno + 1 }

/-- A copy slot of opcode `op` with its trap conditions and the ways it may touch. -/
def cpSem (op : Nat) (o : CpOps) (cands : List Cand) (ways : Nat) (s : State) : Sem :=
  { phase := 35
    cands := cands
    tout := some o.tout
    tins := [o.tin0, o.tin1, o.tin2].filter (fun t => t != 63)
    queue := some false
    act := cpIssue s op o ways }

/-- A copy instruction of Table 10.2. -/
def copySem (op : Nat) (o : CpOps) (s : State) : Sem := cpSem op o (copyCands s op o) (copyWays s op o) s

def cpySem (o : CpOps) (s _l : State) : Sem := copySem 0x01 o s
def cpyfSem (o : CpOps) (s _l : State) : Sem := copySem 0x02 o s
def cpytSem (o : CpOps) (s _l : State) : Sem := copySem 0x03 o s
def lblkSem (o : CpOps) (s _l : State) : Sem := copySem 0x04 o s
def eblkSem (o : CpOps) (s _l : State) : Sem := copySem 0x05 o s
def putSem (o : CpOps) (s _l : State) : Sem := copySem 0x06 o s
def sreadSem (o : CpOps) (s _l : State) : Sem := copySem 0x07 o s
def swriteSem (o : CpOps) (s _l : State) : Sem := copySem 0x08 o s
def cfillSem (o : CpOps) (s _l : State) : Sem := copySem 0x09 o s
def xcpySem (o : CpOps) (s _l : State) : Sem := copySem 0x18 o s

/-! ## Start (R223, R224) -/

/-- Whether instruction `n` of core `k` may start. -/
def cpReady (s : State) (k n : Nat) : Bool :=
  let q := (s.eng k).cpq
  match q.find? (fun r => r.iss.seq == n) with
  | none => false
  | some r =>
    r.iss.stage == .queued && decide ((q.filter (fun p => p.iss.stage == .running)).length < 8) &&
      !q.any (fun p => p.iss.stage == .queued && r.iss.before n p.iss) && (s.ownerCtx r.iss).tinsSet r.tins

/-- A copy with all of its reads and writes before it. -/
def CpRun.begin (r : CpRun) : CpRun := { r with todo := r.firstReads, left := List.range r.writes.length }

/-! ## The blocks of a stream (R235, R236) -/

/-- Bytes that the destination takes from a Flume stream. -/
def streamNeed (p : List Nat) : Nat := patEs p * ((patElems p).filter (fun e => !e.clip)).length

/-- At most `n` bytes of a stream from `pos` on, fewer where storage has staged no more; with the own ways found under another owner tag. -/
def streamRead (s : State) (k : Nat) (r : CpRun) (pos n : Nat) : State × Except (Nat × Nat) (List Nat × Nat) :=
  if r.op = 7 then (s, .ok (((s.staged k r.iss.seq).drop pos).take n, 0))
  else (let q := engRead s r ((pw r.pat 0 + pos) % 2 ^ 64) n; (q.1, q.2.map (fun v => (leBytes n v.1, v.2))))

/-- The stream ends, with a fault or without. -/
def endStream (s : State) (k n : Nat) (data : List Nat) (f : Option (Nat × Nat)) : State :=
  modCp s k n (fun r => { r with data := data, ended := true, fault := f })

/-- What a block makes of the stream once it has been expanded. -/
def takeBlock (s : State) (k : Nat) (r : CpRun) (h : FlumeHead) (b : FlumeBlock) : State :=
  let need := streamNeed r.pat - r.data.length
  let data := r.data ++ b.out.take need
  match streamEnd need h b (bitAt (s.free 5410) 0) with
  | none => modCp s k r.iss.seq (fun r => { r with data := data, pos := r.pos + 32 + h.padded, block := r.block + 1 })
  | some f => endStream s k r.iss.seq data (f.map (fun c => (c, r.block)))

/-- Own ways found under another owner tag by an access of instruction `n`. -/
def markGone (s : State) (k n m : Nat) : State := if m = 0 then s else modCp s k n (fun r => { r with gone := r.gone ||| m })

/-- One block of the stream of instruction `n`. -/
def nextBlock (s : State) (k : Nat) (r : CpRun) : State :=
  let n := r.iss.seq
  if streamNeed r.pat = 0 then endStream s k n [] none
  else
    let q := streamRead s k r r.pos 32
    match q.2 with
    | .error f => endStream q.1 k n r.data (some f)
    | .ok hb =>
      let s1 := markGone q.1 k n hb.2
      match if hb.1.length < 32 then none else flumeHead (effFl r.op r.o r.pat) hb.1 with
      | none => endStream s1 k n r.data (some (0x54, r.block))
      | some h =>
        let p := streamRead s1 k r (r.pos + 32) h.csize
        match p.2 with
        | .error f => endStream p.1 k n r.data (some f)
        | .ok body => takeBlock (markGone p.1 k n body.2) k r h (flumeBody h body.1 (decide (body.1.length < h.csize)))

/-- Whether the Flume of core `k` works on instruction `r`: the stream that started first and has not ended. -/
def flumeTurn (s : State) (k : Nat) (r : CpRun) : Bool :=
  let streams := (s.eng k).cpq.filter (fun p => p.iss.stage == .running && usesFlume p.op p.o p.pat && !p.ended && p.fault.isNone && !p.iss.poisoned)
  streams.any (fun p => p.iss.seq == r.iss.seq) && streams.all (fun p => decide (r.order ≤ p.order)) &&
    (r.op != 7 || s.nvmeDone k r.iss.seq)

/-- Whether the next block of a stream waits for a walk or for a vertical interface that pauses: its header, or its body (R323, R335). -/
def flumeHeld (s : State) (k : Nat) (r : CpRun) : Bool :=
  let at_ := fun (pos : Nat) => (pw r.pat 0 + pos) % 2 ^ 64
  r.op != 7 && (s.engHeld r .load (at_ r.pos) 32 ||
    (match (streamRead s k r r.pos 32).2 with
     | .ok hb => (flumeHead (effFl r.op r.o r.pat) hb.1).any (fun h => s.engHeld r .load (at_ (r.pos + 32)) h.csize)
     | .error _ => false))

/-- FLUME_BLOCK: the next block of instruction `n` of core `k`; nothing when the Flume does not work on it. -/
def flumeStep (s : State) (k n : Nat) : State :=
  match (s.eng k).cpq.find? (fun r => r.iss.seq == n) with
  | none => s
  | some r => if flumeTurn s k r && !flumeHeld s k r then (nextBlock s k r).draw else s

/-! ## Load-blocks (R203, R230) -/

/-- Chooses ways for `n` lines of core `k`, locking each; none when too few lines are unlocked. -/
def chooseLines (s : State) (k : Nat) : Nat → List Nat → Option (List Nat)
  | 0, l => some l
  | n + 1, l =>
    let room := (List.range 16).filter (fun w => s.way k w == .cache && decide (lockedIn s k w + l.count w < 8192))
    if room = [] then none else chooseLines s k n ((room[s.free (7000 + n) % room.length]?.getD 0) :: l)

/-- What stands against a load-block of `n` lines at `a`: the fault of a page, or a page that is not of class 00. -/
def lblkBad (s : State) (r : CpRun) (a n : Nat) : List (Nat × Nat) :=
  (pieces a (128 * n)).filterMap (fun q =>
    match s.engHit r q.1 .load with
    | .fault c d => some (c, d)
    | .lost _ => some (0x5A, 0)
    | .ok t => if t.leaf.any (fun f => pteClass f.pte == 0) then none else some (0x5A, 0))

/-- `lblk`: the block is locked, or refused with cause 0x5A. -/
def runLblk (s : State) (r : CpRun) : Prog :=
  let k := coreOf r.iss.ctx
  let a := pw r.pat 0
  let n := (patLevel r.pat 0).n
  match lblkBad s r a n, if (s.core k).blocks.length < 64 then chooseLines s k n [] else none with
  | f :: _, _ => ⟨s, r, some f⟩
  | [], none => ⟨s, r, some (0x5A, 0)⟩
  | [], some ways =>
    let q := engRead s r a (128 * n)
    match q.2 with
    | .error f => ⟨q.1, r, some f⟩
    | .ok _ => ⟨q.1.modCore k (fun c => { c with blocks := ⟨a, n, s.asidOf r.iss.job, ways⟩ :: c.blocks }), r, none⟩

/-- The lines of a load-block of job `j` on core `k` are written back (R203). -/
def cleanBlock (s : State) (k j i : Nat) (b : LoadBlock) : State := cleanLines s k ⟨j, i, false, b.va, 128 * b.lines⟩

/-- `eblk`: the block that starts at the address is written back, and goes. -/
def runEblk (s : State) (r : CpRun) : Prog :=
  let k := coreOf r.iss.ctx
  let mine := fun (b : LoadBlock) => b.va == pw r.pat 0 && b.asid == s.asidOf r.iss.job
  let s1 := ((s.core k).blocks.filter mine).foldl (fun t b => cleanBlock t k r.iss.job r.iss.place b) s
  ⟨s1.modCore k (fun c => { c with blocks := c.blocks.filter (fun b => !mine b) }), r, none⟩

/-! ## A copy runs (R219, R224) -/

/-- Whether the bytes that storage has staged are as many as the destination takes (R232). -/
def CpRun.rawFits (s : State) (k : Nat) (r : CpRun) : Bool :=
  effFl r.op r.o r.pat != 0 || (s.staged k r.iss.seq).length == patEs r.pat * (patElems r.pat).length

/-- The stream of a copy as far as it has come. -/
def CpRun.stream (s : State) (k : Nat) (r : CpRun) : List Nat :=
  if r.op = 7 ∧ effFl r.op r.o r.pat = 0 then s.staged k r.iss.seq else r.data

/-- Whether a copy of core `k` may read and write: it runs, and what storage brings is there. -/
def CpRun.flows (s : State) (k : Nat) (r : CpRun) : Bool :=
  r.iss.stage == .running && !r.iss.poisoned && r.isCopy &&
    (r.op != 7 || (s.nvmeDone k r.iss.seq && (r.fault.isNone || r.ended) && r.rawFits s k))

/-- The states that one read or write more of a copy of core `k` leads to. -/
def State.copyNext (s : State) (k : Nat) (r : CpRun) : List State :=
  if r.flows s k then (copyMoves s r (r.stream s k)).map (fun g => modCp g.s k r.iss.seq (fun _ => g.r)) else []

/-! ## Completion (R220, R222, R225, R237, R238) -/

/-- The effects of a copy up to its counter. -/
def runCopy (s : State) (k : Nat) (r : CpRun) : Prog :=
  match r.op with
  | 4 => runLblk s r
  | 5 => runEblk s r
  | _ =>
    if r.isCopy then
      if r.op = 7 ∧ r.fault.isSome ∧ !r.ended then ⟨s, r, r.fault⟩
      else if r.op = 7 ∧ !r.rawFits s k then ⟨s, r, some (0x58, 0xFFFF)⟩
      else (let g := Prog.finish (r.stream s k) r.groups ⟨s, r, none⟩; { g with fault := g.fault.or r.fault })
    else ⟨s, r, r.fault⟩

/-- R225: the counter add, or the fault of its address. -/
def addCounter (s : State) (r : CpRun) : State × Option (Nat × Nat) :=
  if r.counter = 0 then (s, none)
  else
    match s.engHit r r.counter .atomic with
    | .fault c d => (s, some (c, d))
    | .lost _ => (s, none)
    | .ok t =>
      if s.badIn t.space t.addr 8 ≠ [] then (s.meetBad t.space t.addr 8, some (0x5C, 0))
      else
        let s1 := s.engUse (coreOf r.iss.ctx) r.iss.job r.counter t true 8
        (s1.engineUpdate r.iss r.o.tout t.space t.addr 8 (fun v => (v + patInc r.pat) % 2 ^ 64), none)

/-- Whether a copy clips at least one element (R220). -/
def CpRun.clips (r : CpRun) : Bool := isNest r.op && (patElems r.pat).any (·.clip)

/-- The own ways that an instruction has lost: those whose owner tag is another now, and those where an access has found so (R238). -/
def CpRun.lostSet (s : State) (r : CpRun) : List Nat := (List.range 16).filter (fun w => (s.lostWays r.iss).contains w || bitAt r.gone w)

/-- The record of a fault (Table 10.5). -/
def cpFault (s : State) (r : CpRun) (pre : Option (List Nat)) (f : Nat × Nat) : State :=
  let it := fun n => (pre.getD []).getD n 0
  let s1 := engineFault s r.iss f.1 (recWord0 f.1 2 r.op r.o.tout (if pre.isSome then 1 else 0) r.iss.pc) r.wrote
    (it 0 + 2 ^ 16 * it 1 + 2 ^ 32 * it 2 + 2 ^ 48 * it 3) (it 4 + 2 ^ 16 * it 5 + 2 ^ 32 * (f.2 % 65536))
  if f.1 = 0x59 then s1.linkEvent (srcLeat f.2) (some f.2) else s1

/-- The end of an instruction whose effects have come to `g`, `pre` being its completed prefix: counter, flags, clips, record, token; it
leaves the queue. -/
def endCp (k : Nat) (g : Prog) (pre : Option (List Nat)) (flags : Nat) : State :=
  let r := g.r
  let lost := r.lostSet g.s
  let c := if g.fault.isNone ∧ lost = [] then addCounter g.s r else (g.s, none)
  let fault : Option (Nat × Nat) :=
    match lost with
    | w :: _ => some (0x53, w)
    | [] => g.fault.or c.2
  let s1 := c.1.modOwner r.iss (fun x =>
    let y := x.orFlags flags
    if r.clips then { y with win := { y.win with efrec3 := (y.win.efrec3 + 2 ^ 48) % 2 ^ 64 } } else y)
  let s2 := match fault with | none => s1 | some f => cpFault s1 r pre f
  let s3 := s2.noteFresh r
  let s4 := s3.modEng k (fun e => { e with cpq := e.cpq.filter (fun p => p.iss.seq != r.iss.seq) })
  let s5 := s4.modLinks (fun l => { l with nvme := l.nvme.filter (fun c => !(c.core == k && c.seq == r.iss.seq && (c.done || c.sent.isNone))) })
  setToken s5 r.iss r.o.tout fault.isSome

/-- The end of an instruction with a token-in in error: no effect, cause 0x57, efrec as it was (R223). -/
def poisonCp (s : State) (k : Nat) (r : CpRun) : State :=
  setToken (s.modEng k (fun e => { e with cpq := e.cpq.filter (fun p => p.iss.seq != r.iss.seq) })) r.iss r.o.tout true

/-- Whether an access that is left to a copy waits for a walk, or for a vertical interface that pauses (R323, R335). -/
def CpRun.held (s : State) (r : CpRun) : Bool :=
  r.todo.any (fun i => match r.reads[i]? with | some q => s.engHeld r .load q.addr q.len | none => false) ||
    r.left.any (fun i => match r.writes[i]? with | some q => s.engHeld r .store q.addr q.len | none => false) ||
    (r.counter != 0 && s.engHeld r .atomic r.counter 8) || (r.op == 4 && s.engHeld r .load (pw r.pat 0) (128 * (patLevel r.pat 0).n))

/-- The walks that the accesses which are left to a copy need (R323). -/
def CpRun.walks (s : State) (r : CpRun) : List Fetch :=
  (r.todo.flatMap (fun i => match r.reads[i]? with | some q => s.engWalks r q.addr q.len | none => []) ++
    r.left.flatMap (fun i => match r.writes[i]? with | some q => s.engWalks r q.addr q.len | none => []) ++
    (if r.counter = 0 then [] else s.engWalks r r.counter 8) ++
    (if r.op = 4 then s.engWalks r (pw r.pat 0) (128 * (patLevel r.pat 0).n) else [])).eraseDups

/-- Whether a copy that runs has nothing more to wait for. -/
def cpDone (s : State) (k : Nat) (r : CpRun) : Bool :=
  r.iss.poisoned || r.fault.isSome ||
    (!r.held s && (!usesFlume r.op r.o r.pat || r.ended) && (!(r.op == 7 || r.op == 8) || s.nvmeDone k r.iss.seq))

/-- FLUME_BLOCK: one block of a stream is checked and expanded. -/
def execFlumeBlock (core n : Nat) (s : State) : Host.Outcome State Fault Refusal := .next (flumeStep s core n)

/-! ## The rows -/

/-- CPY: Copies a nest from source to destination. -/
def execCpy (o : CpOps) (s : State) : Host.Outcome State Fault Refusal :=
  issueOne 2 (cpySem o) s
/-- CPYF: Expands a Flume stream into a destination nest. -/
def execCpyf (o : CpOps) (s : State) : Host.Outcome State Fault Refusal :=
  issueOne 2 (cpyfSem o) s
/-- CPYT: Copies a nest converting each element. -/
def execCpyt (o : CpOps) (s : State) : Host.Outcome State Fault Refusal :=
  issueOne 2 (cpytSem o) s
/-- LBLK: Allocates and locks a load-block. -/
def execLblk (o : CpOps) (s : State) : Host.Outcome State Fault Refusal :=
  issueOne 2 (lblkSem o) s
/-- EBLK: Evicts a load-block. -/
def execEblk (o : CpOps) (s : State) : Host.Outcome State Fault Refusal :=
  issueOne 2 (eblkSem o) s
/-- PUT: Copies to a remote destination whose agent adds the counter. -/
def execPut (o : CpOps) (s : State) : Host.Outcome State Fault Refusal :=
  issueOne 2 (putSem o) s
/-- SREAD: Reads logical blocks from storage into a nest. -/
def execSread (o : CpOps) (s : State) : Host.Outcome State Fault Refusal :=
  issueOne 2 (sreadSem o) s
/-- SWRITE: Writes a nest to storage logical blocks. -/
def execSwrite (o : CpOps) (s : State) : Host.Outcome State Fault Refusal :=
  issueOne 2 (swriteSem o) s
/-- CFILL: Fills every destination element. -/
def execCfill (o : CpOps) (s : State) : Host.Outcome State Fault Refusal :=
  issueOne 2 (cfillSem o) s
/-- XCPY: Copies over the vertical path between divisible arrays. -/
def execXcpy (o : CpOps) (s : State) : Host.Outcome State Fault Refusal :=
  issueOne 2 (xcpySem o) s

end Sys2Proof.Machine
end

