-- ==== Sys2Proof/Machine/Named.lean ====
section
/-! DEFINITION. Content-named memory (R239 to R258): names, the name table of a region, the named-line instructions and the
reclaimer. -/

namespace Sys2Proof.Machine

/-! ## Names (R242 to R244) -/

/-- The parts of a name. -/
def nameHash (v : Nat) : Nat := fld v 8 120
def nameNode (v : Nat) : Bool := bitAt v 7
def nameOrd (v : Nat) : Nat := v % 128
/-- A name from its parts. -/
def mkName (hash : Nat) (node : Bool) (ord : Nat) : Nat := hash * 256 + node.toNat * 128 + ord

/-- The hash of a line under a salt, of width `w`, in bits [119:0] of the field (R242). -/
def lineHash (salt w : Nat) (node : Bool) (line : Nat) : Nat :=
  beNat (sha512 (leBytes 16 salt ++ [node.toNat] ++ leBytes 128 line)) / 2 ^ (512 - w) * 2 ^ (120 - w)

/-- The eight children of a node line. -/
def children (line : Nat) : List Nat := (List.range 8).map (fun c => fld line (128 * c) 128)

/-! ## The name table (R246 to R249) -/

/-- Whether a line is the one a name names. -/
def Line.named (l : Line) (v : Nat) : Bool := l.hash == nameHash v && l.node == nameNode v && l.ord == nameOrd v

/-- The present line of a name. -/
def Region.find (g : Region) (v : Nat) : Option Line := g.lines.find? (fun l => l.named v)

/-- Whether a non-zero name is known (R243). -/
def Region.known (g : Region) (v : Nat) : Bool := (g.find v).isSome

/-- The ordinals of a bucket that an allocation may not use: present, or freed and not yet released (R249). -/
def Region.used (g : Region) (hash : Nat) (node : Bool) : List Nat :=
  (g.lines.filter (fun l => l.hash == hash && l.node == node)).map (·.ord) ++
    (g.freeing.filter (fun f => f.1 == hash && f.2.1 == node)).map (·.2.2)

/-- Adds to statistics word `i` (0 live, 1 coll, 2 satur, 3 exhaust, 4 nfull, 5 recl, 6 pend). -/
def Region.bump (g : Region) (i : Nat) (d : Int) : Region :=
  { g with stats := g.stats.set i (wrapInt 64 ((g.stats.getD i 0 : Int) + d)) }

/-- R248: an increment of a known name. -/
def Region.inc (g : Region) (v : Nat) : Region :=
  match g.find v with
  | none => g
  | some l =>
    if l.count = 0xFFFFFF then g
    else
      let g1 := { g with lines := g.lines.map (fun x => if x.named v then { x with count := x.count + 1 } else x) }
      if l.count + 1 = 0xFFFFFF then g1.bump 2 1 else g1

/-- R248, R249: a decrement of a known name; at zero the line is freed, and a node's children are left to the reclaimer. -/
def Region.dec (g : Region) (v : Nat) : Region :=
  match g.find v with
  | none => g
  | some l =>
    if l.count = 0xFFFFFF then g
    else if 1 < l.count then { g with lines := g.lines.map (fun x => if x.named v then { x with count := x.count - 1 } else x) }
    else
      let kids := if l.node then (children l.data).filter (fun c => c != 0) else []
      let g1 : Region := { g with lines := g.lines.filter (fun x => !x.named v)
                                  freeing := g.freeing ++ [(l.hash, l.node, l.ord)]
                                  pend := g.pend ++ kids }
      ((g1.bump 0 (-1)).bump 5 1).bump 6 kids.length

/-- What a lookup-or-allocate gives; `bad` is an uncorrectable error in a line that it compares (R258). -/
inductive Named where
  | name (v : Nat) (alloc : Bool)
  | collex
  | nfull
  | bad
  deriving DecidableEq, Repr

/-- The ordinals of a bucket that no allocation takes: those in use, and in the bucket of the all-zero name that name's (R243). -/
def Region.closed (g : Region) (hash : Nat) (node : Bool) : List Nat :=
  if hash = 0 ∧ !node then 0 :: g.used hash node else g.used hash node

/-- R247: one lookup-or-allocate of a non-zero line. -/
def Region.lookup (g : Region) (node : Bool) (line : Nat) : Region × Named :=
  let h := lineHash g.salt g.hwidth node line
  if g.lines.any (fun l => l.hash == h && l.node == node && l.bad) then (g, .bad)
  else
    match g.lines.find? (fun l => l.hash == h && l.node == node && l.data == line) with
    | some l => (g.inc (mkName h node l.ord), .name (mkName h node l.ord) false)
    | none =>
      match (List.range 128).find? (fun o => !(g.closed h node).contains o) with
      | none => (g.bump 3 1, .collex)
      | some o =>
        let held := g.lines.length + g.freeing.length
        if g.tentries ≤ held ∨ g.hsize / 128 ≤ held then (g.bump 4 1, .nfull)
        else
          let g1 := ({ g with lines := g.lines ++ [⟨h, node, o, line, 1, false⟩] } : Region).bump 0 1
          let g2 := if g.used h node = [] then g1 else g1.bump 1 1
          ((if node then ((children line).filter (fun c => c != 0)).foldl Region.inc g2 else g2), .name (mkName h node o) true)

/-- R249: the `n`-th pending decrement performs. -/
def Region.reclaim (g : Region) (n : Nat) : Region :=
  match g.pend[n]? with
  | none => g
  | some v => (({ g with pend := g.pend.eraseIdx n } : Region).bump 6 (-1)).dec v

/-- The result of `nstat` for a name (Table 11.5). -/
def Region.stat (g : Region) (v : Nat) : Nat :=
  if v = 0 then 2 ^ 27
  else
    let used := g.used (nameHash v) (nameNode v)
    let body :=
      match g.find v with
      | some l => l.count + (if l.count = 0xFFFFFF then 2 ^ 24 else 0) + 2 ^ 25
      | none => 0
    body + (nameNode v).toNat * 2 ^ 26 + 2 ^ 32 * (used.length + (if used.any (fun o => o != nameOrd v) then 256 else 0))

/-- Replaces a region, writing the statistics words that changed into its descriptor (R239). -/
def State.putRegion (s : State) (r : Nat) (g : Region) : State :=
  let old := (s.region r).stats
  let s1 := { s with miller := { s.miller with regions := put s.miller.regions r g } }
  (List.range 7).foldl (fun t i =>
    if old.getD i 0 = g.stats.getD i 0 then t else t.writeN .dram (g.desc + 0x30 + 8 * i) 8 (g.stats.getD i 0)) s1

/-! ## Issue (R250) -/

/-- Lines, names or leaves of a named-line instruction. -/
def namedN (p : List Nat) : Nat := pw p 4 % 65536 + 1

/-- Own-scratchpad ranges of an instruction: address, alignment, bytes; and the unit of a range that may lie elsewhere. -/
def namedOwn (op : Nat) (p : List Nat) : List (Nat × Nat × Nat) :=
  let n := namedN p
  match op with
  | 0x10 => [(pw p 0, 128, 128 * n), (pw p 1, 16, 16 * n), (patRecs p, 64, 64)]
  | 0x11 => [(pw p 0, 16, 16 * n), (pw p 1, 128, 128 * n)]
  | 0x14 => [(pw p 1, 64, 64), (patRecs p, 64, 64)]
  | 0x15 => [(pw p 0, 16, 16)]
  | 0x16 => [(pw p 0, 16, 16 * n), (pw p 1, 16, 16 * n)]
  | _ => [(pw p 0, 16, 16 * n)]

/-- Ranges that may lie outside own scratchpad: alignment, and pieces. -/
def namedOther (op : Nat) (p : List Nat) : Nat × List (Nat × Nat) :=
  match op with
  | 0x14 => (32, [(pw p 0, 32)])
  | 0x15 => (128, (List.range (namedN p)).map (fun x => ((pw p 1 + 128 * x) % 2 ^ 64, 128)))
  | _ => (1, [])

/-- R250, R256: reserved fields, and the leaf count of `nout`. -/
def namedIllegal (op : Nat) (p : List Nat) : Bool :=
  let n := namedN p
  match op with
  | 0x10 => decide (1 < pw p 3) || decide (64 < n)
  | 0x14 => false
  | 0x15 => pw p 3 % 16 != 0 || decide (0x100 ≤ pw p 3) || decide (8 < fld (pw p 3) 4 4) || decide (8 ^ fld (pw p 3) 4 4 < n)
  | _ => decide (64 < n)

/-- Every trap condition of a named-line instruction. -/
def namedCands (s : State) (op : Nat) (o : CpOps) : List Cand :=
  let x := s.me
  let p := x.pattern o.cp
  let k := coreOf s.cur
  let ways := x.win.ways
  let other := namedOther op p
  let ctr := x.a o.a
  candIf (namedIllegal op p || !(s.region x.win.nreg).inst) illegalCombination ++
    (if ctr = 0 then [] else alignCand ctr 8 ++ whereCands k ways ctr 8) ++
    (namedOwn op p).flatMap (fun g =>
      alignCand g.1 g.2.1 ++ (if 0x1000000 ≤ g.1 then [wayTrap g.1] else whereCands k ways g.1 g.2.2)) ++
    other.2.flatMap (fun g => alignCand g.1 other.1 ++ whereCands k ways g.1 g.2)

/-- The own ways it may touch. -/
def namedWays (s : State) (op : Nat) (o : CpOps) : Nat :=
  let x := s.me
  let p := x.pattern o.cp
  let k := coreOf s.cur
  let m0 := (namedOwn op p).foldl (fun m g => m ||| ownMask k g.1 g.2.2) 0
  let m1 := (namedOther op p).2.foldl (fun m g => m ||| ownMask k g.1 g.2) m0
  if x.a o.a = 0 then m1 else m1 ||| ownMask k (x.a o.a) 8

/-- A named-line slot. -/
def namedSem (op : Nat) (o : CpOps) (s : State) : Sem := cpSem op o (namedCands s op o) (namedWays s op o) s

def nputSem (o : CpOps) (s _l : State) : Sem := namedSem 0x10 o s
def ngetSem (o : CpOps) (s _l : State) : Sem := namedSem 0x11 o s
def nrefSem (o : CpOps) (s _l : State) : Sem := namedSem 0x12 o s
def nrelSem (o : CpOps) (s _l : State) : Sem := namedSem 0x13 o s
def nswapSem (o : CpOps) (s _l : State) : Sem := namedSem 0x14 o s
def noutSem (o : CpOps) (s _l : State) : Sem := namedSem 0x15 o s
def nstatSem (o : CpOps) (s _l : State) : Sem := namedSem 0x16 o s

/-! ## Single actions (R250, R258, R260) -/

/-- Whether an opcode is a named-line instruction. -/
def isNamed (op : Nat) : Bool := decide (0x10 ≤ op ∧ op ≤ 0x16)

/-- Whether the region of an instruction has been removed since its issue (Table 11.6). -/
def CpRun.removed (s : State) (r : CpRun) : Bool := !(s.region r.region).inst || (s.region r.region).install != r.install

/-- Value `i` of what a named-line instruction has come to, and its change. -/
def CpRun.at (r : CpRun) (i : Nat) : Nat := r.acc.getD i 0
def CpRun.put (r : CpRun) (i v : Nat) : CpRun := { r with acc := (List.range (max r.acc.length (i + 1))).map (fun j => if j = i then v else r.at j) }
/-- The next action is number `n`. -/
def CpRun.goto (r : CpRun) (n : Nat) : CpRun := { r with acts := n }

/-- A fault. -/
def Prog.stop (g : Prog) (cause detail : Nat) : Prog := { g with fault := some (cause, detail) }

/-- Reads bytes that an action uses: an own way under another owner tag stops the instruction (R250). -/
def Prog.fetch (g : Prog) (a n : Nat) : Prog × Nat :=
  let q := engRead g.s g.r a n
  match q.2 with
  | .error f => (⟨q.1, g.r, some f⟩, 0)
  | .ok v => if v.2 = 0 then (⟨q.1, g.r, none⟩, v.1) else (⟨q.1, { g.r with gone := g.r.gone ||| v.2 }, some (0x53, trailZeros 16 v.2)⟩, 0)

/-- Writes the result of index `k`; the completed prefix, value 5, grows while every write has performed. -/
def Prog.result (g : Prog) (k a n v : Nat) : Prog :=
  let w := engWrites g.r false (pieces a n) v (Wrote.start g.s)
  let r := g.r.after w true
  ⟨w.s, if w.gone = 0 ∧ w.fault.isNone ∧ r.at 5 = k then r.put 5 (k + 1) else r, w.fault⟩

/-! ## `nput`, `nref`, `nrel`, `nswap`: actions in index order (R252, R254, R255) -/

/-- `nput`, the action on a line: value 0 is the line and then its name, 1 the status code, 2 the stop index, 3 names given, 4 lines
allocated. -/
def nputAct (g : Prog) (k : Nat) : Prog :=
  let node := pw g.r.pat 3 % 2 == 1
  let line := g.r.at 0
  let reg := g.s.region g.r.region
  let next := g.r.goto (g.r.acts + 1)
  if line = 0 then { g with r := next.put 3 (g.r.at 3 + 1) }
  else if node ∧ (children line).any (fun c => c != 0 && !reg.known c) then g.stop 0x60 k
  else
    let a := reg.lookup node line
    let s1 := g.s.putRegion g.r.region a.1
    match a.2 with
    | .bad => g.stop 0x5C 0
    | .collex => { g with s := s1, r := ((g.r.goto 1000).put 1 2).put 2 k }
    | .nfull => { g with s := s1, r := ((g.r.goto 1000).put 1 3).put 2 k }
    | .name v new => { g with s := s1, r := ((next.put 0 v).put 3 (g.r.at 3 + 1)).put 4 (g.r.at 4 + new.toNat) }

/-- `nput`, one action: the eight pieces of a line are read, the line is acted on, its name is written. -/
def nputStep (g : Prog) : Prog :=
  let k := g.r.acts / 10
  let j := g.r.acts % 10
  if j < 8 then
    let q := g.fetch (pw g.r.pat 0 + 128 * k + 16 * j) 16
    if q.1.fault.isSome then q.1
    else { q.1 with r := (q.1.r.put 0 ((if j = 0 then 0 else q.1.r.at 0) + 2 ^ (128 * j) * q.2)).goto (g.r.acts + 1) }
  else if j = 8 then nputAct g k
  else
    let h := g.result k (pw g.r.pat 1 + 16 * k) 16 (g.r.at 0)
    if h.fault.isSome then h else { h with r := h.r.goto (g.r.acts + 1) }

/-- `nref` and `nrel`, one action: a name is read, and acted on. A node that `nrel` frees is read for its children. -/
def ncountStep (inc : Bool) (g : Prog) : Prog :=
  let k := g.r.acts / 2
  if g.r.acts % 2 = 0 then
    let q := g.fetch (pw g.r.pat 0 + 16 * k) 16
    if q.1.fault.isSome then q.1 else { q.1 with r := (q.1.r.put 0 q.2).goto (g.r.acts + 1) }
  else
    let v := g.r.at 0
    let reg := g.s.region g.r.region
    let next := (g.r.put 5 (k + 1)).goto (g.r.acts + 1)
    if v = 0 then { g with r := next }
    else
      match reg.find v with
      | none => g.stop 0x60 k
      | some l =>
        if inc then { g with s := g.s.putRegion g.r.region (reg.inc v), r := next }
        else if l.bad ∧ l.node ∧ l.count = 1 then g.stop 0x5C 0
        else { g with s := g.s.putRegion g.r.region (reg.dec v), r := next }

/-- The place of a root slot, or its fault (R255). -/
def slotHit (s : State) (r : CpRun) : Hit :=
  let a := pw r.pat 0
  if addrRow a = 3 ∧ (s.coreLeaf (coreOf r.iss.ctx) r.iss.job a).any (fun f => decide (2 ≤ pteClass f.pte)) then .fault 0x63 0
  else
    match s.engHit r a .atomic with
    | .ok t => if s.badIn t.space t.addr 32 = [] then .ok t else .fault 0x5C 0
    | h => h

/-- The uncorrectable errors of a slot are counted when it is met. -/
def slotMet (s : State) (r : CpRun) : State :=
  match s.engHit r (pw r.pat 0) .atomic with
  | .ok t => s.meetBad t.space t.addr 32
  | _ => s

/-- `nswap`, one action: the four pieces of the operand block are read (value 0), the new name is counted, the slot is compared and written
(value 1 what it held, value 2 whether it matched), a name is uncounted. The slot action is an acquire, observed through the token, and,
where it writes, a release; nothing comes between its read and its write (R255, R272). -/
def nswapStep (g : Prog) : Prog :=
  let j := g.r.acts
  let next := g.r.goto (j + 1)
  let expected := g.r.at 0 % 2 ^ 256
  let new := g.r.at 0 / 2 ^ 256
  let newName := new % 2 ^ 128
  let reg := g.s.region g.r.region
  if j < 4 then
    let q := g.fetch (pw g.r.pat 1 + 16 * j) 16
    if q.1.fault.isSome then q.1 else { q.1 with r := (q.1.r.put 0 (q.1.r.at 0 + 2 ^ (128 * j) * q.2)).goto (j + 1) }
  else if j = 4 then
    match slotHit g.s g.r with
    | .fault c d => { g.stop c d with s := slotMet g.s g.r }
    | .lost w => { g.stop 0x53 w with r := { g.r with gone := g.r.gone ||| 2 ^ w } }
    | .ok _ =>
      if newName = 0 then { g with r := next }
      else if !reg.known newName then g.stop 0x60 0
      else { g with s := g.s.putRegion g.r.region (reg.inc newName), r := next }
  else if j = 5 then
    match slotHit g.s g.r with
    | .fault c d => { g.stop c d with s := (slotMet g.s g.r).putRegion g.r.region (reg.dec newName) }
    | .lost w => { g.stop 0x53 w with s := g.s.putRegion g.r.region (reg.dec newName), r := { g.r with gone := g.r.gone ||| 2 ^ w } }
    | .ok t =>
      let i := g.r.iss
      let s1 := (g.s.engUse (coreOf i.ctx) i.job (pw g.r.pat 0) t true 32).passLoose t.space t.addr 32
      let seen := s1.readN t.space t.addr 32
      let r1 := (next.put 1 seen).put 2 (if seen = expected then 1 else 0)
      if seen = expected then
        let s2 := (s1.releaseOf i.job i.place).storeBy (s1.unordered i g.r.o.tout) t.space t.addr 32 new
        { g with s := s2.tokenAcquire i g.r.o.tout, r := { r1 with wet := r1.wet ++ (if t.space = .sp then [(t.addr, 32)] else []) } }
      else { g with s := s1.tokenAcquire i g.r.o.tout, r := r1 }
  else
    let v := if g.r.at 2 = 1 then expected % 2 ^ 128 else newName
    { g with s := if v = 0 then g.s else g.s.putRegion g.r.region (reg.dec v), r := next }

/-- Whether an opcode acts in index order, and the actions it takes at most. -/
def inOrder (op : Nat) : Bool := op == 0x10 || op == 0x12 || op == 0x13 || op == 0x14
def CpRun.actions (r : CpRun) : Nat :=
  match r.op with
  | 0x10 => 10 * namedN r.pat
  | 0x14 => 7
  | _ => 2 * namedN r.pat

/-- The next action; none when the last has performed. -/
def Prog.act (g : Prog) : Option Prog :=
  if g.r.actions ≤ g.r.acts then none
  else if g.r.removed g.s then some (g.stop 0x62 0)
  else
    match g.r.op with
    | 0x10 => some (nputStep g)
    | 0x12 => some (ncountStep true g)
    | 0x13 => some (ncountStep false g)
    | _ => some (nswapStep g)

/-- The actions that are left, up to a fault. -/
def Prog.actAll (g : Prog) : Nat → Prog
  | 0 => g
  | n + 1 =>
    match g.act with
    | none => g
    | some h => if h.fault.isSome then h else h.actAll n

/-! ## `nget`, `nout`, `nstat`: units in no fixed order (R253, R256, R257) -/

/-- The depth of the tree that `nout` goes down; the other two look a name up once. -/
def CpRun.depth (r : CpRun) : Nat := if r.op = 0x15 then fld (pw r.pat 3) 4 4 else 0
/-- Pieces of 16 bytes that a unit writes: of a line, or of a result. -/
def CpRun.lines (r : CpRun) : Nat := if r.op = 0x16 then 1 else 8

/-- The name that unit `x` has at level `l`: the root, read at the start, is that of level 0 for `nout`. -/
def CpRun.nameAt (r : CpRun) (x l : Nat) : Option Nat := if r.op = 0x15 ∧ l = 0 then r.acc.head? else r.gotAt (16 * x + l)
/-- The line or result that unit `x` has found. -/
def CpRun.lineOf (r : CpRun) (x : Nat) : Option Nat := r.gotAt (16 * x + 15)
/-- The level that unit `x` has come to, with its name; none before its name is read, and once its line is found. -/
def CpRun.come (r : CpRun) (x : Nat) : Option (Nat × Nat) :=
  if (r.lineOf x).isSome then none else (List.range 9).reverse.findSome? (fun l => (r.nameAt x l).map (fun v => (l, v)))

/-- The contents of the line of a name; a zero name has 128 zero bytes (R253, R258). -/
def Region.read (g : Region) (v x : Nat) : Except (Nat × Nat) Nat :=
  if v = 0 then .ok 0
  else
    match g.find v with
    | none => .error (0x60, x)
    | some l => if l.bad then .error (0x5C, 0) else .ok l.data

/-- The lookup of name `v` of unit `x` at level `l`: a child's name, or the line. -/
def Region.lookAt (g : Region) (r : CpRun) (x l v : Nat) : Except (Nat × Nat) Nat :=
  let d := r.depth
  if r.op = 0x16 then .ok (g.stat v)
  else if r.op = 0x15 ∧ v ≠ 0 ∧ nameNode v = (l == d) then .error (0x61, x)
  else (g.read v x).map (fun line => if l = d then line else fld line (128 * (x / 8 ^ (d - 1 - l) % 8)) 128)

/-- Unit `x` looks its name up. -/
def Prog.look (g : Prog) (x l v : Nat) : Prog :=
  if g.r.removed g.s then g.stop 0x62 0
  else
    match (g.s.region g.r.region).lookAt g.r x l v with
    | .error f => { g with fault := some f }
    | .ok w => { g with r := { g.r with got := g.r.got ++ [(16 * x + (if l = g.r.depth then 15 else l + 1), w)] } }

/-- Unit `x` reads its name. -/
def Prog.readName (g : Prog) (x : Nat) : Prog :=
  let q := g.fetch (pw g.r.pat 0 + 16 * x) 16
  if q.1.fault.isSome then q.1
  else { q.1 with r := { q.1.r with todo := q.1.r.todo.filter (fun y => y != x), got := q.1.r.got ++ [(16 * x, q.2)] } }

/-- The reads of names, and the writes: piece `i` of unit `x` is number `lines · x + i`. -/
def CpRun.nameReads (r : CpRun) : List Rd :=
  if r.op = 0x15 then [] else (List.range (namedN r.pat)).map (fun x => ⟨x, pw r.pat 0 + 16 * x, 16, false⟩)
def CpRun.lineWrites (r : CpRun) : List Wr :=
  (List.range (namedN r.pat)).flatMap (fun x => (List.range r.lines).map (fun i =>
    ⟨x, (pw r.pat 1 + 16 * r.lines * x + 16 * i) % 2 ^ 64, 16, false, .read x⟩))

/-- Whether `nout` may write an address: not a class-10 page, nor a class-11 page with home 01 (R256). -/
def noutBad (s : State) (r : CpRun) (a : Nat) : Bool :=
  r.op == 0x15 && addrRow a == 3 &&
    (s.coreLeaf (coreOf r.iss.ctx) r.iss.job a).any (fun f => pteClass f.pte == 2 || (pteClass f.pte == 3 && pteHome f.pte != 0))

/-- Piece `i` of unit `x` is written. -/
def Prog.writeLine (g : Prog) (x i a line : Nat) : Prog :=
  if noutBad g.s g.r a then g.stop 0x51 0 else g.write (g.r.lines * x + i) a 16 (fld line (128 * i) 128) true false

/-- Unit `x` goes as far as it can, up to a fault: its lookups, at most `n`, and its writes. -/
def Prog.lookAll (g : Prog) (x : Nat) : Nat → Prog
  | 0 => g
  | n + 1 =>
    match g.r.come x with
    | none => g
    | some (l, v) => (let h := g.look x l v; if h.fault.isSome then h else h.lookAll x n)

/-- The pieces of unit `x` that are still to be written. -/
def Prog.lineAll (x line : Nat) : List Nat → Prog → Prog
  | [], g => g
  | i :: rest, g =>
    if g.r.left.contains (g.r.lines * x + i) then
      (let h := g.writeLine x i ((pw g.r.pat 1 + 16 * g.r.lines * x + 16 * i) % 2 ^ 64) line; if h.fault.isSome then h else h.lineAll x line rest)
    else g.lineAll x line rest
termination_by structural l => l

/-- Unit `x` completes. -/
def Prog.unit (g : Prog) (x : Nat) : Prog :=
  let h := if g.r.todo.contains x then g.readName x else g
  if h.fault.isSome then h
  else
    let k := h.lookAll x 10
    if k.fault.isSome then k else k.lineAll x ((k.r.lineOf x).getD 0) (List.range k.r.lines)

/-- The units complete in order, up to a fault. -/
def Prog.units : List Nat → Prog → Prog
  | [], g => g
  | x :: rest, g => (let h := g.unit x; if h.fault.isSome then h else h.units rest)
termination_by structural l => l

/-- The last unit of the completed prefix. -/
def CpRun.preUnit (r : CpRun) : Option (List Nat) :=
  (((List.range (namedN r.pat)).takeWhile (fun x => (List.range r.lines).all (fun i =>
    !r.left.contains (r.lines * x + i) && !r.lost.contains (r.lines * x + i)))).getLast?).map (fun x => [x])

/-- What one read, lookup or write more leads such an instruction to. -/
def fetchMoves (s : State) (r : CpRun) : List Prog :=
  let g : Prog := ⟨s, r, none⟩
  (r.todo.map g.readName ++
    ((List.range (namedN r.pat)).filterMap (fun x => (r.come x).map (fun p => g.look x p.1 p.2))) ++
    r.left.filterMap (fun j =>
      match r.lineWrites[j]?, r.lineOf (j / r.lines) with
      | some q, some line =>
        if s.mayWrite r q.it q.addr 16 r.nameReads r.lineWrites then some (g.writeLine q.it (j % r.lines) q.addr line) else none
      | _, _ => none)).filter (fun h => h.fault.isNone)

/-! ## A named-line instruction runs -/

/-- At its start: `nout` reads its root (R256). -/
def beginNamed (s : State) (r : CpRun) : State × CpRun :=
  match r.op with
  | 0x11 => (s, { r with todo := List.range (namedN r.pat), left := List.range (8 * namedN r.pat) })
  | 0x15 =>
    let q := (⟨s, r, none⟩ : Prog).fetch (pw r.pat 0) 16
    (q.1.s, { q.1.r with left := List.range (8 * namedN r.pat), acc := [q.2], fault := q.1.fault })
  | 0x16 => (s, { r with todo := List.range (namedN r.pat), left := List.range (namedN r.pat) })
  | _ => (s, r)

/-- The states that one action more of a running named-line instruction leads to; an action that faults waits for the completion. -/
def namedMoves (s : State) (r : CpRun) : List Prog :=
  if inOrder r.op then (((⟨s, r, none⟩ : Prog).act).toList).filter (fun h => h.fault.isNone) else fetchMoves s r

/-- The status record of `nput` and `nswap`, which is not counted (R251). -/
def writeStatus (g : Prog) : Prog :=
  if g.fault.isSome ∨ g.r.lostSet g.s ≠ [] then g
  else
    match g.r.op with
    | 0x10 => g.put (patRecs g.r.pat) 64 (g.r.at 1 + 2 ^ 8 * g.r.at 3 + 2 ^ 16 * g.r.at 2 + 2 ^ 24 * g.r.at 4) false false
    | 0x14 => g.put (patRecs g.r.pat) 64 ((if g.r.at 2 = 1 then 0 else 1) + 2 ^ 256 * g.r.at 1) false false
    | _ => g

/-- What is left of a named-line instruction performs, up to its counter (R250 to R258). -/
def runNamed (s : State) (r : CpRun) : Prog :=
  let g : Prog := ⟨s, r, none⟩
  if r.fault.isSome then { g with fault := r.fault }
  else if r.removed s then g.stop 0x62 0
  else if inOrder r.op then writeStatus (g.actAll r.actions)
  else g.units (List.range (namedN r.pat))

/-- Its completed prefix (R258). -/
def CpRun.preNamed (r : CpRun) : Option (List Nat) :=
  if r.op = 0x14 then none
  else if inOrder r.op then (if r.at 5 = 0 then none else some [r.at 5 - 1])
  else r.preUnit

/-! ## Start and completion of any copy-engine instruction -/

/-- The accesses of an instruction to its operands: of a named-line instruction, and of a `swrite` to its source. -/
def CpRun.spans (r : CpRun) : List (Perm × Nat × Nat) :=
  let n := namedN r.pat
  let at_ := fun (p : Perm) i len => (p, pw r.pat i, len)
  match r.op with
  | 0x08 => (patElems r.pat).filterMap (fun e => if e.clip then none else some (.load, e.from r.op, patEs r.pat))
  | 0x10 => [at_ .load 0 (128 * n), at_ .store 1 (16 * n)]
  | 0x11 => [at_ .load 0 (16 * n), at_ .store 1 (128 * n)]
  | 0x14 => [at_ .atomic 0 32, at_ .load 1 64]
  | 0x15 => [at_ .load 0 16, at_ .store 1 (128 * n)]
  | 0x16 => [at_ .load 0 (16 * n), at_ .store 1 (16 * n)]
  | _ => if isNamed r.op then [at_ .load 0 (16 * n)] else []

/-- Whether one of them, or the counter's, waits for a walk, or for a vertical interface that pauses (R323, R335). -/
def CpRun.spanHeld (s : State) (r : CpRun) : Bool :=
  r.spans.any (fun q => s.engHeld r q.1 q.2.1 q.2.2) || (r.counter != 0 && s.engHeld r .atomic r.counter 8)

/-- The walks that they need (R323). -/
def CpRun.spanWalks (s : State) (r : CpRun) : List Fetch := r.spans.flatMap (fun q => s.engWalks r q.2.1 q.2.2)

/-- Instruction `n` of core `k` starts; nothing when it may not. -/
def startCp (s : State) (k n : Nat) : State :=
  if cpReady s k n then
    match (s.eng k).cpq.find? (fun r => r.iss.seq == n && !((r.op == 8 || r.op == 0x15) && r.spanHeld s)) with
    | none => s
    | some r =>
      let bad := (s.ownerCtx r.iss).tinsErr r.tins
      let r0 : CpRun := { r with iss := { r.iss with stage := .running, poisoned := bad }, order := s.seqno }
      let q := if bad then (s, r0) else if isNamed r.op then beginNamed s r0 else (s, r0.begin)
      let s1 := modCp q.1 k n (fun _ => q.2)
      let s2 := { s1 with seqno := s1.seqno + 1 }
      (if !bad && (r.op == 7 || r.op == 8) then startStorage s2 k r0 else s2).draw
  else s

/-- Whether a named-line instruction of core `k` waits: for an access of its own, or for a vertical interface between the core and the home
agents of d3 (R246, R335). -/
def namedHeld (s : State) (k : Nat) (r : CpRun) : Bool := isNamed r.op && (s.paused (crossMask (dieOf k) 3) || r.spanHeld s)

/-- The states that one read, write or action more of what runs in the copy engine of core `k` leads to (R219, R224, R260). -/
def State.cpNext (s : State) (k : Nat) (r : CpRun) : List State :=
  if isNamed r.op then
    (if r.iss.stage = .running ∧ !r.iss.poisoned ∧ r.fault.isNone ∧ !namedHeld s k r then (namedMoves s r).map (fun g => modCp g.s k r.iss.seq (fun _ => g.r)) else [])
  else s.copyNext k r

/-- Instruction `n` of core `k` completes; nothing when it cannot yet. -/
def completeCp (s : State) (k n : Nat) : State :=
  match (s.eng k).cpq.find? (fun r => r.iss.seq == n && r.iss.stage == .running) with
  | none => s
  | some r =>
    if !cpDone s k r ∨ namedHeld s k r then s
    else if r.iss.poisoned then poisonCp s k r
    else if isNamed r.op then (let g := runNamed s r; (endCp k g g.r.preNamed 0).draw)
    else (let g := runCopy s k r; (endCp k g g.r.pre (g.r.flags (g.r.stream s k))).draw)

/-- COPY_ENGINE_START: an instruction of the copy queue starts. -/
def execCopyEngineStart (core n : Nat) (s : State) : Host.Outcome State Fault Refusal := .next (startCp s core n)
/-- COPY_COMPLETE: an instruction of the copy engine finishes. -/
def execCopyComplete (core n : Nat) (s : State) : Host.Outcome State Fault Refusal := .next (completeCp s core n)
/-- RECLAIM_DECREMENT: the reclaimer performs one pending child decrement of region `r`. -/
def execReclaimDecrement (r n : Nat) (s : State) : Host.Outcome State Fault Refusal := .next (s.putRegion r ((s.region r).reclaim n))
/-- ORDINAL_RELEASE: the `n`-th freed ordinal of region `r` becomes free for allocation. -/
def execOrdinalRelease (r n : Nat) (s : State) : Host.Outcome State Fault Refusal :=
  .next (s.putRegion r { s.region r with freeing := (s.region r).freeing.eraseIdx n })

/-! ## The rows -/

/-- NPUT: Names lines by lookup-or-allocate in the region. -/
def execNput (o : CpOps) (s : State) : Host.Outcome State Fault Refusal :=
  issueOne 2 (nputSem o) s
/-- NGET: Writes the lines of names. -/
def execNget (o : CpOps) (s : State) : Host.Outcome State Fault Refusal :=
  issueOne 2 (ngetSem o) s
/-- NREF: Increments the counts of names. -/
def execNref (o : CpOps) (s : State) : Host.Outcome State Fault Refusal :=
  issueOne 2 (nrefSem o) s
/-- NREL: Decrements the counts of names, freeing at zero. -/
def execNrel (o : CpOps) (s : State) : Host.Outcome State Fault Refusal :=
  issueOne 2 (nrelSem o) s
/-- NSWAP: Atomically compares and swaps a root slot with count changes. -/
def execNswap (o : CpOps) (s : State) : Host.Outcome State Fault Refusal :=
  issueOne 2 (nswapSem o) s
/-- NOUT: Writes the leaves of a tree. -/
def execNout (o : CpOps) (s : State) : Host.Outcome State Fault Refusal :=
  issueOne 2 (noutSem o) s
/-- NSTAT: Writes status results for names. -/
def execNstat (o : CpOps) (s : State) : Host.Outcome State Fault Refusal :=
  issueOne 2 (nstatSem o) s

end Sys2Proof.Machine
end

