-- ==== Sys2Proof/Machine/Waits.lean ====
section
/-! DEFINITION. The ends of waits (R117 to R120, R125 to R128, R132, R199, R295): each leaves the state as it is while its
condition does not hold. -/

namespace Sys2Proof.Machine

/-- Ends the wait of a context: it is ready again, unless the weir wait of the same bundle stands, or a point has been reached (R113, R302). -/
def Ctx.endWait (x : Ctx) (clock : Nat) : Ctx :=
  (({ x with seq := { x.seq with wait := x.seq.behind, behind := none } } : Ctx).restart clock).saveAtPoint

/-- Ends a wait and changes the context. -/
def endWait (s : State) (c : Nat) (f : Ctx → Ctx) : State := s.modCtx c (fun x => f (x.endWait s.clock))

/-- Whether a wait is a point of pre-emption (R302). -/
def Wait.isPoint : Wait → Bool
  | .tokens _ _ => true
  | .counter _ _ => true
  | .weir _ _ _ ppt _ => ppt
  | _ => false

/-- Whether a context waits at a point; with two waits, both are to be points (notes/assumptions/56.md). -/
def Ctx.waitPoint (x : Ctx) : Bool := x.seq.wait.any Wait.isPoint && x.seq.behind.all Wait.isPoint

/-- R304: a context that waits at a point at TL0 with a pre-emption requested issues no more: the wait is taken up again when it is
resumed. -/
def Ctx.stopped (x : Ctx) : Bool := x.sched.preempt.isSome && x.level == 0 && x.waitPoint

/-- Whether a context may go on from a wait. -/
def Ctx.goesOn (x : Ctx) : Bool := x.resident && !x.stopped

/-! ## Tokens (R117, R119) -/

/-- Whether every token of a mask is set. -/
def Ctx.allSet (x : Ctx) (mask : Nat) : Bool := (List.range 64).all (fun t => !bitAt mask t || x.tokSet t)
/-- The lowest token of a mask in error. -/
def Ctx.lowestErr (x : Ctx) (mask : Nat) : Option Nat := (List.range 64).find? (fun t => bitAt mask t && x.tokErr t)

/-- `twait` completes: `trap(ENGF)` is left for the next bundle, or `.soft` writes k15. What the tokens tell of is ordered (R187, R255). -/
def twaitEnd (s : State) (c : Nat) : State :=
  let x := s.ctx c
  match x.seq.wait with
  | some (.tokens mask soft) =>
    if x.goesOn && x.allSet mask then
      endWait (s.orderFresh c (fun f => (f.ofOwner x.sched.job x.sched.place && f.touts.any (fun t => bitAt mask t)) ||
          f.acq.any (fun t => bitAt mask t))) c (fun y =>
        if soft then y.setCond 15 (x.lowestErr mask).isSome
        else match x.lowestErr mask with
          | some t => { y with seq := { y.seq with pend := some ⟨0x0F, t⟩ } }
          | none => y)
    else s
  | _ => s

/-- Whether an engine instruction that satisfies `p` (its matrix flag and opcode) and was issued by the owner of place `place`
of job `job` is still to complete. -/
def State.engineBusy (s : State) (job place : Nat) (p : Bool → Nat → Issued → Bool) : Bool :=
  s.engines.any (fun e => e.2.mxq.any (fun r => r.iss.job == job && r.iss.place == place && p true r.op r.iss) ||
    e.2.cpq.any (fun r => r.iss.job == job && r.iss.place == place && p false r.op r.iss))

/-- `ewait` completes and writes k15. -/
def ewaitEnd (s : State) (c : Nat) : State :=
  let x := s.ctx c
  match x.seq.wait with
  | some .engines =>
    if x.resident && !s.engineBusy x.sched.job x.sched.place (fun _ _ _ => true) then
      endWait (s.orderFresh c (fun f => f.ofOwner x.sched.job x.sched.place || f.acq != [])) c (fun y => y.setCond 15 ((List.range 64).any (fun t => x.tokErr t)))
    else s
  | _ => s

/-! ## Counters and earlier accesses (R118, R120) -/

/-- The bytes that a `cwait` of context `c` watches; none where its address no longer allows the read. -/
def watchTarget (s : State) (c a : Nat) : Option Target :=
  match s.checkPiece c a .load with
  | .ok t => some t
  | .walk =>
    match s.coreLeaf (coreOf c) (s.ctx c).sched.job a with
    | some f => if pteClass f.pte = 1 ∨ !Perm.load.allows f.pte then none else some (leafTarget f a)
    | none => none
  | .bad _ => none

/-- The value it watches, once what it crosses does not pause (R335). -/
def watchRead (s : State) (c a : Nat) : Option Nat :=
  (watchTarget s c a).bind (fun t =>
    if s.paused (t.crosses (dieOf (coreOf c))) then none else some (if s.reachable t then s.readN t.space t.addr 8 else 0))

/-- A read of it after a fresh walk caches the translation and sets A (R321, R323). -/
def watchMark (s : State) (c a : Nat) : State :=
  match (watchTarget s c a).bind (·.leaf) with
  | some f => if bitAt f.pte 11 then s else (s.coreUsed (coreOf c) (s.ctx c).sched.job a f).markLeaf (coreOf c) f false
  | none => s

/-- `cwait` completes: an acquire, which orders what copies with a counter have written. -/
def cwaitEnd (s : State) (c : Nat) : State :=
  let x := s.ctx c
  match x.seq.wait with
  | some (.counter a thr) =>
    match watchRead s c a with
    | some v => if x.goesOn ∧ thr ≤ v then (endWait ((watchMark s c a).acquireOf c) c id).draw else watchMark s c a
    | none => s
  | _ => s

/-- Whether an earlier remote access has not completed (R120, R263). -/
def Ctx.remotePending (x : Ctx) : Bool := x.ports.flights.any (fun f => f.landing.any (fun l => l.remote && !l.arrived))

/-- Whether an `xcpy` of the context is still to complete. -/
def State.xcpyPending (s : State) (x : Ctx) : Bool := s.engineBusy x.sched.job x.sched.place (fun mx op _ => !mx && op == 0x18)

/-- The writes of the `xcpy` instructions of context `c` become visible (R231), to its own core's matrix engine too. -/
def showXcpy (s : State) (c : Nat) : State :=
  let d := (s.ctx c).sched
  (s.showLoose (fun e => e.job == d.job && e.place == d.place)).orderFresh c (fun f => f.ofOwner d.job d.place && f.op == 0x18)

/-- `drain` completes. -/
def drainEnd (s : State) (c : Nat) : State :=
  let x := s.ctx c
  if x.seq.wait = some .drain ∧ x.resident ∧ !x.remotePending then endWait s c id else s

/-- `xfence` completes. -/
def xfenceEnd (s : State) (c : Nat) : State :=
  let x := s.ctx c
  if x.seq.wait = some .xfence ∧ x.resident ∧ !s.xcpyPending x then (endWait (showXcpy s c) c id).draw else s

/-! ## Ways and queues (R127, R128, R199) -/

/-- `split` takes its new value: ways that enter are zeroed and owned, ways that leave become empty cache. The number of lines
written back is a free value within its bound. -/
def splitEnd (s : State) (c : Nat) : State :=
  let x := s.ctx c
  match x.seq.wait with
  | some (.split new) =>
    if x.resident then
      let k := coreOf c
      let come := new &&& notBits 16 x.win.ways
      let go := x.win.ways &&& notBits 16 new
      let s1 := forWays (fun t w => takeWay t k w x.sched.job c) come 16 0 s
      let s2 := forWays (fun t w => dropWay t k w) go 16 0 s1
      (endWait s2 c (fun y => { y with win := { y.win with ways := new, wb := s.free 7900 % (8192 * popcount 16 come + 1) } })).draw
    else s
  | _ => s

/-- Whether `bacq` of context `c` can take way `w`, which no other context is about to take (notes/assumptions/31.md). -/
def wayFree (s : State) (c w : Nat) : Bool :=
  !bitAt (splitComing s (coreOf c) c) w &&
    (match s.way (coreOf c) w with
     | .released _ _ => true
     | .cache => lockedIn s (coreOf c) w == 0
     | .owned j d => j == (s.ctx c).sched.job && d == c)

/-- `bacq` completes, for the whole mask at once. -/
def bacqEnd (s : State) (c : Nat) : State :=
  let x := s.ctx c
  match x.seq.wait with
  | some (.ways mask) =>
    if x.resident && (List.range 16).all (fun w => !bitAt mask w || wayFree s c w) then
      let k := coreOf c
      let j := x.sched.job
      let s1 := forWays (fun t w =>
        match t.way k w with
        | .cache => takeWay t k w j c
        | .released _ _ => (invalWay t k w).setWay k w (.owned j c)
        | .owned _ _ => t) mask 16 0 s
      endWait s1 c (fun y => { y with win := { y.win with ways := y.win.ways ||| mask } })
    else s
  | _ => s

/-- A blocking `qpush` finds a free slot. -/
def pushEnd (s : State) (c : Nat) : State :=
  let x := s.ctx c
  match x.seq.wait with
  | some (.push q pkt) => if x.resident && s.hasSlot q then endWait (s.pushSlot q pkt x.sched.job) c id else s
  | _ => s

/-! ## The fetch path (R132) -/

/-- `fsync` completes: the maintenance operations that the context has issued have performed, on whatever core (R309), and its core's
fetch path is discarded. -/
def fsyncEnd (s : State) (c : Nat) : State :=
  let x := s.ctx c
  if x.seq.wait = some .fsync ∧ x.resident then
    (endWait ((s.performMaints (fun m => m.ofOwner x.sched.job x.sched.place)).dropPaths (coreOf c)) c id).draw
  else s

/-! ## Weir barriers (R125, R126) -/

/-- The context of place `i` of job `j`: bound, or saved. -/
def State.ctxAt (s : State) (j i : Nat) : Option Ctx :=
  match s.ctxs.find? (fun p => p.2.bound && p.2.sched.job == j && p.2.sched.place == i) with
  | some p => some p.2
  | none => ((s.loaded j).saved.find? (fun v => v.place == i)).map (·.ctx)

/-- The places of its job that group mask `g` of a context names (R124). -/
def gmPlaces (s : State) (x : Ctx) (g : Nat) : List Nat :=
  let m := look (0, 0, 0) x.regs.gm g
  (s.loaded x.sched.job).places.zipIdx.filterMap (fun p =>
    if bitAt m.1 (4 * p.1.cluster + p.1.core) && bitAt m.2.1 p.1.die && m.2.2 == p.1.ctx then some p.2 else none)

/-- The weir wait of a context, alone or behind the wait of its control slot. -/
def Ctx.weir (x : Ctx) : Option Wait :=
  match x.seq.wait with
  | some (.weir g n step ppt arrived) => some (.weir g n step ppt arrived)
  | _ => x.seq.behind

/-- The arrival, once earlier remote accesses and `xcpy` writes have completed: a release at device scope. -/
def weirArrive (s : State) (c : Nat) : State :=
  let x := s.ctx c
  match x.weir with
  | some (.weir g n step ppt false) =>
    if x.resident && !x.remotePending && !s.xcpyPending x then
      let w := some (Wait.weir g n step ppt true)
      (((showXcpy s c).releaseOf x.sched.job x.sched.place).modCtx c (fun y =>
        { y with seq := if y.seq.behind.isSome then { y.seq with behind := w } else { y.seq with wait := w },
                 sched := { y.sched with arrivals := put y.sched.arrivals g n } })).draw
    else s
  | _ => s

/-- Whether every named context has arrived at barrier `g` `n` times, a halted or killed one counting as arrived. -/
def allArrived (s : State) (x : Ctx) (g n : Nat) : Bool :=
  (gmPlaces s x g).all (fun i =>
    match s.ctxAt x.sched.job i with
    | some y => y.seq.run == .halted || y.seq.run == .killed || decide (n ≤ look 0 y.sched.arrivals g)
    | none => false)

/-- Whether a step-tagged instruction that a participant issued in its own present superstep is still to complete (R126, R190). -/
def taggedBusy (s : State) (x : Ctx) (g : Nat) : Bool :=
  (gmPlaces s x g).any (fun i =>
    match s.ctxAt x.sched.job i with
    | some y => s.engineBusy x.sched.job i (fun _ _ q => q.step == some y.seq.wstep)
    | none => false)

/-- Whether the release of context `c` from barrier `g` has an interface to cross that pauses (R335). -/
def releasePaused (s : State) (c g : Nat) : Bool :=
  (gmPlaces s (s.ctx c) g).any (fun i =>
    match s.placeCtx (s.ctx c).sched.job i with
    | some d => s.paused (crossMask (dieOf (coreOf c)) (dieOf (coreOf d)))
    | none => false)

/-- What a release orders: an acquire at device scope, and, of a step barrier, the step-tagged copies of the job. -/
def releaseOrder (s : State) (c : Nat) (step : Bool) : State :=
  let t := s.acquireOf c
  if step then t.orderFresh c (fun f => f.job == (s.ctx c).sched.job && f.step) else t

/-- The end of a weir wait: the next superstep of a step barrier, and the wait itself. -/
def Ctx.endWeir (x : Ctx) (clock : Nat) (step : Bool) : Ctx :=
  let y := if step then { x with seq := { x.seq with wstep := (x.seq.wstep + 1) % 2 ^ 32 } } else x
  if y.seq.behind.isSome then { y with seq := { y.seq with behind := none } } else y.endWait clock

/-- The release of a weir wait; of a step barrier when `step`. -/
def weirRelease (s : State) (c : Nat) (step : Bool) : State :=
  let x := s.ctx c
  match x.weir with
  | some (.weir g n st _ true) =>
    if st = step ∧ x.goesOn ∧ allArrived s x g n ∧ (step → !taggedBusy s x g) ∧ !releasePaused s c g then
      (releaseOrder s c step).modCtx c (fun y => y.endWeir s.clock step)
    else s
  | _ => s

/-! ## Trap entry (R295) -/

/-- The entry waits until no landing access in flight is without its data. -/
def trapEntry (s : State) (c : Nat) : State :=
  let x := s.ctx c
  match x.seq.wait with
  | some (.entry cause tval epc lit) =>
    if x.resident then
      if x.missing x.lastLanding then
        let t := awaitEntry s c cause tval epc lit
        if (t.ctx c).seq.cyc = x.seq.cyc ∧ (t.ctx c).ports = x.ports then s else t.draw
      else (enterTrap s c cause tval epc lit).draw
    else s
  | _ => s

/-! ## The rows -/

/-- TWAIT_COMPLETE: waited tokens are set. -/
def execTwaitComplete (c : Nat) (s : State) : Host.Outcome State Fault Refusal := .next (twaitEnd s c)
/-- CWAIT_COMPLETE: the counter has reached the value. -/
def execCwaitComplete (c : Nat) (s : State) : Host.Outcome State Fault Refusal := .next (cwaitEnd s c)
/-- DRAIN_COMPLETE: every earlier remote access has completed. -/
def execDrainComplete (c : Nat) (s : State) : Host.Outcome State Fault Refusal := .next (drainEnd s c)
/-- XFENCE_COMPLETE: earlier `xcpy` instructions have completed. -/
def execXfenceComplete (c : Nat) (s : State) : Host.Outcome State Fault Refusal := .next (xfenceEnd s c)
/-- SPLIT_CONVERT: ways change between cache and scratchpad. -/
def execSplitConvert (c : Nat) (s : State) : Host.Outcome State Fault Refusal := .next (splitEnd s c)
/-- BACQ_GRANT: the requested ways are taken. -/
def execBacqGrant (c : Nat) (s : State) : Host.Outcome State Fault Refusal := .next (bacqEnd s c)
/-- QPUSH_SLOT_FREE: a blocking `qpush` pushes. -/
def execQpushSlotFree (c : Nat) (s : State) : Host.Outcome State Fault Refusal := .next (pushEnd s c)
/-- FSYNC_COMPLETE: earlier `cwb` and `iinv` have completed. -/
def execFsyncComplete (c : Nat) (s : State) : Host.Outcome State Fault Refusal := .next (fsyncEnd s c)
/-- EWAIT_COMPLETE: earlier engine instructions have completed. -/
def execEwaitComplete (c : Nat) (s : State) : Host.Outcome State Fault Refusal := .next (ewaitEnd s c)
/-- WEIR_ARRIVE: the context arrives at its barrier. -/
def execWeirArrive (c : Nat) (s : State) : Host.Outcome State Fault Refusal := .next (weirArrive s c)
/-- WEIR_RELEASE: every named participant has arrived. -/
def execWeirRelease (c : Nat) (s : State) : Host.Outcome State Fault Refusal := .next (weirRelease s c false)
/-- SUPERSTEP_RELEASE: and step-tagged work has completed. -/
def execSuperstepRelease (c : Nat) (s : State) : Host.Outcome State Fault Refusal := .next (weirRelease s c true)
/-- TRAP_ENTRY: the context enters the next trap level. -/
def execTrapEntry (c : Nat) (s : State) : Host.Outcome State Fault Refusal := .next (trapEntry s c)

end Sys2Proof.Machine
end

