-- ==== Sys2Proof/Machine/Flights.lean ====
section
/-! DEFINITION. Results and landing accesses on their way (R77, R80, R209), and the clocks of the selector (R83, R88, R131):
the event that each brings. An event whose condition does not hold leaves the state as it is. -/

namespace Sys2Proof.Machine

/-- Flight `n` of context `c`. -/
def State.flight (s : State) (c n : Nat) : Option Flight := (s.ctx c).ports.flights[n]?

/-- Replaces flight `n` of a context. -/
def Ctx.setFlight (x : Ctx) (n : Nat) (f : Flight) : Ctx := { x with ports := { x.ports with flights := x.ports.flights.set n f } }

/-- R77: whether flight `n` may land now: inside its window, after every earlier result of its port and bound. -/
def Ctx.mayLand (x : Ctx) (n : Nat) (f : Flight) : Bool :=
  f.landing.isNone && decide (f.lo ≤ x.seq.cyc) && (x.ports.flights.take n).all (fun g => !(g.sameOrder f && decide (x.seq.cyc < g.hi)))

/-- A result lands in its context's present cycle; one that is overdue landed at the end of its window. -/
def landResult (s : State) (c n : Nat) : State :=
  match s.flight c n with
  | some f =>
    if (s.ctx c).bound && (s.ctx c).mayLand n f then
      (s.modCtx c (fun x => (x.setFlight n { f with hi := min f.hi x.seq.cyc }).settle (s.landDraw c))).draw
    else s
  | none => s

/-- What a wait for flag-raising operations ends with (R51): the run-on, as far as the data of landing accesses let it go, then the read of
fpstat. -/
def fpstatEnd (s : State) (c : Nat) : State :=
  let x := s.ctx c
  match x.seq.wait with
  | some (.fpstat dst upto) =>
    if x.resident then
      let y := x.runOn (s.landDraw c) upto
      let ran := x.ranTo y s.clock
      if x.missing upto then
        if y.seq.cyc = x.seq.cyc ∧ y.ports = x.ports then s else (s.setCtx c { y with seq := { y.seq with wake := ran } }).draw
      else
        let s1 := (s.setCtx c y).writeDest c dst (PVal.scal y.fmts.fpstat)
        (s1.modCtx c (fun z => (({ z with seq := { z.seq with cyc := upto + 1, wake := ran } } : Ctx).endWait ran))).draw
    else s
  | _ => s

/-- Data that a context waited for are there (R80): what is due lands, and a run-on that they held goes on. -/
def thaw (s : State) (c : Nat) : State :=
  if (s.ctx c).seq.wait.isNone then (s.modCtx c (fun y => y.settle (s.landDraw c))).draw else fpstatEnd s c

/-- Whether the data or the acceptance of a landing access may come now: it is still to come, and no interface that it crosses pauses
(R335). -/
def State.comes (s : State) (c : Nat) (l : Landing) : Bool := (s.ctx c).bound && !l.arrived && !s.paused l.cross

/-- A landing access has its data, or has been accepted; an access sent as a PCIe AtomicOp that ended in error gives its event, and what it
was to bring is zero (R214, R356). -/
def arriveAt (s : State) (c n : Nat) (f : Flight) (l : Landing) (err : Bool) : State :=
  let bad := err && l.hostOp.isSome
  let g := { f with landing := some { l with arrived := true }, val := if bad then f.val.map (fun _ => PVal.zero) else f.val }
  let s1 := s.modCtx c (fun x => x.setFlight n g)
  thaw (if bad then s1.openEvent srcAtomic 3 none none l.hostOp else s1) c

/-- R80: the data of flight `n` arrive; or, in error, the completion of a reduction that was sent as a PCIe AtomicOp. -/
def dataArrive (s : State) (c n : Nat) (err : Bool) : State :=
  match s.flight c n with
  | some f =>
    match f.landing with
    | some l => if s.comes c l ∧ (f.val.isSome ∨ (err ∧ l.hostOp.isSome)) then arriveAt s c n f l err else s
    | none => s
  | none => s

/-- R209: the memory system accepts a landing store or reduction. -/
def storeAccepted (s : State) (c n : Nat) : State :=
  match s.flight c n with
  | some f =>
    match f.landing with
    | some l => if s.comes c l ∧ f.val.isNone then arriveAt s c n f l false else s
    | none => s
  | none => s

/-- R83: the slack of a stall runs out. -/
def slackOut (s : State) (c : Nat) : State :=
  match (s.ctx c).sched.stall with
  | some (t, n) =>
    if t + n ≤ s.clock then s.modCtx c (fun x => { x with sched := { x.sched with yielded := true } }) else s
  | none => s

/-- R131: a yield ends after 64 cycles. -/
def yieldOut (s : State) (c : Nat) : State :=
  match (s.ctx c).sched.yieldAt with
  | some t => if t + 64 ≤ s.clock then s.modCtx c (fun x => { x with sched := { x.sched with yieldAt := none } }) else s
  | none => s

/-! ## The rows -/

/-- FU_RESULT_LAND: an FU result lands in its result port and ORs its flags. -/
def execFuResultLand (c n : Nat) (s : State) : Host.Outcome State Fault Refusal := .next (landResult s c n)
/-- LANDING_DATA_ARRIVAL: data arrive in the landing buffer, and a frozen context resumes. -/
def execLandingDataArrival (c n : Nat) (err : Bool) (s : State) : Host.Outcome State Fault Refusal := .next (dataArrive s c n err)
/-- LANDING_STORE_ACCEPTED: a landing store or reduction is accepted, and a frozen context resumes. -/
def execLandingStoreAccepted (c n : Nat) (s : State) : Host.Outcome State Fault Refusal := .next (storeAccepted s c n)
/-- SLACK_EXPIRE: the context stops holding the issue. -/
def execSlackExpire (c : Nat) (s : State) : Host.Outcome State Fault Refusal := .next (slackOut s c)
/-- YIELD_EXPIRE: a yield ends. -/
def execYieldExpire (c : Nat) (s : State) : Host.Outcome State Fault Refusal := .next (yieldOut s c)
/-- FORMAT_SHADOW_END: writes of mfmt, cvtctl and fpctl whose shadow has ended take effect. -/
def execFormatShadowEnd (c : Nat) (s : State) : Host.Outcome State Fault Refusal := .next (s.modCtx c Ctx.endShadow)

end Sys2Proof.Machine
end

