-- ==== Sys2Proof/Machine/Fetch.lean ====
section
/-! DEFINITION. Instruction fetch (R52 to R57, R105): index words through the index-word cache, bundles through the dictionary
store, and the events that bring either from memory. -/

namespace Sys2Proof.Machine

/-- The header of the bundle at the context's PC, as far as it can be fetched; one that cannot counts as having slack 0 (R83; DESIGN CHOICE,
notes/assumptions/53.md). -/
def State.nextHeader (s : State) (c : Nat) : Header :=
  match s.fetch c with
  | .bundle b _ => (decodeHeader (slotBits b 0)).getD Header.none
  | _ => Header.none

/-! ## Words and entries from memory -/

/-- The word at a place as the instruction path finds it in L2: where a core's caches hold its line dirty, the bytes of L2 or those of the
line, by the free value `i` (R105). -/
def State.codeWord (s : State) (i p : Nat) : Nat :=
  match s.mem.l1.find? (fun e => e.place == p / 128 * 128) with
  | some e => if bitAt (s.free (8200 + i)) 0 then fld e.old (8 * (p % 128)) 16 else s.readPlace p 2
  | none => s.readPlace p 2

/-- What a fetch of `n` bytes at `va` by core `k` for job `j` leaves: the translation is cached, A is set, uncorrectable errors are counted
(R321, R323, R374). -/
def State.codeRead (s : State) (k j va n : Nat) : State :=
  match s.fetchLeaf k j va with
  | some f => (let t := leafTarget f va; ((s.coreUsed k j va f).touch k t false n).meetBad t.space t.addr n)
  | none => s

/-- The index-word cache with one word more: 32 KiB, a full cache losing a word by the free value `v`. -/
def addWord (v key : Nat) (e : IndexWord) (l : Sparse IndexWord) : Sparse IndexWord :=
  put (if 16384 ≤ l.length then l.eraseIdx (v % l.length) else l) key e

/-- Whether a fetch at `va` by core `k` for job `j` waits for its walk, or for a vertical interface that pauses (R323, R335). -/
def State.fetchHeld (s : State) (k j va : Nat) : Bool :=
  s.walkWaits k j va || (s.fetchLeaf k j va).any (fun f => s.paused ((leafTarget f va).crosses (dieOf k)))

/-- Brings word `w` into the index-word cache; none where it cannot be fetched. -/
def State.fillWord (s : State) (c w : Nat) : Option State :=
  let x := s.ctx c
  let k := coreOf c
  let va := x.seq.base + 2 * w
  if s.inSegment x w then
    match s.fetchLeaf k x.sched.job va with
    | some f =>
      let p := (leafTarget f va).place
      some ((s.codeRead k x.sched.job va 2).modCore k (fun q => { q with
        icache := addWord (s.free 5404) (x.wordKey w) ⟨s.codeWord (w % 32) p, p, f.via⟩ q.icache }))
    | none => none
  else none

/-- Brings the `n` words from `w` on that the cache lacks; stops at the first that cannot be fetched, naming it. -/
def State.fillWords (s : State) (c w : Nat) : Nat → State × Option Nat
  | 0 => (s, none)
  | n + 1 =>
    match s.fetchWord c w with
    | .word _ => s.fillWords c (w + 1) n
    | _ =>
      match s.fillWord c w with
      | some t => t.fillWords c (w + 1) n
      | none => (s, some w)

/-- The addresses of the words that the bundle at a context's PC lacks: its first, and of a literal the others. -/
def State.wordsWanted (s : State) (c : Nat) : List Nat :=
  let x := s.ctx c
  let lit := s.fetchWord c x.seq.pc = .word 0xFFFF
  ((List.range (if lit then 25 else 1)).filter (fun i => s.fetchWord c (x.seq.pc + i) = .miss)).map (fun i => x.seq.base + 2 * (x.seq.pc + i))

/-- Whether one of those words waits. -/
def State.wordsHeld (s : State) (c : Nat) : Bool := (s.wordsWanted c).any (s.fetchHeld (coreOf c) (s.ctx c).sched.job)

/-- INDEX_WORD_FETCH_COMPLETE: the words that the waiting bundle lacks arrive, or the fetch faults (R55, R57). -/
def wordsArrive (s : State) (c : Nat) : State :=
  let x := s.ctx c
  if x.resident ∧ x.seq.wait.isNone ∧ x.seq.pend.isNone ∧ x.seq.fpx.isNone ∧ s.fetch c = .words ∧ !s.wordsHeld c then
    let pc := x.seq.pc
    let one := s.fillWords c pc 1
    match one.2 with
    | some w => trapBundle one.1 c 0x09 w 0
    | none =>
      if one.1.fetchWord c pc = .word 0xFFFF ∧ !one.1.wordsHeld c then
        let all := one.1.fillWords c (pc + 1) 24
        match all.2 with
        | some w => trapBundle all.1 c 0x09 w 1
        | none => (all.1.modCtx c (fun y => y.restart s.clock)).draw
      else (one.1.modCtx c (fun y => y.restart s.clock)).draw
  else s

/-- Fetch `n` of core `k`. -/
def State.fetchAt (s : State) (k n : Nat) : Option Fetch := (look [] s.fetches k)[n]?
/-- Removes fetch `n` of core `k`. -/
def State.endFetch (s : State) (k n : Nat) : State := { s with fetches := put s.fetches k ((look [] s.fetches k).eraseIdx n) }

/-- A dictionary entry filled from its recorded address; none where a word of it does not translate with X. -/
def State.refilled (s : State) (k : Nat) (e : DictEntry) : Option DictEntry :=
  match s.fetchLeaf k e.job e.va, s.fetchLeaf k e.job (e.va + 46) with
  | some f, some g =>
    let page := (e.va + 46) / 65536 * 65536
    let r : DictEntry := { e with pa := (leafTarget f e.va).place, pb := (leafTarget g page).place, valid := true, via := f.via, viab := g.via }
    some { r with bundle := ofWords16 ((List.range 24).map (fun i => s.codeWord (32 + i) (r.wordPlace i))) }
  | _, _ => none

/-- Whether the refill of an entry waits. -/
def State.refillHeld (s : State) (k : Nat) (e : DictEntry) : Bool := s.fetchHeld k e.job e.va || s.fetchHeld k e.job (e.va + 46)

/-- DICT_REFILL_COMPLETE: an invalid entry is refilled, or the fetch of the bundle that waits for it faults (R57). -/
def refillEnd (s : State) (k n : Nat) : State :=
  match s.fetchAt k n with
  | some (.refill c m) =>
    let s1 := s.endFetch k n
    match (s.core k).dict.find? (fun e => e.1 == m) with
    | some e =>
      if s.refillHeld k e.2 then s
      else
      match s.refilled k e.2 with
      | some r =>
        let first := min 48 (65536 - e.2.va % 65536)
        let s2 := s1.codeRead k e.2.job e.2.va first
        let s3 := if first < 48 then s2.codeRead k e.2.job (e.2.va + first) (48 - first) else s2
        (s3.modCore k (fun q => { q with dict := put q.dict m r })).draw
      | none =>
        if (s1.ctx c).resident ∧ s1.fetch c = .refill m then trapBundle s1 c 0x09 (s1.ctx c).seq.pc 0 else s1
    | none => s1
  | _ => s

/-- A walk that has faulted is kept for the contexts of core `k` whose bundles wait for it (R320, R322). -/
def keepFault (s : State) (k asid page : Nat) : State :=
  (ctxsOf k).foldl (fun t c =>
    let x := t.ctx c
    if x.bound ∧ x.sched.asid = asid ∧ x.sched.stall.isSome ∧ x.seq.wait.isNone ∧ !x.sched.faults.contains page then
      t.modCtx c (fun y => { y with sched := { y.sched with faults := page :: y.sched.faults } })
    else t) s

/-- The walk of a page ends on core `k`: its leaf enters the TLBs, or its fault is kept. -/
def walkedOn (s : State) (k asid page : Nat) (f : Option Leaf) : State :=
  match f with
  | some g => s.fillTlb k asid (page * 65536) g
  | none => keepFault s k asid page

/-- PAGE_WALK_COMPLETE: one of the die's 256 walkers ends the walk that core `k` waits for, for every core of the die that waits for it
(R320, R323). -/
def walkEnd (s : State) (k n : Nat) : State :=
  match s.fetchAt k n with
  | some (.walk asid root page) =>
    let w := Fetch.walk asid root page
    let d := dieOf k
    if ((s.die d).walks.take 256).contains w then
      let leaf := s.walkBy d asid root (page * 65536)
      let cores := (s.fetches.filter (fun p => dieOf p.1 == d && p.2.contains w)).map (·.1)
      let s1 := (s.walked d asid root (page * 65536)).modDie d (fun t => { t with walks := t.walks.erase w })
      let s2 := { s1 with fetches := s1.fetches.map (fun p => if dieOf p.1 = d then (p.1, p.2.erase w) else p) }
      (cores.foldl (fun t i => walkedOn t i asid page leaf) s2).draw
    else s
  | _ => s

/-! ## The rows -/

/-- DICT_REFILL_COMPLETE: a dictionary entry is refilled from its recorded address, or the fetch faults. -/
def execDictRefillComplete (core n : Nat) (s : State) : Host.Outcome State Fault Refusal := .next (refillEnd s core n)
/-- PAGE_WALK_COMPLETE: a page walk returns a translation or a fault. -/
def execPageWalkComplete (core n : Nat) (s : State) : Host.Outcome State Fault Refusal := .next (walkEnd s core n)
/-- INDEX_WORD_FETCH_COMPLETE: index words arrive from memory, or the fetch faults. -/
def execIndexWordFetchComplete (c : Nat) (s : State) : Host.Outcome State Fault Refusal := .next (wordsArrive s c)

end Sys2Proof.Machine
end

