-- ==== Sys2Proof/Machine/LoadStore.lean ====
section
/-! DEFINITION. The ls unit (R192 to R217): scalar loads and stores, tile transfers, atomics and reductions. An access performs at
the issue of its bundle (notes/assumptions/11.md); a landing access lands in its port when its data have arrived and are due. -/

namespace Sys2Proof.Machine

/-! ## Operands (R206, Table 9.6) -/

/-- T as a scalar. -/
def lsT (o : LsOps) (s : State) : Nat := (s.readName s.cur o.t .scalar).asScalar
/-- O as a scalar. -/
def lsO (o : LsOps) (s l : State) : Nat := (operand s l 2 o.o .scalar).asScalar
/-- O as a 16-byte value. -/
def lsWide (o : LsOps) (s l : State) : Nat := (operand s l 2 o.o .any).asWide
/-- O as a tile. -/
def lsTile (o : LsOps) (s l : State) : Tile := (operand s l 2 o.o .tile).asTile
/-- Operand port 2 as a scalar, as 16 bytes, as a tile. -/
def lsO2 (l : State) : Nat := (operand2 l 2).asScalar
def lsWide2 (l : State) : Nat := (operand2 l 2).asWide
def lsTile2 (l : State) : Tile := (operand2 l 2).asTile

/-- A 16-byte value in elements (0,0) to (0,7) of ls.r. -/
def wideVal (v : Nat) : PVal := ⟨.tile, BitVec.ofNat 16384 (v % 2 ^ 128), 0⟩

/-! ## Landing accesses (R80, R81, R209) -/

/-- The value of landing register `n`. -/
def Ctx.lnd (x : Ctx) (n : Nat) : Nat := look 0 x.regs.lnd n

/-- A landing access enters the list of what is in flight; a load or an atomic holds one landing-buffer entry. -/
def Ctx.sendLanding (x : Ctx) (cls : Nat) (v : Option PVal) (remote : Bool) (hostOp : Option Nat) (cross : Nat) : Ctx :=
  let due := x.seq.cyc + x.lnd cls
  { x with ports := { x.ports with flights := x.ports.flights ++
      [⟨2, x.lnd cls, x.level, due, due, v, none, 0, 0, none, x.seq.pc, some ⟨if v.isSome then 1 else 0, false, remote, hostOp, cross⟩⟩] } }

/-- The interfaces that the parts of an access cross. -/
def partsCross (d : Nat) (l : List Part) : Nat := l.foldl (fun m k => match k.check with | .ok t => m ||| t.crosses d | _ => m) 0

/-- R207: orderings an access kind accepts, as codes 0 relaxed, 1 acq, 2 rel, 3 ar. -/
def ordCands (ok : List Nat) (ord : Nat) : List Cand := candIf (!ok.contains ord) illegalCombination

/-- `trap(alignment)` at an address. -/
def misaligned (a n : Nat) : List Cand := candIf (a % n != 0) ⟨0x0C, .val a⟩

/-- The host address of an access that a class-11 page with home 01 carries as a PCIe AtomicOp (R214). -/
def hostOpOf (parts : List Part) : Option Nat :=
  parts.findSome? (fun k => match k.check with | .ok t => if t.space = .host ∧ t.remote then some t.addr else none | _ => none)

/-- The meaning of an access from its parts: fixed latency on own ways when `fixed` gives bound and interval, else a landing
access of interval `ii`; `rel` and `acq` are its orderings. A and D are set and locked lines taken before it performs (R202, R321); then `val` is what lands in ls.r, and
`store` what it does to memory; for an atomic, the `xcpy` writes that come before it are visible before either (R272). `firm` are its trap conditions that do not depend on its operands, `cands` the others. -/
def accessSem (s l : State) (o : LsOps) (wo : Want) (firm cands : List Cand) (parts : List Part) (fixed : Option (Nat × Nat)) (ii : Nat)
    (writes atomic rel acq : Bool) (val : Option (State → PVal)) (store : State → State) : Sem :=
  let own := partsOwn parts
  let pass := fun (e : State) => if atomic then parts.foldl State.passPart e else e
  let landing := fixed.isNone || !own
  let land : Option PVal → Ctx → Ctx := fun v x =>
    match fixed, own, v with
    | some f, true, some v => x.send 2 f.1 f.2 (some v) none 0 0 none false
    | some _, true, none => x
    | _, _, v => x.sendLanding o.lnd v (partsRemote parts) (if atomic then hostOpOf parts else none) (partsCross (dieOf (coreOf s.cur)) parts)
  let t := fun v => trigSem s l 2 (match fixed, own with | some f, true => f.2 | _, _ => ii) o.t o.o .scalar wo (firm ++ cands ++ partCands parts) (land v)
  { t none with phase := if writes then 40 else 30,
                firm := portCands s o.t o.o .scalar wo ++ firm,
                entries := if landing && val.isSome then 1 else 0,
                walks := partWalks parts,
                risk := [0x07, 0x0A, 0x0B, 0x0C],
                act := fun e =>
                  let v := e.touchParts (coreOf s.cur) writes parts
                  let u := pass (if rel then v.release else v)
                  let w := store ((t (val.map (fun f => f u))).act u)
                  if acq then w.acquire else w }

/-! ## Scalar loads and stores (R210) -/

/-- A scalar load of `n` bytes: bound 6 on own ways. -/
def loadSem (o : LsOps) (n : Nat) (sign : Bool) (s l : State) : Sem :=
  let a := (lsT o s + lsO o s l) % 2 ^ 64
  let ps := s.parts s.cur a n .load
  accessSem s l o .scalar (ordCands [0, 1] o.ord) (misaligned a n) ps (some (6, 1)) 1 false false false (o.ord == 1)
    (some (fun e => let v := e.readParts ps; if n = 16 then wideVal v else PVal.scal (if sign then sext64 (8 * n) v else v))) id

/-- A scalar store of `n` bytes. -/
def storeSem (o : LsOps) (n : Nat) (s l : State) : Sem :=
  let a := lsT o s
  let ps := s.parts s.cur a n .store
  let d := if n = 16 then lsWide o s l else lsO o s l
  accessSem s l o (if n = 16 then .any else .scalar) (ordCands [0, 2] o.ord) (misaligned a n) ps (some (6, 1)) 1 true false (o.ord == 2) false none
    (fun e => e.writeParts ps (d % 2 ^ (8 * n)))

def ldBSem (o : LsOps) : State → State → Sem := loadSem o 1 false
def ldHSem (o : LsOps) : State → State → Sem := loadSem o 2 false
def ldWSem (o : LsOps) : State → State → Sem := loadSem o 4 false
def ldDSem (o : LsOps) : State → State → Sem := loadSem o 8 false
def ldQSem (o : LsOps) : State → State → Sem := loadSem o 16 false
def ldsBSem (o : LsOps) : State → State → Sem := loadSem o 1 true
def ldsHSem (o : LsOps) : State → State → Sem := loadSem o 2 true
def ldsWSem (o : LsOps) : State → State → Sem := loadSem o 4 true
def stBSem (o : LsOps) : State → State → Sem := storeSem o 1
def stHSem (o : LsOps) : State → State → Sem := storeSem o 2
def stWSem (o : LsOps) : State → State → Sem := storeSem o 4
def stDSem (o : LsOps) : State → State → Sem := storeSem o 8
def stQSem (o : LsOps) : State → State → Sem := storeSem o 16

/-! ## Tile transfers (R211, R212) -/

/-- A row's start address; none for a row that is skipped. -/
abbrev Starts := List (Option Nat)

/-- Start addresses from a pitch. -/
def pitchStarts (a pitch : Nat) : Starts := (List.range 16).map (fun i => some ((a + i * pitch) % 2 ^ 64))

/-- Start addresses from an offset tile: elements (i, 0) and (i, 1), with 0xFFFF_FFFF skipping the row. -/
def offsetStarts (a : Nat) (t : Tile) : Starts :=
  (List.range 16).map (fun i =>
    let d := elemAt t (64 * i) + 65536 * elemAt t (64 * i + 1)
    if d = 0xFFFFFFFF then none else some ((a + d) % 2 ^ 64))

/-- Offsets that are not multiples of 16, at their rows' addresses. -/
def offsetCands (a : Nat) (t : Tile) : List Cand :=
  (List.range 16).flatMap (fun i =>
    let d := elemAt t (64 * i) + 65536 * elemAt t (64 * i + 1)
    candIf (d != 0xFFFFFFFF && d % 16 != 0) ⟨0x0C, .val ((a + d) % 2 ^ 64)⟩)

/-- The trap conditions of a pitch: its upper bits, and its alignment at the first row it moves. -/
def pitchCands (a pitch : Nat) : List Cand :=
  candIf (decide (2 ^ 24 ≤ pitch)) illegalCombination ++ candIf (pitch % 16 != 0) ⟨0x0C, .val ((a + pitch) % 2 ^ 64)⟩

/-- Whether an address is in the window of Table 9.1. -/
def inWindow (a : Nat) : Bool := decide (a < 0x8000000)

/-- The trap conditions of the rows of a transfer that requires window (or virtual) addresses. -/
def rowCands (window : Bool) (st : Starts) : List Cand :=
  let live := st.filterMap id
  candIf (live.any (fun a => inWindow a != window)) illegalCombination ++ live.flatMap (fun a => misaligned a 16) ++
    (match live with
      | [] => []
      | a :: _ =>
        candIf (live.any (fun b => addrRow b != addrRow a || addrRow ((b + 127) % 2 ^ 64) != addrRow a))
          (wayTrap (live.foldl min a)))

/-- The checked parts of each row. -/
def rowParts (s : State) (st : Starts) (p : Perm) : List (List Part) :=
  st.map (fun a => match a with | some a => s.parts s.cur a 128 p | none => [])

/-- A tile load. -/
def tileLoad (o : LsOps) (wo : Want) (window : Bool) (st : Starts) (cands : List Cand) (fixed : Nat × Nat) (s l : State) : Sem :=
  let rows := rowParts s st .load
  let m := accessSem s l o wo (ordCands [0, 1] o.ord) (cands ++ rowCands window st) rows.flatten (if window then some fixed else none) 4 false false
    false (o.ord == 1) (some (fun e => ⟨.tile, BitVec.ofNat 16384 (packRows (rows.map e.readParts)), 0⟩)) id
  { m with risk := 0x04 :: m.risk }

/-- A tile store, rows in ascending order. -/
def tileStore (o : LsOps) (window : Bool) (st : Starts) (cands : List Cand) (fixed : Nat × Nat) (s l : State) : Sem :=
  let rows := rowParts s st .store
  let d := lsTile o s l
  let m := accessSem s l o .tile (ordCands [0, 2] o.ord) (cands ++ rowCands window st) rows.flatten (if window then some fixed else none) 4 true
    false (o.ord == 2) false none (fun e => (rows.zipIdx).foldl (fun u r => u.writeParts r.1 (tileRow d r.2)) e)
  { m with risk := 0x04 :: m.risk }

def vldSem (o : LsOps) (s l : State) : Sem :=
  tileLoad o .scalar true (pitchStarts (lsT o s) (lsO o s l)) (pitchCands (lsT o s) (lsO o s l)) (8, 4) s l
def vldgSem (o : LsOps) (s l : State) : Sem :=
  tileLoad o .scalar false (pitchStarts (lsT o s) (lsO o s l)) (pitchCands (lsT o s) (lsO o s l)) (8, 4) s l
def vldxSem (o : LsOps) (s l : State) : Sem :=
  tileLoad o .tile true (offsetStarts (lsT o s) (lsTile o s l)) (offsetCands (lsT o s) (lsTile o s l)) (12, 8) s l
def vstSem (o : LsOps) (s l : State) : Sem :=
  tileStore o true (pitchStarts (lsT o s) (lsO2 l)) (pitchCands (lsT o s) (lsO2 l)) (8, 4) s l
def vstgSem (o : LsOps) (s l : State) : Sem :=
  tileStore o false (pitchStarts (lsT o s) (lsO2 l)) (pitchCands (lsT o s) (lsO2 l)) (8, 4) s l
def vstxSem (o : LsOps) (s l : State) : Sem :=
  tileStore o true (offsetStarts (lsT o s) (lsTile2 l)) (offsetCands (lsT o s) (lsTile2 l)) (12, 8) s l

/-! ## Atomics and reductions (R213 to R215) -/

/-- What an atomic makes of the old value and its operands at a width of `w` bits; none for a compare-and-swap that fails. -/
abbrev AmoFn := Nat → Nat → Nat → Nat → Option Nat

/-- Lane by lane of `lw` bits: round(flush(a) + flush(b)), to nearest even. -/
def addLanes (f : FFmt) (lw n a b : Nat) : Nat :=
  (List.range n).foldl (fun r k =>
    r + (f.add .rne false (f.readFlush (fld a (lw * k) lw)) (f.readFlush (fld b (lw * k) lw))).1 * 2 ^ (lw * k)) 0

def amoAdd : AmoFn := fun w a b _ => some ((a + b) % 2 ^ w)
def amoMin : AmoFn := fun w a b _ => some (if toSigned w a ≤ toSigned w b then a else b)
def amoMax : AmoFn := fun w a b _ => some (if toSigned w a ≤ toSigned w b then b else a)
def amoMinc : AmoFn := fun _ a b _ => some (min a b)
def amoMaxc : AmoFn := fun _ a b _ => some (max a b)
def amoAnd : AmoFn := fun _ a b _ => some (a &&& b)
def amoOr : AmoFn := fun _ a b _ => some (a ||| b)
def amoXor : AmoFn := fun _ a b _ => some (a ^^^ b)
def amoXchg : AmoFn := fun _ _ b _ => some b
def amoCas : AmoFn := fun _ a b c => if a = c then some b else none
def amoFadd : AmoFn := fun w a b _ => some (addLanes f32 32 (w / 32) a b)
def amoFaddh : AmoFn := fun w a b _ => some (addLanes f16 16 (w / 16) a b)
def amoIncw : AmoFn := fun w a b _ => some (if b ≤ a then 0 else (a + 1) % 2 ^ w)

/-- R214: on a class-11 page with home 01, an operation PCIe cannot carry is a protection fault. -/
def hostAtomicCands (pcie : Bool) (parts : List Part) : List Cand :=
  parts.filterMap (fun k =>
    match k.check with
    | .ok t => if t.space = .host ∧ t.remote ∧ !pcie then some ⟨0x0B, .val k.addr⟩ else none
    | _ => none)

/-- The update of memory by an atomic, before which nothing comes that its read has not seen (R272); nothing when it writes nothing. -/
def updateParts (e : State) (ps : List Part) (f : AmoFn) (n b c : Nat) : State :=
  match f (8 * n) (e.readParts ps) b c with
  | some v => e.putParts ps v
  | none => e

/-- An atomic of `n` bytes: a landing access wherever it lies. -/
def amoSem (o : LsOps) (n : Nat) (pcie : Bool) (f : AmoFn) (s l : State) : Sem :=
  let a := lsT o s
  let ps := s.parts s.cur a n .atomic
  let b := (if n = 16 then lsWide o s l else lsO o s l) % 2 ^ (8 * n)
  let c := (if n = 16 then lsWide2 l else lsO2 l) % 2 ^ (8 * n)
  accessSem s l o (if n = 16 then .any else .scalar) [] (misaligned a n ++ hostAtomicCands pcie ps) ps none 1 true true (decide (2 ≤ o.ord))
    (o.ord % 2 == 1) (some (fun e => let old := e.readParts ps; if n = 16 then wideVal old else PVal.scal old)) (fun e => updateParts e ps f n b c)

/-- A reduction: modifier [6] is its size, 4 or 8 bytes (R207). -/
def redSem (o : LsOps) (pcie : Bool) (f : AmoFn) (s l : State) : Sem :=
  let n := if o.ord % 2 = 1 then 8 else 4
  let a := lsT o s
  let ps := s.parts s.cur a n .store
  let b := lsO o s l % 2 ^ (8 * n)
  accessSem s l o .scalar [] (misaligned a n ++ hostAtomicCands pcie ps) ps none 1 true true (decide (2 ≤ o.ord)) false none
    (fun e => updateParts e ps f n b 0)

def amoAddWSem (o : LsOps) : State → State → Sem := amoSem o 4 true amoAdd
def amoMinWSem (o : LsOps) : State → State → Sem := amoSem o 4 false amoMin
def amoMaxWSem (o : LsOps) : State → State → Sem := amoSem o 4 false amoMax
def amoMincWSem (o : LsOps) : State → State → Sem := amoSem o 4 false amoMinc
def amoMaxcWSem (o : LsOps) : State → State → Sem := amoSem o 4 false amoMaxc
def amoAndWSem (o : LsOps) : State → State → Sem := amoSem o 4 false amoAnd
def amoOrWSem (o : LsOps) : State → State → Sem := amoSem o 4 false amoOr
def amoXorWSem (o : LsOps) : State → State → Sem := amoSem o 4 false amoXor
def amoXchgWSem (o : LsOps) : State → State → Sem := amoSem o 4 true amoXchg
def amoCasWSem (o : LsOps) : State → State → Sem := amoSem o 4 true amoCas
def amoFaddWSem (o : LsOps) : State → State → Sem := amoSem o 4 false amoFadd
def amoIncwWSem (o : LsOps) : State → State → Sem := amoSem o 4 false amoIncw
def amoAddDSem (o : LsOps) : State → State → Sem := amoSem o 8 true amoAdd
def amoMinDSem (o : LsOps) : State → State → Sem := amoSem o 8 false amoMin
def amoMaxDSem (o : LsOps) : State → State → Sem := amoSem o 8 false amoMax
def amoMincDSem (o : LsOps) : State → State → Sem := amoSem o 8 false amoMinc
def amoMaxcDSem (o : LsOps) : State → State → Sem := amoSem o 8 false amoMaxc
def amoAndDSem (o : LsOps) : State → State → Sem := amoSem o 8 false amoAnd
def amoOrDSem (o : LsOps) : State → State → Sem := amoSem o 8 false amoOr
def amoXorDSem (o : LsOps) : State → State → Sem := amoSem o 8 false amoXor
def amoXchgDSem (o : LsOps) : State → State → Sem := amoSem o 8 true amoXchg
def amoCasDSem (o : LsOps) : State → State → Sem := amoSem o 8 true amoCas
def amoFaddDSem (o : LsOps) : State → State → Sem := amoSem o 8 false amoFadd
def amoIncwDSem (o : LsOps) : State → State → Sem := amoSem o 8 false amoIncw
def amoCasQSem (o : LsOps) : State → State → Sem := amoSem o 16 true amoCas
def redAddSem (o : LsOps) : State → State → Sem := redSem o true amoAdd
def redMinSem (o : LsOps) : State → State → Sem := redSem o false amoMin
def redMaxSem (o : LsOps) : State → State → Sem := redSem o false amoMax
def redAndSem (o : LsOps) : State → State → Sem := redSem o false amoAnd
def redOrSem (o : LsOps) : State → State → Sem := redSem o false amoOr
def redXorSem (o : LsOps) : State → State → Sem := redSem o false amoXor
def redFaddSem (o : LsOps) : State → State → Sem := redSem o false amoFadd
def redFaddhSem (o : LsOps) : State → State → Sem := redSem o false amoFaddh

/-! ## The rows -/

/-- LD_B: Loads 1 byte zero-extended. -/
def execLdB (o : LsOps) (s : State) : Host.Outcome State Fault Refusal :=
  issueOne 4 (ldBSem o) s
/-- LD_H: Loads 2 bytes zero-extended. -/
def execLdH (o : LsOps) (s : State) : Host.Outcome State Fault Refusal :=
  issueOne 4 (ldHSem o) s
/-- LD_W: Loads 4 bytes zero-extended. -/
def execLdW (o : LsOps) (s : State) : Host.Outcome State Fault Refusal :=
  issueOne 4 (ldWSem o) s
/-- LD_D: Loads 8 bytes. -/
def execLdD (o : LsOps) (s : State) : Host.Outcome State Fault Refusal :=
  issueOne 4 (ldDSem o) s
/-- LD_Q: Loads 16 bytes. -/
def execLdQ (o : LsOps) (s : State) : Host.Outcome State Fault Refusal :=
  issueOne 4 (ldQSem o) s
/-- LDS_B: Loads 1 byte sign-extended. -/
def execLdsB (o : LsOps) (s : State) : Host.Outcome State Fault Refusal :=
  issueOne 4 (ldsBSem o) s
/-- LDS_H: Loads 2 bytes sign-extended. -/
def execLdsH (o : LsOps) (s : State) : Host.Outcome State Fault Refusal :=
  issueOne 4 (ldsHSem o) s
/-- LDS_W: Loads 4 bytes sign-extended. -/
def execLdsW (o : LsOps) (s : State) : Host.Outcome State Fault Refusal :=
  issueOne 4 (ldsWSem o) s
/-- ST_B: Stores 1 byte. -/
def execStB (o : LsOps) (s : State) : Host.Outcome State Fault Refusal :=
  issueOne 4 (stBSem o) s
/-- ST_H: Stores 2 bytes. -/
def execStH (o : LsOps) (s : State) : Host.Outcome State Fault Refusal :=
  issueOne 4 (stHSem o) s
/-- ST_W: Stores 4 bytes. -/
def execStW (o : LsOps) (s : State) : Host.Outcome State Fault Refusal :=
  issueOne 4 (stWSem o) s
/-- ST_D: Stores 8 bytes. -/
def execStD (o : LsOps) (s : State) : Host.Outcome State Fault Refusal :=
  issueOne 4 (stDSem o) s
/-- ST_Q: Stores 16 bytes. -/
def execStQ (o : LsOps) (s : State) : Host.Outcome State Fault Refusal :=
  issueOne 4 (stQSem o) s
/-- VLD: Loads a tile of 16 rows from window addresses with a pitch. -/
def execVld (o : LsOps) (s : State) : Host.Outcome State Fault Refusal :=
  issueOne 4 (vldSem o) s
/-- VST: Stores a tile of 16 rows to window addresses with a pitch. -/
def execVst (o : LsOps) (s : State) : Host.Outcome State Fault Refusal :=
  issueOne 4 (vstSem o) s
/-- VLDG: Loads a tile from virtual addresses. -/
def execVldg (o : LsOps) (s : State) : Host.Outcome State Fault Refusal :=
  issueOne 4 (vldgSem o) s
/-- VSTG: Stores a tile to virtual addresses. -/
def execVstg (o : LsOps) (s : State) : Host.Outcome State Fault Refusal :=
  issueOne 4 (vstgSem o) s
/-- VLDX: Loads a tile with per-row offsets. -/
def execVldx (o : LsOps) (s : State) : Host.Outcome State Fault Refusal :=
  issueOne 4 (vldxSem o) s
/-- VSTX: Stores a tile with per-row offsets. -/
def execVstx (o : LsOps) (s : State) : Host.Outcome State Fault Refusal :=
  issueOne 4 (vstxSem o) s
/-- AMO_ADD_W: Atomic 4-byte add returning the old value. -/
def execAmoAddW (o : LsOps) (s : State) : Host.Outcome State Fault Refusal :=
  issueOne 4 (amoAddWSem o) s
/-- AMO_MIN_W: Atomic 4-byte signed minimum. -/
def execAmoMinW (o : LsOps) (s : State) : Host.Outcome State Fault Refusal :=
  issueOne 4 (amoMinWSem o) s
/-- AMO_MAX_W: Atomic 4-byte signed maximum. -/
def execAmoMaxW (o : LsOps) (s : State) : Host.Outcome State Fault Refusal :=
  issueOne 4 (amoMaxWSem o) s
/-- AMO_MINC_W: Atomic 4-byte unsigned minimum. -/
def execAmoMincW (o : LsOps) (s : State) : Host.Outcome State Fault Refusal :=
  issueOne 4 (amoMincWSem o) s
/-- AMO_MAXC_W: Atomic 4-byte unsigned maximum. -/
def execAmoMaxcW (o : LsOps) (s : State) : Host.Outcome State Fault Refusal :=
  issueOne 4 (amoMaxcWSem o) s
/-- AMO_AND_W: Atomic 4-byte and. -/
def execAmoAndW (o : LsOps) (s : State) : Host.Outcome State Fault Refusal :=
  issueOne 4 (amoAndWSem o) s
/-- AMO_OR_W: Atomic 4-byte or. -/
def execAmoOrW (o : LsOps) (s : State) : Host.Outcome State Fault Refusal :=
  issueOne 4 (amoOrWSem o) s
/-- AMO_XOR_W: Atomic 4-byte exclusive-or. -/
def execAmoXorW (o : LsOps) (s : State) : Host.Outcome State Fault Refusal :=
  issueOne 4 (amoXorWSem o) s
/-- AMO_XCHG_W: Atomic 4-byte exchange. -/
def execAmoXchgW (o : LsOps) (s : State) : Host.Outcome State Fault Refusal :=
  issueOne 4 (amoXchgWSem o) s
/-- AMO_CAS_W: Atomic 4-byte compare-and-swap. -/
def execAmoCasW (o : LsOps) (s : State) : Host.Outcome State Fault Refusal :=
  issueOne 4 (amoCasWSem o) s
/-- AMO_FADD_W: Atomic f32 add on one lane. -/
def execAmoFaddW (o : LsOps) (s : State) : Host.Outcome State Fault Refusal :=
  issueOne 4 (amoFaddWSem o) s
/-- AMO_INCW_W: Atomic 4-byte wrapping increment. -/
def execAmoIncwW (o : LsOps) (s : State) : Host.Outcome State Fault Refusal :=
  issueOne 4 (amoIncwWSem o) s
/-- AMO_ADD_D: Atomic 8-byte add. -/
def execAmoAddD (o : LsOps) (s : State) : Host.Outcome State Fault Refusal :=
  issueOne 4 (amoAddDSem o) s
/-- AMO_MIN_D: Atomic 8-byte signed minimum. -/
def execAmoMinD (o : LsOps) (s : State) : Host.Outcome State Fault Refusal :=
  issueOne 4 (amoMinDSem o) s
/-- AMO_MAX_D: Atomic 8-byte signed maximum. -/
def execAmoMaxD (o : LsOps) (s : State) : Host.Outcome State Fault Refusal :=
  issueOne 4 (amoMaxDSem o) s
/-- AMO_MINC_D: Atomic 8-byte unsigned minimum. -/
def execAmoMincD (o : LsOps) (s : State) : Host.Outcome State Fault Refusal :=
  issueOne 4 (amoMincDSem o) s
/-- AMO_MAXC_D: Atomic 8-byte unsigned maximum. -/
def execAmoMaxcD (o : LsOps) (s : State) : Host.Outcome State Fault Refusal :=
  issueOne 4 (amoMaxcDSem o) s
/-- AMO_AND_D: Atomic 8-byte and. -/
def execAmoAndD (o : LsOps) (s : State) : Host.Outcome State Fault Refusal :=
  issueOne 4 (amoAndDSem o) s
/-- AMO_OR_D: Atomic 8-byte or. -/
def execAmoOrD (o : LsOps) (s : State) : Host.Outcome State Fault Refusal :=
  issueOne 4 (amoOrDSem o) s
/-- AMO_XOR_D: Atomic 8-byte exclusive-or. -/
def execAmoXorD (o : LsOps) (s : State) : Host.Outcome State Fault Refusal :=
  issueOne 4 (amoXorDSem o) s
/-- AMO_XCHG_D: Atomic 8-byte exchange. -/
def execAmoXchgD (o : LsOps) (s : State) : Host.Outcome State Fault Refusal :=
  issueOne 4 (amoXchgDSem o) s
/-- AMO_CAS_D: Atomic 8-byte compare-and-swap. -/
def execAmoCasD (o : LsOps) (s : State) : Host.Outcome State Fault Refusal :=
  issueOne 4 (amoCasDSem o) s
/-- AMO_FADD_D: Atomic f32 add on two lanes. -/
def execAmoFaddD (o : LsOps) (s : State) : Host.Outcome State Fault Refusal :=
  issueOne 4 (amoFaddDSem o) s
/-- AMO_INCW_D: Atomic 8-byte wrapping increment. -/
def execAmoIncwD (o : LsOps) (s : State) : Host.Outcome State Fault Refusal :=
  issueOne 4 (amoIncwDSem o) s
/-- AMO_CAS_Q: Atomic 16-byte compare-and-swap. -/
def execAmoCasQ (o : LsOps) (s : State) : Host.Outcome State Fault Refusal :=
  issueOne 4 (amoCasQSem o) s
/-- RED_ADD: Signed atomic add with no result. -/
def execRedAdd (o : LsOps) (s : State) : Host.Outcome State Fault Refusal :=
  issueOne 4 (redAddSem o) s
/-- RED_MIN: Signed atomic minimum with no result. -/
def execRedMin (o : LsOps) (s : State) : Host.Outcome State Fault Refusal :=
  issueOne 4 (redMinSem o) s
/-- RED_MAX: Signed atomic maximum with no result. -/
def execRedMax (o : LsOps) (s : State) : Host.Outcome State Fault Refusal :=
  issueOne 4 (redMaxSem o) s
/-- RED_AND: Atomic and with no result. -/
def execRedAnd (o : LsOps) (s : State) : Host.Outcome State Fault Refusal :=
  issueOne 4 (redAndSem o) s
/-- RED_OR: Atomic or with no result. -/
def execRedOr (o : LsOps) (s : State) : Host.Outcome State Fault Refusal :=
  issueOne 4 (redOrSem o) s
/-- RED_XOR: Atomic exclusive-or with no result. -/
def execRedXor (o : LsOps) (s : State) : Host.Outcome State Fault Refusal :=
  issueOne 4 (redXorSem o) s
/-- RED_FADD: Atomic f32 lane add with no result. -/
def execRedFadd (o : LsOps) (s : State) : Host.Outcome State Fault Refusal :=
  issueOne 4 (redFaddSem o) s
/-- RED_FADDH: Atomic f16 lane add with no result. -/
def execRedFaddh (o : LsOps) (s : State) : Host.Outcome State Fault Refusal :=
  issueOne 4 (redFaddhSem o) s

end Sys2Proof.Machine
end

