-- ==== Sys2Proof/Machine/Millstone.lean ====
section
/-! DEFINITION. The matrix slot (R165 to R190): what each instruction checks at issue, the two stages of the matrix engine, the
correction cache, the banks and the z tiles. -/

namespace Sys2Proof.Machine

/-! ## Edges (R166) -/

/-- One edge of a feed descriptor as an instruction uses it; `base` is the effective base. -/
structure Edge where
  fmt : Nat
  base : Nat
  pitch : Nat
  lanes : Nat
  k : Nat
  scaled : Bool
  scl : Nat
  trans : Bool
  deriving DecidableEq, Repr

/-- Words of descriptor `n`. -/
def Ctx.desc (x : Ctx) (n : Nat) : List Nat := (List.range 4).map (fun w => rd x.regs.md (4 * n + w))

/-- Whether edge A (or B) adds its offset register, and which. -/
def offEnabled (d : List Nat) (b : Bool) : Bool := bitAt (d.getD 3 0) (if b then 57 else 56)
def offReg (d : List Nat) (b : Bool) : Nat := fld (d.getD 3 0) (if b then 52 else 48) 4

/-- R166: the effective base, modulo 2^24. -/
def effBase (x : Ctx) (d : List Nat) (b : Bool) : Nat :=
  (fld (d.getD (if b then 1 else 0) 0) 0 24 + (if offEnabled d b then x.o (offReg d b) % 2 ^ 24 else 0)) % 2 ^ 24

/-- Edge A (or B) of a descriptor, its base and the value of mfmt being given. -/
def edgeOf (d : List Nat) (b : Bool) (base mfmt k : Nat) (trans : Bool) : Edge :=
  let w := d.getD (if b then 1 else 0) 0
  ⟨fld mfmt (if b then 4 else 0) 4, base, fld w 24 16, fld w 40 7 + 1, k, bitAt w 47, fld (d.getD 2 0) (if b then 24 else 0) 24, trans⟩

/-- The kind of an edge. -/
def Edge.fam (e : Edge) : Option Fam := famOf e.fmt e.scaled

/-- Bytes of an edge's extent. -/
def Edge.extLen (e : Edge) : Nat :=
  let w := fmtWidth e.fmt
  if e.trans then (8 * (e.lanes - 1) * e.pitch + e.k * w + 7) / 8 else (8 * (e.k - 1) * e.pitch + e.lanes * w + 7) / 8

/-- Extent and scale range of an edge. -/
def Edge.extent (e : Edge) : Nat × Nat := (e.base, e.extLen)
def Edge.scaleRange (e : Edge) : List (Nat × Nat) := if e.scaled then [(e.scl, 16 * e.lanes)] else []

/-- The code of value `kk` of lane `l`, as scratchpad of core `k` holds it. -/
def State.edgeCode (s : State) (k : Nat) (e : Edge) (l kk : Nat) : Nat :=
  let w := fmtWidth e.fmt
  let bit := if e.trans then 8 * l * e.pitch + kk * w else 8 * kk * e.pitch + l * w
  s.readN .sp (k * 2 ^ 24 + e.base + bit / 8) 2 / 2 ^ (bit % 8) % 2 ^ w

/-- The block scale of value `kk` of lane `l` (R166); its address is taken modulo 2^24. -/
def State.edgeScale (s : State) (k : Nat) (e : Edge) (l kk : Nat) : Nat :=
  if e.scaled then s.readN .sp (k * 2 ^ 24 + (e.scl + 16 * l + 2 * (kk / 32)) % 2 ^ 24) 2 else 255

/-- The gather index vector at `a` (R168). -/
def State.gatherIdx (s : State) (k a n : Nat) : List Nat := (List.range n).map (fun i => s.readN .sp (k * 2 ^ 24 + (a + 2 * i) % 2 ^ 24) 2)

/-- The lanes of an edge as fed: `idx` the gather, none for an edge that is not gathered. -/
def State.feed (s : State) (k : Nat) (e : Edge) (fam : Fam) (idx : Option (List Nat)) : List Lane :=
  (List.range e.lanes).map (fun l =>
    feedLane e.fmt fam ((List.range e.k).map (fun i =>
      match idx with
      | none => some (s.edgeCode k e l i, s.edgeScale k e l i)
      | some g =>
        let kk := g.getD i 0xFFFF
        if kk = 0xFFFF then none else some (s.edgeCode k e l kk, s.edgeScale k e l kk))))

/-- The bytes of the slices a gather names (R168). -/
def Edge.slices (e : Edge) (idx : List Nat) : List (Nat × Nat) :=
  let w := fmtWidth e.fmt
  (idx.filter (fun i => i != 0xFFFF)).flatMap (fun i =>
    if e.trans then (List.range e.lanes).map (fun l => (e.base + l * e.pitch + i * w / 8, (w + 7) / 8))
    else [(e.base + i * e.pitch, (e.lanes * w + 7) / 8)])

/-! ## The checks at issue (R160, R167, R179, R181) -/

/-- Edges an instruction reads: A, B. -/
def mxUses (op zb : Nat) : Bool × Bool :=
  match op with
  | 1 => (true, true)
  | 2 => (true, true)
  | 3 => (false, true)
  | 4 => (true, false)
  | 7 => (zb == 0, zb == 1)
  | 8 => (zb == 0, zb == 1)
  | 9 => (zb == 0, zb == 1)
  | _ => (false, false)

/-- Table 8.6: whether every field has a value the opcode's row lists. -/
def mxFieldsOk (op : Nat) (o : MxOps) : Bool :=
  let edge := (!o.ta || o.zb == 0) && (!o.tb || o.zb == 1)
  let plain := !o.acc && !o.inc && !o.gth && o.cmode == 0
  match op with
  | 1 => decide (o.zb < 2) && !o.acc && !o.gth
  | 2 => decide (o.zb < 2) && !o.acc && o.gth
  | 3 => o.zb == 0 && !o.ta && !o.acc && !o.gth
  | 4 => decide (o.zb < 2) && !o.tb && !o.acc && !o.gth && o.kk == 0
  | 5 => decide (o.md < 2) && !o.ta && !o.tb && !o.inc && !o.gth && o.cmode == 0 && o.kk == 0
  | 6 => o.md == 0 && !o.ta && !o.tb && plain && o.kk == 0
  | 7 => decide (o.zb < 2) && edge && !o.acc && !o.gth && o.cmode != 1
  | 8 => decide (o.zb < 2) && edge && plain
  | 9 => if o.zb = 2 then o.md == 0 && o.kk == 0 && !o.ta && !o.tb && plain else decide (o.zb < 2) && edge && plain
  | _ => decide (o.zb < 2) && !o.ta && !o.tb && plain && o.kk == 0

/-- Whether the instruction reads its descriptor. -/
def mxReadsDesc (op : Nat) (o : MxOps) : Bool := op != 5 && op != 6 && !(op == 9 && o.zb == 2)

/-- K of a `mstep.ws` at its issue: of the latest `mpre` still to complete, else of the stationary operand. -/
def State.stationaryK (s : State) (k : Nat) : Nat :=
  match ((s.eng k).mxq.filter (fun r => r.op == 3)).getLast? with
  | some r => r.o.kk + 1
  | none => ((s.eng k).stat.map (·.k)).getD 1

/-- Edges of an instruction of the current context as it would issue: A and B where it reads them. -/
def State.mxEdges (s : State) (op : Nat) (o : MxOps) : Option Edge × Option Edge :=
  let x := s.me
  let d := x.desc o.md
  let k := if op = 4 then s.stationaryK (coreOf s.cur) else o.kk + 1
  let use := mxUses op o.zb
  (if use.1 then some (edgeOf d false (effBase x d false) x.fmts.mfmt k o.ta) else none,
   if use.2 then some (edgeOf d true (effBase x d true) x.fmts.mfmt k o.tb) else none)

/-- The offset registers it increments (R169): those of both edges, of A's alone for `mstep.ws` (Table 8.7). -/
def State.mxIncs (s : State) (op : Nat) (o : MxOps) : List (Nat × Nat) :=
  let d := s.me.desc o.md
  if o.inc then
    (if offEnabled d false then [(offReg d false, fld (d.getD 0 0) 48 16)] else []) ++
    (if op != 4 && offEnabled d true then [(offReg d true, fld (d.getD 1 0) 48 16)] else [])
  else []

/-- Records an instruction reads or writes: 0, 1 or 2 (R166, Table 8.7). -/
def mxRecords (op cmode : Nat) (es : List Edge) : Nat :=
  if op = 8 then 1
  else if cmode = 2 ∧ op ≠ 9 then (es.filter (fun e => e.fmt != 0xC)).length
  else 0

/-- R160, R181: what an edge alone must satisfy for opcode `op`. -/
def edgeIllegal (op : Nat) (e : Edge) : Bool :=
  e.base % 16 != 0 || e.pitch % 16 != 0 || (e.pitch == 0 && !e.trans && decide (1 < e.lanes ∧ 1 < e.k)) ||
    (op != 9 && (e.fam.isNone || (e.scaled && decide (32 < e.k) && e.k % 32 != 0))) ||
    ((op == 3 || op == 7 || op == 8) && e.k % ((e.fam.map Fam.pack).getD 1) != 0)

/-- Whether a pair of edges fits no row of Table 8.1, or K is no multiple of the row's n. -/
def pairIllegal (a b : Edge) : Bool :=
  match a.fam, b.fam with
  | some x, some y => (match modeN x y with | some n => a.k % n != 0 | none => true)
  | _, _ => false

/-- `trap(scratchpad way)` for a range that leaves the ways of the context, or the scratchpad. -/
def rangeCands (ways : Nat) (g : Nat × Nat) : List Cand :=
  (List.range 16).flatMap (fun w => candIf (!bitAt ways w && overlap g.1 g.2 (w * 2 ^ 20) (2 ^ 20)) (wayTrap (max g.1 (w * 2 ^ 20)))) ++
    candIf (decide (2 ^ 24 < g.1 + g.2)) (wayTrap (2 ^ 24))

/-- Bank group of an address (R167); what passes the end of the scratchpad is in none beyond G1. -/
def groupOf (a : Nat) : Nat := if a < 0x800000 then 0 else 1
/-- Whether an extent spans both groups. -/
def spansGroups (g : Nat × Nat) : Bool := groupOf g.1 != groupOf (g.1 + g.2 - 1)

/-- Every trap condition of a matrix slot. -/
def mxCands (s : State) (op : Nat) (o : MxOps) : List Cand :=
  let x := s.me
  let d := x.desc o.md
  let es := s.mxEdges op o
  let el := es.1.toList ++ es.2.toList
  let rec_ := fld (d.getD 3 0) 24 24
  let gidx := fld (d.getD 3 0) 0 24
  let recs := mxRecords op o.cmode el
  let ext := (if op = 2 then [] else (es.1.map Edge.extent).toList) ++ (es.2.map Edge.extent).toList
  let scl := [fld (d.getD 2 0) 0 24, fld (d.getD 2 0) 24 24]
  let ranges := ext ++ el.flatMap Edge.scaleRange ++ (if op = 2 ∨ (op = 9 ∧ o.zb = 0) then [(gidx, 2 * (o.kk + 1))] else []) ++
    (if recs = 0 then [] else [(rec_, 1024 * recs)]) ++ (if op = 10 then scl.map (fun a => (a, 512)) else [])
  let illegal := !mxFieldsOk op o ||
    (mxReadsDesc op o &&
      (fld (d.getD 2 0) 48 16 != 0 || fld (d.getD 3 0) 58 6 != 0 || el.any (edgeIllegal op) ||
        (match es with | (some a, some b) => pairIllegal a b | _ => false) ||
        ((op == 8 || (o.cmode == 2 && op != 9)) && rec_ % 128 != 0) || (op == 10 && scl.any (fun a => a % 4 != 0)) ||
        (o.inc && offEnabled d false && offEnabled d true && offReg d false == offReg d true)))
  let sameGroup := op == 1 && (match es with | (some a, some b) => groupOf a.base == groupOf b.base | _ => false)
  candIf illegal illegalCombination ++
    (if mxReadsDesc op o then
      candIf (ext.any spansGroups || sameGroup) ⟨0x06, .val o.md⟩ ++ ranges.flatMap (rangeCands x.win.ways)
     else [])

/-! ## Issue (R184, R82, R169, R222) -/

/-- Scratchpad that an instruction on core `k` with descriptor `d` and edges `es` reads. A gather's slices are those of the index vector as
it stands. -/
def State.mxReads (s : State) (k op : Nat) (o : MxOps) (d : List Nat) (es : Option Edge × Option Edge) : List (Nat × Nat) :=
  let el := es.1.toList ++ es.2.toList
  let gidx := fld (d.getD 3 0) 0 24
  if op = 8 then [(fld (d.getD 3 0) 24 24, 1024)]
  else if op = 10 then [(fld (d.getD 2 0) 0 24, 512), (fld (d.getD 2 0) 24 24, 512)]
  else if op = 9 ∨ op = 5 ∨ op = 6 then []
  else
    (if op = 2 then (gidx, 2 * (o.kk + 1)) :: (es.1.map (fun e => e.slices (s.gatherIdx k gidx (o.kk + 1)))).getD []
     else (es.1.map Edge.extent).toList) ++
    (es.2.map Edge.extent).toList ++ el.flatMap Edge.scaleRange

/-- Those of an instruction of the current context, for R175. -/
def mxReadRanges (s : State) (op : Nat) (o : MxOps) : List (Nat × Nat) := s.mxReads (coreOf s.cur) op o (s.me.desc o.md) (s.mxEdges op o)

/-- The instruction as the queue of R85 holds it. -/
def mxRun (s : State) (op : Nat) (o : MxOps) : MxRun :=
  let x := s.me
  let d := x.desc o.md
  let i := s.issued o.stg
  let ranges := mxReadRanges s op o
  ⟨i, op, o, d, effBase x d false, effBase x d true, x.fmts.mfmt, none, none, none, ranges,
    s.meetsFresh (coreOf s.cur) i [o.tin0, o.tin1, o.tin2] ranges, false, false, []⟩

/-- What issuing does: the token out is cleared, a z tile becomes due, the offsets move on, the instruction is queued. -/
def mxIssue (s : State) (op : Nat) (o : MxOps) (e : State) : State :=
  let r := mxRun s op o
  let incs := s.mxIncs op o
  let e1 := e.modCtx s.cur (fun x =>
    let y := x.setTok o.tout false false
    let due := if op = 5 ∨ op = 6 then put y.ports.zdue o.zb (x.seq.cyc + 136 + 4 * o.land) else y.ports.zdue
    { y with ports := { y.ports with zdue := due },
             regs := { y.regs with o := incs.foldl (fun f p => wr f p.1 (rd f p.1 + sext64 16 p.2)) y.regs.o } })
  let e2 := e1.chainFresh r.iss.job r.iss.place o.tout r.tins
  { e2.modEng (coreOf s.cur) (fun g => { g with mxq := g.mxq ++ [{ r with iss := { r.iss with seq := e1.seqno } }] }) with
    seqno := e1.seqno + 1 }

/-- A matrix slot of opcode `op`. -/
def mxSem (op : Nat) (o : MxOps) (s : State) : Sem :=
  { phase := 35
    cands := mxCands s op o
    oinc := (s.mxIncs op o).map (·.1)
    tout := some o.tout
    tins := [o.tin0, o.tin1, o.tin2].filter (fun t => t != 63)
    queue := some true
    act := mxIssue s op o }

def mstepSem (o : MxOps) (s _l : State) : Sem := mxSem 1 o s
def mstepGSem (o : MxOps) (s _l : State) : Sem := mxSem 2 o s
def mpreSem (o : MxOps) (s _l : State) : Sem := mxSem 3 o s
def mstepWsSem (o : MxOps) (s _l : State) : Sem := mxSem 4 o s
def mfinSem (o : MxOps) (s _l : State) : Sem := mxSem 5 o s
def mzeroSem (o : MxOps) (s _l : State) : Sem := mxSem 6 o s
def mcorrSem (o : MxOps) (s _l : State) : Sem := mxSem 7 o s
def mcldSem (o : MxOps) (s _l : State) : Sem := mxSem 8 o s
def mcinvSem (o : MxOps) (s _l : State) : Sem := mxSem 9 o s
def msclSem (o : MxOps) (s _l : State) : Sem := mxSem 10 o s

/-! ## The correction cache (R173 to R176) -/

/-- Whether an entry's tag is that of another. -/
def Corr.sameTag (a b : Corr) : Bool :=
  a.base == b.base && a.pitch == b.pitch && a.lanes == b.lanes && a.k == b.k && a.fmt == b.fmt && a.scl == b.scl &&
    a.trans == b.trans && a.gidx == b.gidx

/-- The entry an edge would have; `gidx` names the gather and its slices for the A edge of `mstep.g`. -/
def Edge.corr (e : Edge) (gidx : Option (Nat × List Nat)) (i : Issued) (vec : List Nat) : Corr :=
  let ext := match gidx with
    | none => [e.extent]
    | some g => (g.1, 2 * e.k) :: e.slices g.2
  ⟨e.base, e.pitch, e.lanes, e.k, e.fmt, if e.scaled then some e.scl else none, e.trans, gidx.map (·.1),
    ext ++ e.scaleRange, i.job, i.place, vec⟩

/-- Installs an entry as the most recently used; a full cache loses its least recently used. -/
def installCorr (s : State) (k : Nat) (c : Corr) : State :=
  s.modEng k (fun e => { e with corr := (c :: e.corr.filter (fun x => !x.sameTag c)).take 64 })

/-- A lookup: the vector of a hit, which becomes the most recently used; counted for the context. -/
def lookCorr (s : State) (k : Nat) (i : Issued) (t : Corr) : State × Option (List Nat) :=
  match (s.eng k).corr.find? (fun x => x.sameTag t) with
  | some c =>
    ((s.modEng k (fun e => { e with corr := c :: e.corr.filter (fun x => !x.sameTag t) })).modOwner i
      (fun x => { x with win := { x.win with hit := count20 x.win.hit 1 } }), some c.vec)
  | none => (s.modOwner i (fun x => { x with win := { x.win with miss := count20 x.win.miss 1 } }), none)

/-- Writes a correction record at offset `a` (R172): every other entry it meets is invalidated, and the tokens of its instruction alone order
it with later steps (R187). -/
def writeRecord (s : State) (k : Nat) (i : Issued) (tout a : Nat) (own : Option Corr) (vec : List Nat) : State :=
  let s1 := (s.passLoose .sp (k * 2 ^ 24 + a) 1024).modMem (fun m =>
    m.write .sp (k * 2 ^ 24 + a) 1024 (packVals 64 ((List.range 128).map (fun l => vec.getD l 0))))
  let s2 := dropCorr s1 k (fun e => e.ranges.any (fun r => overlap a 1024 r.1 r.2) && !(own.any (fun c => c.sameTag e)))
  (raceMx s2 k a 1024 (s.unordered i tout)).recordFresh k i tout a 1024

/-- The record at offset `a`. -/
def State.readRecord (s : State) (k a : Nat) : List Nat := (List.range 128).map (fun l => s.readN .sp (k * 2 ^ 24 + a + 8 * l) 8)

/-! ## The stages (R186) -/

/-- Whether an opcode runs in the drain stage. -/
def drainOp (op : Nat) : Bool := op == 5 || op == 6 || op == 10

/-- Whether an opcode is a step into a bank. -/
def stepOp (op : Nat) : Bool := op == 1 || op == 2 || op == 4

/-- The bank a step, `mfin` or `mscl` uses. -/
def MxRun.bank (r : MxRun) : Nat := if r.op = 5 then r.o.md % 2 else r.o.zb % 2

/-- Whether instruction `p`, issued earlier, holds back `r` (R186). -/
def hazard (p r : MxRun) : Bool :=
  (stepOp r.op && p.op == 5 && p.bank == r.bank) ||
    ((r.op == 5 || r.op == 10) && (stepOp p.op || p.op == 5) && p.bank == r.bank) ||
    (r.op == 4 && p.op == 3) ||
    ((r.op == 5 || r.op == 6) && (p.op == 5 || p.op == 6) && p.o.zb == r.o.zb)

/-- Whether feed instruction `r` completes after `p`, which was issued before it and runs: where both write one bank, where it replaces the
stationary operand that `p` uses, and where both write records (R191). -/
def follows (p r : MxRun) : Bool :=
  !drainOp r.op && !drainOp p.op && ((stepOp p.op && stepOp r.op && p.bank == r.bank) || (p.op == 4 && r.op == 3) ||
    (p.o.cmode == 2 && r.o.cmode == 2))

/-- Whether instruction `n` of core `k` may start. -/
def mxReady (s : State) (k n : Nat) : Bool :=
  let q := (s.eng k).mxq
  match q.find? (fun r => r.iss.seq == n) with
  | none => false
  | some r =>
    let earlier := q.filter (fun p => decide (p.iss.seq < n))
    r.iss.stage == .queued && !q.any (fun p => p.iss.stage == .running && !p.fed && drainOp p.op == drainOp r.op) &&
      !earlier.any (fun p => p.iss.stage == .queued && drainOp p.op == drainOp r.op) && !earlier.any (fun p => hazard p r) &&
      (s.ownerCtx r.iss).tinsSet r.tins

/-- Replaces instruction `n` of core `k`. -/
def modMx (s : State) (k n : Nat) (f : MxRun → MxRun) : State :=
  s.modEng k (fun e => { e with mxq := e.mxq.map (fun r => if r.iss.seq = n then f r else r) })

/-- The A and B edges of a queued instruction; K of a `mstep.ws` is that of the stationary operand. -/
def MxRun.edgeA (r : MxRun) (k : Nat) : Edge := edgeOf r.desc false r.abase r.mfmt k r.o.ta
def MxRun.edgeB (r : MxRun) : Edge := edgeOf r.desc true r.bbase r.mfmt (r.o.kk + 1) r.o.tb

/-- Offset of the gather index vector and of the record. -/
def MxRun.gidx (r : MxRun) : Nat := fld (r.desc.getD 3 0) 0 24
def MxRun.recAddr (r : MxRun) : Nat := fld (r.desc.getD 3 0) 24 24

/-- The gather of a `mstep.g`: its address and the index vector. -/
def MxRun.gather (r : MxRun) (s : State) (k : Nat) : Option (Nat × List Nat) :=
  if r.op = 2 then some (r.gidx, s.gatherIdx k r.gidx (r.o.kk + 1)) else none

/-- Kinds of the edges of a step: of its descriptor, or of the stationary operand. -/
def MxRun.fams (r : MxRun) (st : Option Stationary) : Option Fam × Option Fam :=
  ((r.edgeA 1).fam, if r.op = 4 then st.bind (fun t => famOf t.fmt t.scaled) else r.edgeB.fam)

/-- Whether a step is a twin-shift step. -/
def twinStep (f : Option Fam × Option Fam) : Bool := f.1 == some .ts8 || f.2 == some .ts8

/-- R168: whether a slice of a gather lies outside the owned ways, in B's group, or beyond the scratchpad. -/
def sliceBad (ways group : Nat) (g : Nat × Nat) : Bool :=
  decide (2 ^ 24 < g.1 + g.2) || (rangeCands ways g).length != 0 || groupOf g.1 == group || groupOf (g.1 + g.2 - 1) == group

/-- The faults a `mstep.ws` meets before it looks anything up (Table 8.8). -/
def wsFault (r : MxRun) (st : Option Stationary) : Option Nat :=
  match st with
  | none => some 0x42
  | some t =>
    if t.ctx ≠ r.iss.ctx then some 0x42
    else if t.fmt ≠ fld r.mfmt 4 4 then some 0x43
    else
      match (r.fams st).1, (r.fams st).2 with
      | some a, some b => (match modeN a b with | some n => if t.k % n = 0 then none else some 0x43 | none => some 0x43)
      | _, _ => some 0x43

/-- The start of a feed instruction: the lookups of R173 and the faults they and the gather bring. -/
def startFeed (s : State) (k : Nat) (r : MxRun) : State :=
  let st := (s.eng k).stat
  match if r.op = 4 then wsFault r st else none with
  | some c => modMx s k r.iss.seq (fun r => { r with fault := some c })
  | none =>
    let g := r.gather s k
    let ka := if r.op = 4 then (st.map (·.k)).getD 1 else r.o.kk + 1
    let twin := stepOp r.op && twinStep (r.fams st)
    let lookA := stepOp r.op && !twin && r.o.cmode != 2
    let lookB := ((r.op == 1 || r.op == 2) && !twin && r.o.cmode != 2) || (r.op == 3 && r.edgeB.fmt != 0xC && r.o.cmode != 2)
    let a := if lookA then lookCorr s k r.iss ((r.edgeA ka).corr g r.iss []) else (s, none)
    let b := if lookB then lookCorr a.1 k r.iss (r.edgeB.corr none r.iss []) else (a.1, none)
    let missing := r.o.cmode == 1 && ((lookA && a.2.isNone) || (lookB && b.2.isNone))
    let slices := (g.map (fun p => (r.edgeA ka).slices p.2)).getD []
    let fault := if missing then some 0x40
      else if slices.any (sliceBad (s.ownerCtx r.iss).win.ways (groupOf r.bbase)) then some 0x41 else none
    modMx b.1 k r.iss.seq (fun r => { r with hitA := a.2, hitB := b.2, fault := fault, ranges := r.ranges ++ slices })

/-- Bank `b`. -/
def Engines.bank (e : Engines) (b : Nat) : Bank := if b = 0 then e.bank0 else e.bank1

/-- The rows that an `mfin` delivers (R182), each value with its flags. A raced bank delivers free values (R175). -/
def finRows (s : State) (k : Nat) (r : MxRun) : List (List (Nat × Nat)) :=
  let b := (s.eng k).bank r.bank
  (List.range 128).map (fun i =>
    if b.raced then (List.range 128).map (fun j => (s.free (10000 + 128 * i + j) % 2 ^ 32, s.free 9999 % 32))
    else finRow b (rndOf (fld r.mfmt 9 2)) r.o.acc i (s.zRow k r.o.zb i).toNat ((b.sums.drop (128 * i)).take 128))

/-- The rows of its tile that a running `mfin` or `mzero` writes, as other contexts may already read them (R188). -/
def outRows (s : State) (k : Nat) (r : MxRun) : List (BitVec 4096) :=
  if r.op = 6 then List.replicate 128 0
  else if r.op = 5 ∧ !((s.eng k).bank r.bank).faulted then (finRows s k r).map (fun row => packRow (row.map (·.1)))
  else []

/-- R289: the instructions of its context that are queued behind an instruction which performs no effect. -/
def shadeMx (s : State) (k : Nat) (r : MxRun) : State :=
  s.modEng k (fun e => { e with mxq := e.mxq.map (fun p =>
    if p.iss.job = r.iss.job ∧ p.iss.place = r.iss.place ∧ r.iss.seq < p.iss.seq ∧ p.iss.stage = .queued then { p with after := true } else p) })

/-- R186: instruction `n` of core `k` starts; nothing when it may not. It performs no effect where a token-in carries its error bit (R223), and,
by a free value, where it was queued behind one that performed none, as a row of R289 has it (DESIGN CHOICE, notes/assumptions/61.md). -/
def startMx (s : State) (k n : Nat) : State :=
  if mxReady s k n then
    match (s.eng k).mxq.find? (fun r => r.iss.seq == n) with
    | none => s
    | some r =>
      let bad := (s.ownerCtx r.iss).tinsErr r.tins || (r.after && bitAt (s.free (2 ^ 45 + n)) 0)
      let out := if bad then [] else outRows s k r
      let s0 := if bad then shadeMx s k r else s
      let s1 := modMx s0 k n (fun r => { r with iss := { r.iss with stage := .running, poisoned := bad }, out := out })
      if bad ∨ drainOp r.op ∨ r.op = 7 ∨ r.op = 8 ∨ r.op = 9 then s1 else startFeed s1 k r
  else s

/-! ## Completion (R180, R185) -/

/-- Changes a bank. -/
def modBank (s : State) (k b : Nat) (f : Bank → Bank) : State :=
  s.modEng k (fun e => if b = 0 then { e with bank0 := f e.bank0 } else { e with bank1 := f e.bank1 })

/-- The corrections an edge ends with: those it hit, else computed and installed; free values where a write raced (R175). -/
def useCorr (s : State) (k : Nat) (r : MxRun) (e : Edge) (g : Option (Nat × List Nat)) (hit : Option (List Nat)) (lanes : List Lane) (d : Nat) :
    State × List Nat × Corr :=
  match hit with
  | some v => (s, v, e.corr g r.iss v)
  | none =>
    let v := if r.raced then (List.range 128).map (fun l => s.free (d + l) % 2 ^ 64) else corrections lanes (fun l => s.free (d + l))
    let c := e.corr g r.iss v
    (installCorr s k c, v, c)

/-- The edge `mcorr`, `mcld` and `mcinv` name. -/
def MxRun.edge (r : MxRun) : Edge := if r.o.zb = 0 then r.edgeA (r.o.kk + 1) else r.edgeB

/-- K of the A edge of a running instruction: that of the stationary operand for `mstep.ws`. -/
def State.runK (s : State) (k : Nat) (r : MxRun) : Nat := if r.op = 4 then ((s.eng k).stat.map (·.k)).getD 1 else r.o.kk + 1

/-- Scratchpad that a running instruction reads. -/
def State.runReads (s : State) (k : Nat) (r : MxRun) : List (Nat × Nat) :=
  let use := mxUses r.op r.o.zb
  s.mxReads k r.op r.o r.desc (if use.1 then some (r.edgeA (s.runK k r)) else none, if use.2 then some r.edgeB else none)

/-- Whether a step needs corrections of its A and of its B edge: those of the families `fa` and `fb` (Table 8.6). -/
def MxRun.needs (r : MxRun) (fa fb : Fam) : Bool × Bool :=
  let twin := fa == .ts8 || fb == .ts8
  (if twin then r.o.cmode == 2 && fa != .ts8 else true, r.op != 4 && (if twin then r.o.cmode == 2 && fb != .ts8 else true))

/-- What a step has fed by its last edge: the corrections it computes are installed. -/
def feedStep (s : State) (k : Nat) (r : MxRun) : State × MxRun :=
  match (r.fams (s.eng k).stat).1, (r.fams (s.eng k).stat).2 with
  | some fa, some fb =>
    let g := r.gather s k
    let ea := r.edgeA (s.runK k r)
    let need := r.needs fa fb
    let ua := useCorr s k r ea g r.hitA (s.feed k ea fa (g.map (·.2))) 8000
    let u := if need.1 then (ua.1, some ua.2.1) else (s, r.hitA)
    let ub := useCorr u.1 k r r.edgeB none r.hitB (s.feed k r.edgeB fb none) 8200
    if need.2 then (ub.1, { r with hitA := u.2, hitB := some ub.2.1 }) else (u.1, { r with hitA := u.2 })
  | _, _ => (s, r)

/-- The end of what the feed stage does for instruction `r`: its reads have been made, one of a piece with an uncorrectable error being its
fault (R374), and its change of the correction cache performs, before the next lookup (R173, R186). -/
def feedOut (s : State) (k : Nat) (r : MxRun) : State × MxRun :=
  if r.fed || r.iss.poisoned || r.fault.isSome then (s, r)
  else
    let reads := s.runReads k r
    if reads.any (fun g => s.badIn .sp (k * 2 ^ 24 + g.1) g.2 != []) then
      (reads.foldl (fun t g => t.meetBad .sp (k * 2 ^ 24 + g.1) g.2) s, { r with fault := some 0x5C })
    else
      match r.op with
      | 3 =>
        (match r.edgeB.fam with
         | some f =>
           if f = .ts8 then (s, r)
           else (let u := useCorr s k r r.edgeB none r.hitB (s.feed k r.edgeB f none) 8000; (u.1, { r with hitB := some u.2.1 }))
         | none => (s, r))
      | 7 =>
        (match r.edge.fam with
         | some f =>
           if f = .ts8 then (s, r)
           else (let u := useCorr s k r r.edge none none (s.feed k r.edge f none) 8000; (u.1, { r with hitA := some u.2.1 }))
         | none => (s, r))
      | 8 =>
        let v := if r.raced then (List.range 128).map (fun l => s.free (8000 + l) % 2 ^ 64) else s.readRecord k r.recAddr
        (installCorr s k (r.edge.corr none r.iss v), r)
      | 9 =>
        if r.o.zb = 2 then (dropCorr s k (fun _ => true), r)
        else
          let gs := r.edge.extent :: r.edge.scaleRange ++ (if r.o.zb = 0 then [(r.gidx, 2 * r.edge.k)] else [])
          (dropCorr s k (fun c => c.ranges.any (fun x => gs.any (fun y => overlap x.1 x.2 y.1 y.2))), r)
      | _ => if stepOp r.op then feedStep s k r else (s, r)

/-- The feed occupancy of instruction `n` of core `k` ends: its stage is free before it completes (R186, R188). -/
def feedEnd (s : State) (k n : Nat) : State :=
  match (s.eng k).mxq.find? (fun r => r.iss.seq == n && r.iss.stage == .running && !drainOp r.op) with
  | some r => (let g := feedOut s k r; modMx g.1 k n (fun _ => { g.2 with fed := true }))
  | none => s

/-- A step's bank is written: `b` its B lanes, `bcorr` their corrections where the step has them already. -/
def fillBank (s : State) (k : Nat) (r : MxRun) (fa fb : Fam) (a b : List Lane) (vr vc : List Nat) (raced : Bool) : State :=
  let twin := fa == .ts8 || fb == .ts8
  let act := if fa = .ts8 then fb else fa
  modBank s k r.bank (fun bk =>
    { bk with sums := stepSums (fa == .ts8) (fb == .ts8) (fa == .fl16 && !bitAt r.mfmt 8) a b
              aexp := a.map (·.1)
              bexp := b.map (·.1)
              r := vr
              c := vc
              frac := if twin then act.frac + 7 else 2 * fa.frac + 1
              twin := twin
              faulted := false
              raced := raced })

/-- A step completes (R180). -/
def finishStep (s : State) (k : Nat) (r : MxRun) : State :=
  let st := (s.eng k).stat
  let g := r.gather s k
  let ea := r.edgeA (s.runK k r)
  match (r.fams st).1, (r.fams st).2 with
  | some fa, some fb =>
    let a := s.feed k ea fa (g.map (·.2))
    let b := if r.op = 4 then (st.map (·.lanes)).getD [] else s.feed k r.edgeB fb none
    let raced := r.raced || (r.op == 4 && st.any (·.raced))
    let needA := (r.needs fa fb).1
    let needB := (r.needs fa fb).2
    let ua := if needA then useCorr s k r ea g r.hitA a 8000 else (s, [], ea.corr g r.iss [])
    let ub := if needB then useCorr ua.1 k r r.edgeB none r.hitB b 8200
      else (ua.1, (if r.op = 4 then (st.map (·.corr)).getD [] else []), r.edgeB.corr none r.iss [])
    let s1 := fillBank ub.1 k r fa fb a b ua.2.1 ub.2.1 raced
    if r.o.cmode = 2 then
      let s2 := if needA then writeRecord s1 k r.iss r.o.tout r.recAddr (some ua.2.2) ua.2.1 else s1
      if needB then writeRecord s2 k r.iss r.o.tout (r.recAddr + (if needA then 1024 else 0)) (some ub.2.2) ub.2.1 else s2
    else s1
  | _, _ => s

/-- `mpre` completes (R170). -/
def finishPre (s : State) (k : Nat) (r : MxRun) : State :=
  let e := r.edgeB
  match e.fam with
  | none => s
  | some f =>
    let b := s.feed k e f none
    let u := if f = .ts8 then (s, [], e.corr none r.iss []) else useCorr s k r e none r.hitB b 8000
    let s1 := u.1.modEng k (fun g => { g with stat := some ⟨r.iss.ctx, e.k, e.fmt, e.scaled, b, u.2.1, r.raced⟩ })
    if r.o.cmode = 2 ∧ f ≠ .ts8 then writeRecord s1 k r.iss r.o.tout r.recAddr (some u.2.2) u.2.1 else s1

/-- `mcorr` completes: nothing for a ts8 edge (Table 8.7). -/
def finishCorr (s : State) (k : Nat) (r : MxRun) : State :=
  let e := r.edge
  match e.fam with
  | none => s
  | some f =>
    if f = .ts8 then s
    else
      let u := useCorr s k r e none r.hitA (s.feed k e f none) 8000
      if r.o.cmode = 2 then writeRecord u.1 k r.iss r.o.tout r.recAddr (some u.2.2) u.2.1 else u.1

/-- `mscl` completes: subnormal scales become zeros of their sign. -/
def finishScale (s : State) (k : Nat) (r : MxRun) : State :=
  let flush := fun c => if fld c 23 8 = 0 then c / 2 ^ 31 * 2 ^ 31 else c
  let vec := fun a d => (List.range 128).map (fun i =>
    flush (if r.raced then s.free (d + i) % 2 ^ 32 else s.readN .sp (k * 2 ^ 24 + a + 4 * i) 4))
  modBank s k r.bank (fun b => { b with u := vec (fld (r.desc.getD 2 0) 0 24) 8000, v := vec (fld (r.desc.getD 2 0) 24 24) 8200 })

/-- Writes a row of a z tile. -/
def setZRow (s : State) (k t i : Nat) (row : BitVec 4096) : State := s.modEng k (fun e => { e with z := setv 0 e.z (128 * t + i) row })

/-- `mfin` completes (R182): the tile, the flags, the scales at 1.0 again. -/
def finishFin (s : State) (k : Nat) (r : MxRun) : State :=
  let rows := finRows s k r
  let flags := rows.foldl (fun f row => row.foldl (fun g p => g ||| p.2) f) 0
  let s1 := rows.zipIdx.foldl (fun t p => setZRow t k r.o.zb p.2 (packRow (p.1.map (·.1)))) s
  (modBank s1 k r.bank (fun b => { b with u := [], v := [] })).modOwner r.iss (fun x => x.orFlags flags)

/-- `mzero` completes. -/
def finishZero (s : State) (k : Nat) (r : MxRun) : State := (List.range 128).foldl (fun t i => setZRow t k r.o.zb i 0) s

/-- The effects that an instruction which neither faults nor finds a token-in in error has after its feed; `mcld` and `mcinv` have none. -/
def finishMx (s : State) (k : Nat) (r : MxRun) : State :=
  match r.op with
  | 3 => finishPre s k r
  | 5 => finishFin s k r
  | 6 => finishZero s k r
  | 7 => finishCorr s k r
  | 8 => s
  | 9 => s
  | 10 => finishScale s k r
  | _ => finishStep s k r

/-- R185: the fault an instruction ends in. -/
def mxFault (s : State) (k : Nat) (r : MxRun) : Option Nat :=
  match r.fault with
  | some c => some c
  | none => if r.op = 5 ∧ ((s.eng k).bank r.bank).faulted then some 0x44 else none

/-- Instruction `n` of core `k` completes; nothing when it does not run, or completes after another. -/
def completeMx (s : State) (k n : Nat) : State :=
  match (s.eng k).mxq.find? (fun r => r.iss.seq == n && r.iss.stage == .running &&
      !(s.eng k).mxq.any (fun p => decide (p.iss.seq < n) && p.iss.stage == .running && follows p r)) with
  | none => s
  | some r0 =>
    let g := feedOut s k r0
    let t := g.1
    let r := g.2
    let fault := mxFault t k r
    let s1 :=
      if r.iss.poisoned then t
      else
        match fault with
        | some c =>
          let u := if stepOp r.op then modBank t k r.bank (fun b => { b with faulted := true }) else t
          engineFault u r.iss c (recWord0 c 1 r.op r.o.tout 0 r.iss.pc) 0 0 0
        | none => finishMx t k r
    let s2 := s1.modEng k (fun e => { e with mxq := e.mxq.filter (fun p => p.iss.seq != n) })
    (dropStationary (setToken s2 r.iss r.o.tout (r.iss.poisoned || fault.isSome)) r.iss.ctx).draw

/-- MATRIX_ENGINE_START: an instruction of the matrix queue starts in its stage. -/
def execMatrixEngineStart (core n : Nat) (s : State) : Host.Outcome State Fault Refusal := .next (startMx s core n)
/-- MATRIX_COMPLETE: a matrix instruction completes and sets its token. -/
def execMatrixComplete (core n : Nat) (s : State) : Host.Outcome State Fault Refusal := .next (completeMx s core n)

/-! ## The rows -/

/-- MSTEP: Queues a step of A and B edges into a bank. -/
def execMstep (o : MxOps) (s : State) : Host.Outcome State Fault Refusal :=
  issueOne 1 (mstepSem o) s
/-- MSTEP_G: Queues a step with a gathered A edge. -/
def execMstepG (o : MxOps) (s : State) : Host.Outcome State Fault Refusal :=
  issueOne 1 (mstepGSem o) s
/-- MPRE: Loads the B edge as the stationary operand. -/
def execMpre (o : MxOps) (s : State) : Host.Outcome State Fault Refusal :=
  issueOne 1 (mpreSem o) s
/-- MSTEP_WS: Steps A against the stationary operand. -/
def execMstepWs (o : MxOps) (s : State) : Host.Outcome State Fault Refusal :=
  issueOne 1 (mstepWsSem o) s
/-- MFIN: Drains a bank into a z tile with scaling and optional accumulation. -/
def execMfin (o : MxOps) (s : State) : Host.Outcome State Fault Refusal :=
  issueOne 1 (mfinSem o) s
/-- MZERO: Zeros a z tile. -/
def execMzero (o : MxOps) (s : State) : Host.Outcome State Fault Refusal :=
  issueOne 1 (mzeroSem o) s
/-- MCORR: Computes and installs an edge's corrections, optionally writing a record. -/
def execMcorr (o : MxOps) (s : State) : Host.Outcome State Fault Refusal :=
  issueOne 1 (mcorrSem o) s
/-- MCLD: Installs a correction record under an edge's tag. -/
def execMcld (o : MxOps) (s : State) : Host.Outcome State Fault Refusal :=
  issueOne 1 (mcldSem o) s
/-- MCINV: Invalidates correction-cache entries. -/
def execMcinv (o : MxOps) (s : State) : Host.Outcome State Fault Refusal :=
  issueOne 1 (mcinvSem o) s
/-- MSCL: Loads a bank's row and column scales. -/
def execMscl (o : MxOps) (s : State) : Host.Outcome State Fault Refusal :=
  issueOne 1 (msclSem o) s

end Sys2Proof.Machine
end

