-- ==== Sys2Proof/Machine/Moves.lean ====
section
/-! DEFINITION. Copy and immediate moves (R60, R63, R64, Table 3.6). -/

namespace Sys2Proof.Machine

/-- Whether a destination is an operand port, which a move writes before the triggers latch (R66). -/
def isPort (dst : Nat) : Bool := decide (0x400 ≤ dst ∧ dst < 0x500)

/-- Phase of a move (R66). -/
def movePhase (dst : Nat) : Nat := if isPort dst then 20 else 50

/-- A copy move: the source is read at the start of the bundle. -/
def copyMoveSem (dst src : Nat) (s _l : State) : Sem :=
  let pair := s.readsPair s.cur src
  let v := s.readName s.cur src .any
  { phase := movePhase dst
    cands := s.sourceCands s.cur src .any ++ s.destCands s.cur dst pair
    names := moveNames pair dst
    stall := s.sourceStalls s.cur src
    reads := [src]
    act := fun e => e.writeDest s.cur dst v }

/-- An immediate move. -/
def immediateMoveSem (dst imm : Nat) (s _l : State) : Sem :=
  { phase := movePhase dst
    cands := s.destCands s.cur dst false
    names := moveNames false dst
    act := fun e => e.writeDest s.cur dst (immValue dst imm) }

/-! ## The rows -/

/-- COPY_MOVE: Copies the value of a source name into a destination name under the kind rules of Table 3.6. -/
def execCopyMove (dst src : Nat) (s : State) : Host.Outcome State Fault Refusal :=
  issueOne 4 (copyMoveSem dst src) s
/-- IMMEDIATE_MOVE: Writes a 32-bit immediate into a destination, sign-extended, zero-extended or broadcast by kind. -/
def execImmediateMove (dst imm : Nat) (s : State) : Host.Outcome State Fault Refusal :=
  issueOne 4 (immediateMoveSem dst imm) s

end Sys2Proof.Machine
end

