-- ==== Sys2Proof/Machine/Permute.lean ====
section
/-! DEFINITION. The permute unit vp (R146 to R149, Tables 7.2 and 7.4): movement, reductions and scans. -/

namespace Sys2Proof.Machine

/-! ## Movement (R146, R147) -/

/-- Where a result element comes from: T, O, or zero; by row and column. -/
inductive From where
  | t (i j : Nat)
  | o (i j : Nat)
  | zero

/-- The tile whose element (i, j) is taken from where `g i j` says. -/
def gather (g : Nat → Nat → From) (t o : Tile) : Tile :=
  tileOf (fun e =>
    match g (e / 64) (e % 64) with
    | .t i j => elemAt t (64 * i + j)
    | .o i j => elemAt o (64 * i + j)
    | .zero => 0)

/-- Row zip, unzip of Table 7.2: the half in the rounding field. -/
def ruleZip : ModRule := ⟨fmtsAny, [], 1, fmtsAny, true⟩
/-- Row redr.add, redc.add, scanr.add, scanc.add. -/
def ruleRedAdd : ModRule := ⟨fmtsW ++ fmtsF, fmtsW ++ fmtsF, 3, fmtsF, true⟩
/-- Row redr.max to redc.min. -/
def ruleRedMax : ModRule := ⟨fmtsW ++ fmtsF, [], 0, [], true⟩

/-- A movement operation: `g` chooses by the operand O. Whole elements move, or whole pair values. -/
def vpMove (o : VpOps) (r : ModRule) (readO : Bool) (b ii : Nat) (g : Tile → Nat → Nat → From) : State → State → Sem :=
  vecSem 5 o.t o.o o.fmt o.mask (r.ok o.fmt o.sat o.rnd o.mask) readO b ii false
    (fun _ a c _ => ((gather (g c.1) a.1 c.1, if fmtPair o.fmt then gather (g c.1) a.2 c.2 else 0), 0))

/-- The amount: element (0, 0) of O. -/
def amount (t : Tile) : Nat := elemAt t 0
/-- The amount read as i16. -/
def signedAmount (t : Tile) : Int := toSigned 16 (elemAt t 0)

/-- Element (i, j) of T where both lie in range, else zero. -/
def inTile (i j : Int) : From := if 0 ≤ i ∧ i < 16 ∧ 0 ≤ j ∧ j < 64 then .t i.toNat j.toNat else .zero

def vpRotrSem (o : VpOps) : State → State → Sem :=
  vpMove o ruleAny true 6 4 (fun c i j => .t i ((j + 65536 - amount c) % 64))
def vpRotcSem (o : VpOps) : State → State → Sem :=
  vpMove o ruleAny true 10 4 (fun c i j => .t ((i + 65536 - amount c) % 16) j)
def vpBcrowSem (o : VpOps) : State → State → Sem := vpMove o ruleAny true 6 4 (fun c _ j => .t (amount c % 16) j)
def vpBccolSem (o : VpOps) : State → State → Sem := vpMove o ruleAny true 10 4 (fun c i _ => .t i (amount c % 64))
def vpTrnSem (o : VpOps) : State → State → Sem := vpMove o ruleAny false 12 8 (fun _ i j => .t (j % 16) (16 * (j / 16) + i))
def vpPermSem (o : VpOps) : State → State → Sem :=
  vpMove o ruleAny true 6 4 (fun c i j => .t i (elemAt c (64 * i + j) % 64))
def vpShiftrSem (o : VpOps) : State → State → Sem := vpMove o ruleAny true 6 4 (fun c i j => inTile i (j - signedAmount c))
def vpShiftcSem (o : VpOps) : State → State → Sem := vpMove o ruleAny true 10 4 (fun c i j => inTile (i - signedAmount c) j)
def vpZipSem (o : VpOps) : State → State → Sem :=
  vpMove o ruleZip true 6 4 (fun _ i j => if j % 2 = 0 then .t i (32 * o.rnd + j / 2) else .o i (32 * o.rnd + j / 2))
def vpUnzipSem (o : VpOps) : State → State → Sem :=
  vpMove o ruleZip true 6 4 (fun _ i j => if j < 32 then .t i (2 * j + o.rnd) else .o i (2 * (j - 32) + o.rnd))

/-- `perm imm`: two tiles by an index tile in operand port 2. -/
def vpPermImmSem (o : VpImmOps) : State → State → Sem :=
  vecSem 5 o.t o.o 0x1 false true true 6 4 false
    (fun _ a b c =>
      ((gather (fun i j =>
        let e := elemAt c.1 (64 * i + j)
        if o.imm = 0 then (if bitAt e 6 then .o i (e % 64) else .t i (e % 64))
        else (if bitAt e 4 then .o (e % 16) j else .t (e % 16) j)) a.1 b.1, 0), 0))

/-! ## Reductions and scans (R148, R149) -/

/-- A value with the flags of the nodes that form it. -/
abbrev Node2 := Nat × Nat

/-- One level of the pairwise tree. -/
def treeLevel (add : Nat → Nat → Nat × Nat) : List Node2 → List Node2
  | a :: b :: r => ((add a.1 b.1).1, (add a.1 b.1).2 ||| a.2 ||| b.2) :: treeLevel add r
  | l => l

/-- The pairwise tree of R148 over 2^n values. -/
def treeSum (add : Nat → Nat → Nat × Nat) (l : List Node2) : Nat → List Node2
  | 0 => l
  | n + 1 => treeSum add (treeLevel add l) n

/-- One step of the scan of R149 at distance `d`. -/
def scanStep (add : Nat → Nat → Nat × Nat) (d : Nat) (l : List Node2) : List Node2 :=
  (l.zip (l.take d ++ l)).zipIdx.map (fun p =>
    let x := p.1.1
    let y := p.1.2
    if d ≤ p.2 then ((add y.1 x.1).1, (add y.1 x.1).2 ||| y.2 ||| x.2) else x)

/-- The scan of R149: distances 1, 2, 4, … of `n` steps. -/
def scanAll (add : Nat → Nat → Nat × Nat) (l : List Node2) : Nat → Nat → List Node2
  | 0, _ => l
  | n + 1, d => scanAll add (scanStep add d l) n (2 * d)

/-- The operands of a row or column as the floating-point unit reads them: flushed, NaN as they are. -/
def flushCode (g : FFmt) (c : Nat) : Nat :=
  match g.readFlush c with
  | .zero n => g.signed n 0
  | _ => c

/-- The delivered form of a value no addition has touched: the default NaN for a NaN, INV for a signalling one. -/
def delivered (g : FFmt) (c : Nat) : Node2 :=
  match g.readFlush c with
  | .nan _ s => g.nanResult s
  | _ => (c, 0)

/-- Addition of two codes of a format that are not to be flushed again (R148). -/
def addCodes (g : FFmt) (mode : Rnd) (sat : Bool) (a b : Nat) : Nat × Nat := g.add mode sat (g.read a) (g.read b)

/-- R148: the sum of a row or column. -/
def sumVals (fmt : Nat) (sat : Bool) (mode : Rnd) (depth : Nat) (l : List Nat) : Node2 :=
  match ffmt fmt with
  | some g => ((treeSum (addCodes g mode sat) (l.map (fun c => (flushCode g c, 0))) depth).headD (0, 0))
  | none => (fitInt fmt sat ((l.map (fmtInt fmt)).sum), 0)

/-- R148: the largest or smallest of a row or column. A signalling NaN anywhere gives the default NaN, so that the order does not
matter (notes/assumptions/16.md). -/
def extremeVals (fmt : Nat) (larger : Bool) (l : List Nat) : Node2 :=
  match ffmt fmt with
  | some g =>
    if l.any (fun c => (g.readFlush c).isSNaN) then g.nanResult true
    else ((l.map (flushCode g)).foldl (fun a c => (g.minmax larger (g.readFlush a) (g.readFlush c)).1) g.nanCode, 0)
  | none =>
    match l with
    | [] => (0, 0)
    | a :: r => (r.foldl (fun a c => (minmaxVals fmt larger a c).1) a, 0)

/-- R149: the prefix sums of a row or column of 2^depth values. -/
def scanVals (fmt : Nat) (sat : Bool) (mode : Rnd) (depth : Nat) (l : List Nat) : List Node2 :=
  match ffmt fmt with
  | some g =>
    match scanAll (addCodes g mode sat) (l.map (fun c => (flushCode g c, 0))) depth 1 with
    | [] => []
    | x :: r => delivered g x.1 :: r
  | none => (List.range l.length).map (fun k => (fitInt fmt sat (((l.take (k + 1)).map (fmtInt fmt)).sum), 0))

/-- The values of the rows (or columns) of an operand. -/
def linesOf (row : Bool) (fmt : Nat) (t : Tile × Tile) : List (List Nat) :=
  if row then (List.range 16).map (fun i => (List.range 64).map (fun j => valAt fmt t.1 t.2 (64 * i + j)))
  else (List.range 64).map (fun j => (List.range 16).map (fun i => valAt fmt t.1 t.2 (64 * i + j)))

/-- The result tiles and flags of values given line by line, a masked-off position setting none (R137). -/
def fromLines (row : Bool) (fmt : Nat) (mask : Option Tile) (l : List (List Node2)) : (Tile × Tile) × Nat :=
  let vs := (List.range 1024).map (fun e =>
    let i := e / 64
    let j := e % 64
    if row then (l.getD i []).getD j (0, 0) else (l.getD j []).getD i (0, 0))
  (tilesOf fmt (vs.map (·.1)), vs.zipIdx.foldl (fun x p => if maskOn mask p.2 then x ||| p.1.2 else x) 0)

/-- A reduction or scan: `f` gives the values of one line of `n` values. -/
def vpLines (o : VpOps) (r : ModRule) (row : Bool) (b ii : Nat) (f : List Nat → List Node2) : State → State → Sem :=
  vecSem 5 o.t o.o o.fmt o.mask (r.ok o.fmt o.sat o.rnd o.mask) false b ii (fmtsF.contains o.fmt)
    (fun m a _ _ => fromLines row o.fmt m ((linesOf row o.fmt a).map f))

/-- log2 of the values of a line. -/
def lineDepth (row : Bool) : Nat := if row then 6 else 4

/-- A reduction broadcast along its line. -/
def vpReduce (o : VpOps) (r : ModRule) (row : Bool) (f : List Nat → Node2) : State → State → Sem :=
  vpLines o r row (if row then 8 else 14) (if row then 4 else 8) (fun l => List.replicate l.length (f l))

def vpRedrAddSem (o : VpOps) : State → State → Sem := vpReduce o ruleRedAdd true (sumVals o.fmt o.sat (rndOf o.rnd) 6)
def vpRedrMaxSem (o : VpOps) : State → State → Sem := vpReduce o ruleRedMax true (extremeVals o.fmt true)
def vpRedrMinSem (o : VpOps) : State → State → Sem := vpReduce o ruleRedMax true (extremeVals o.fmt false)
def vpRedcAddSem (o : VpOps) : State → State → Sem := vpReduce o ruleRedAdd false (sumVals o.fmt o.sat (rndOf o.rnd) 4)
def vpRedcMaxSem (o : VpOps) : State → State → Sem := vpReduce o ruleRedMax false (extremeVals o.fmt true)
def vpRedcMinSem (o : VpOps) : State → State → Sem := vpReduce o ruleRedMax false (extremeVals o.fmt false)
def vpScanrAddSem (o : VpOps) : State → State → Sem :=
  vpLines o ruleRedAdd true 10 4 (scanVals o.fmt o.sat (rndOf o.rnd) (lineDepth true))
def vpScancAddSem (o : VpOps) : State → State → Sem :=
  vpLines o ruleRedAdd false 18 8 (scanVals o.fmt o.sat (rndOf o.rnd) (lineDepth false))

/-! ## The rows -/

/-- VP_ROTR: Rotates rows right by n columns. -/
def execVpRotr (o : VpOps) (s : State) : Host.Outcome State Fault Refusal :=
  issueOne 4 (vpRotrSem o) s
/-- VP_ROTC: Rotates columns by n rows. -/
def execVpRotc (o : VpOps) (s : State) : Host.Outcome State Fault Refusal :=
  issueOne 4 (vpRotcSem o) s
/-- VP_BCROW: Broadcasts row n. -/
def execVpBcrow (o : VpOps) (s : State) : Host.Outcome State Fault Refusal :=
  issueOne 4 (vpBcrowSem o) s
/-- VP_BCCOL: Broadcasts column n. -/
def execVpBccol (o : VpOps) (s : State) : Host.Outcome State Fault Refusal :=
  issueOne 4 (vpBccolSem o) s
/-- VP_REDR_ADD: Row sum broadcast along each row. -/
def execVpRedrAdd (o : VpOps) (s : State) : Host.Outcome State Fault Refusal :=
  issueOne 4 (vpRedrAddSem o) s
/-- VP_REDR_MAX: Row maximum broadcast. -/
def execVpRedrMax (o : VpOps) (s : State) : Host.Outcome State Fault Refusal :=
  issueOne 4 (vpRedrMaxSem o) s
/-- VP_REDR_MIN: Row minimum broadcast. -/
def execVpRedrMin (o : VpOps) (s : State) : Host.Outcome State Fault Refusal :=
  issueOne 4 (vpRedrMinSem o) s
/-- VP_REDC_ADD: Column sum broadcast. -/
def execVpRedcAdd (o : VpOps) (s : State) : Host.Outcome State Fault Refusal :=
  issueOne 4 (vpRedcAddSem o) s
/-- VP_REDC_MAX: Column maximum broadcast. -/
def execVpRedcMax (o : VpOps) (s : State) : Host.Outcome State Fault Refusal :=
  issueOne 4 (vpRedcMaxSem o) s
/-- VP_REDC_MIN: Column minimum broadcast. -/
def execVpRedcMin (o : VpOps) (s : State) : Host.Outcome State Fault Refusal :=
  issueOne 4 (vpRedcMinSem o) s
/-- VP_TRN: Transposes 16x16 blocks. -/
def execVpTrn (o : VpOps) (s : State) : Host.Outcome State Fault Refusal :=
  issueOne 4 (vpTrnSem o) s
/-- VP_PERM: Permutes each row by an index tile in O. -/
def execVpPerm (o : VpOps) (s : State) : Host.Outcome State Fault Refusal :=
  issueOne 4 (vpPermSem o) s
/-- VP_PERM_IMM: Selects elements from two tiles by an index tile in operand port 2. -/
def execVpPermImm (o : VpImmOps) (s : State) : Host.Outcome State Fault Refusal :=
  issueOne 4 (vpPermImmSem o) s
/-- VP_ZIP: Interleaves half of the rows of T and O. -/
def execVpZip (o : VpOps) (s : State) : Host.Outcome State Fault Refusal :=
  issueOne 4 (vpZipSem o) s
/-- VP_UNZIP: Separates even or odd positions of T and O. -/
def execVpUnzip (o : VpOps) (s : State) : Host.Outcome State Fault Refusal :=
  issueOne 4 (vpUnzipSem o) s
/-- VP_SHIFTR: Shifts rows with zero fill. -/
def execVpShiftr (o : VpOps) (s : State) : Host.Outcome State Fault Refusal :=
  issueOne 4 (vpShiftrSem o) s
/-- VP_SHIFTC: Shifts columns with zero fill. -/
def execVpShiftc (o : VpOps) (s : State) : Host.Outcome State Fault Refusal :=
  issueOne 4 (vpShiftcSem o) s
/-- VP_SCANR_ADD: Inclusive prefix sum along rows. -/
def execVpScanrAdd (o : VpOps) (s : State) : Host.Outcome State Fault Refusal :=
  issueOne 4 (vpScanrAddSem o) s
/-- VP_SCANC_ADD: Inclusive prefix sum along columns. -/
def execVpScancAdd (o : VpOps) (s : State) : Host.Outcome State Fault Refusal :=
  issueOne 4 (vpScancAddSem o) s

end Sys2Proof.Machine
end

