-- ==== Sys2Proof/Machine/Scalar.lean ====
section
/-! DEFINITION. The scalar ALU (R48, R109 to R111, Table 6.1): one definition per operation. -/

namespace Sys2Proof.Machine

/-- Operating width: 32 when modifier [7] is set (R109). -/
def saWidth (o : SaOps) : Nat := if o.w then 32 else 64

/-- T and O of an sa trigger. -/
def saT (o : SaOps) (s : State) : Nat := (s.readName s.cur o.t .scalar).asScalar
/-- The value at the operand port. -/
def saO (o : SaOps) (s l : State) : Nat := (operand s l 0 o.o .scalar).asScalar

/-- The condition write of modifier [6] (R109). -/
def saCond (o : SaOps) (v : Nat) : Option (Nat × Bool) := if o.wc then some (o.k, v % 2 == 1) else none

/-- A result of width `w` in 64 bits: sign-extended or zero-extended (R109). -/
def extend (w : Nat) (sign : Bool) (v : Nat) : Nat := if sign then sext64 w v else v % 2 ^ w

/-- An sa operation of bound `b` and interval `ii` that delivers a 64-bit value, with flags and the exceptions it may trap on. -/
def saSem (o : SaOps) (b ii : Nat) (cands : List Cand) (val flags en : Nat) (fp : Bool) (s l : State) : Sem :=
  trigSem s l 0 ii o.t o.o .scalar .scalar cands
    (fun x => x.send 0 b ii (some (PVal.scal val)) none flags en (saCond o val) fp)

/-- An integer operation on T and O at the operating width (R110). -/
def saInt (o : SaOps) (b : Nat) (sign : Bool) (f : Nat → Nat → Nat → Nat) (s l : State) : Sem :=
  let w := saWidth o
  saSem o b 1 [] (extend w sign (f w (saT o s % 2 ^ w) (saO o s l % 2 ^ w))) 0 0 false s l

/-- A comparison's result. -/
def ofBool (b : Bool) : Nat := if b then 1 else 0

/-! ## Integer operations -/

def saAddSem (o : SaOps) : State → State → Sem := saInt o 2 true (fun _ t u => t + u)
def saSubSem (o : SaOps) : State → State → Sem := saInt o 2 true (fun w t u => t + 2 ^ w - u)
def saMulSem (o : SaOps) : State → State → Sem := saInt o 4 true (fun _ t u => t * u)
def saMulhSem (o : SaOps) : State → State → Sem :=
  saInt o 4 true (fun w t u => wrapInt w (toSigned w t * toSigned w u / (2 ^ w : Nat)))
def saMulhcSem (o : SaOps) : State → State → Sem := saInt o 4 false (fun w t u => t * u / 2 ^ w)
def saAndSem (o : SaOps) : State → State → Sem := saInt o 2 true (fun _ t u => t &&& u)
def saOrSem (o : SaOps) : State → State → Sem := saInt o 2 true (fun _ t u => t ||| u)
def saXorSem (o : SaOps) : State → State → Sem := saInt o 2 true (fun _ t u => t ^^^ u)
def saAndnSem (o : SaOps) : State → State → Sem := saInt o 2 true (fun w t u => t &&& notBits w u)
def saShlSem (o : SaOps) : State → State → Sem := saInt o 2 true (fun w t u => t * 2 ^ (u % w))
def saShrSem (o : SaOps) : State → State → Sem := saInt o 2 false (fun w t u => t / 2 ^ (u % w))
def saSraSem (o : SaOps) : State → State → Sem := saInt o 2 true (fun w t u => wrapInt w (toSigned w t / (2 ^ (u % w) : Nat)))
def saRotlSem (o : SaOps) : State → State → Sem :=
  saInt o 2 true (fun w t u => t * 2 ^ (u % w) + t / 2 ^ (w - u % w))
def saMinSem (o : SaOps) : State → State → Sem := saInt o 2 true (fun w t u => if toSigned w t ≤ toSigned w u then t else u)
def saMaxSem (o : SaOps) : State → State → Sem := saInt o 2 true (fun w t u => if toSigned w t ≤ toSigned w u then u else t)
def saMincSem (o : SaOps) : State → State → Sem := saInt o 2 false (fun _ t u => min t u)
def saMaxcSem (o : SaOps) : State → State → Sem := saInt o 2 false (fun _ t u => max t u)
def saCmpeqSem (o : SaOps) : State → State → Sem := saInt o 2 true (fun _ t u => ofBool (t == u))
def saCmpneSem (o : SaOps) : State → State → Sem := saInt o 2 true (fun _ t u => ofBool (t != u))
def saCmpltSem (o : SaOps) : State → State → Sem := saInt o 2 true (fun w t u => ofBool (toSigned w t < toSigned w u))
def saCmpleSem (o : SaOps) : State → State → Sem := saInt o 2 true (fun w t u => ofBool (toSigned w t ≤ toSigned w u))
def saCmpltcSem (o : SaOps) : State → State → Sem := saInt o 2 true (fun _ t u => ofBool (t < u))
def saCmplecSem (o : SaOps) : State → State → Sem := saInt o 2 true (fun _ t u => ofBool (t ≤ u))
def saClzSem (o : SaOps) : State → State → Sem := saInt o 2 false (fun w t _ => leadZeros w t)
def saCtzSem (o : SaOps) : State → State → Sem := saInt o 2 false (fun w t _ => trailZeros w t)
def saPopcSem (o : SaOps) : State → State → Sem := saInt o 2 false (fun w t _ => popcount w t)
def saMovSem (o : SaOps) : State → State → Sem := saInt o 2 true (fun _ t _ => t)

/-- Position and effective length of `bext` and `bins` (R110). -/
def bitField (w u : Nat) : Nat × Nat :=
  let pos := fld u 0 6 % w
  let len := if fld u 8 6 = 0 then w else fld u 8 6
  (pos, min len (w - pos))

def saBextSem (o : SaOps) : State → State → Sem := saInt o 2 true (fun w t u => fld t (bitField w u).1 (bitField w u).2)

/-- `bins`: T with a field replaced by the low bits of operand port 2. -/
def saBinsSem (o : SaOps) (s l : State) : Sem :=
  saInt o 2 true (fun w t u =>
    let f := bitField w u
    let mask := (2 ^ f.2 - 1) * 2 ^ f.1
    (t &&& notBits w mask) ||| ((operand2 l 0).asScalar % 2 ^ f.2 * 2 ^ f.1)) s l

/-- The width of `sext` and `zext`: O[5:0], with 0 and anything at or above W meaning W. -/
def extWidth (w u : Nat) : Nat := if fld u 0 6 = 0 ∨ w ≤ fld u 0 6 then w else fld u 0 6

def saSextSem (o : SaOps) : State → State → Sem := saInt o 2 true (fun w t u => wrapInt w (toSigned (extWidth w u) t))
def saZextSem (o : SaOps) : State → State → Sem := saInt o 2 false (fun w t u => t % 2 ^ extWidth w u)

/-- `sel`: T when condition [5:2] is 1, else O; a write condition is illegal. -/
def saSelSem (o : SaOps) (s l : State) : Sem :=
  let w := saWidth o
  let v := if s.me.k o.k then saT o s else saO o s l
  saSem { o with wc := false } 2 1 (candIf o.wc illegalCombination) (extend w true v) 0 0 false s l

/-! ## Division (R48, Table 2.9) -/

/-- A division: DIV0 under ediv, else all ones or the dividend with DZ; `q` on a divisor that is not zero. One that can raise no flag
still counts as flag-raising for an `sget` of fpstat (R51; DESIGN CHOICE, notes/assumptions/9.md). -/
def saDivide (o : SaOps) (sign quot : Bool) (q : Nat → Nat → Nat → Nat) (s l : State) : Sem :=
  let w := saWidth o
  let t := saT o s % 2 ^ w
  let u := saO o s l % 2 ^ w
  let zero := u == 0
  let v := if zero then (if quot then 2 ^ w - 1 else t) else q w t u
  { saSem o 36 36 (candIf (zero && bitAt s.me.fmts.fpctl 5) ⟨0x0D, .slot⟩) (extend w sign v) (if zero then flDZ else 0) 0 true s l with
    risk := if bitAt s.me.fmts.fpctl 5 then [0x0D] else [], riskO := true }

def saDivSem (o : SaOps) : State → State → Sem :=
  saDivide o true true (fun w t u => wrapInt w ((toSigned w t).tdiv (toSigned w u)))
def saDivcSem (o : SaOps) : State → State → Sem := saDivide o false true (fun _ t u => t / u)
def saRemSem (o : SaOps) : State → State → Sem :=
  saDivide o true false (fun w t u => wrapInt w ((toSigned w t).tmod (toSigned w u)))
def saRemcSem (o : SaOps) : State → State → Sem := saDivide o false false (fun _ t u => t % u)

/-! ## f32 operations (R111) -/

/-- The exceptions enabled (R50). -/
def enables (s : State) : Nat := s.me.fmts.fpctl % 32

/-- An f32 operation on T[31:0] and O[31:0], flushed (R32). -/
def saFloat (o : SaOps) (b ii : Nat) (f : FVal → FVal → Nat × Nat) (s l : State) : Sem :=
  let r := f (f32.readFlush (saT o s % 2 ^ 32)) (f32.readFlush (saO o s l % 2 ^ 32))
  saSem o b ii [] r.1 r.2 (enables s) true s l

def saFaddSem (o : SaOps) : State → State → Sem := saFloat o 6 1 (f32.add .rne false)
def saFmulSem (o : SaOps) : State → State → Sem := saFloat o 6 1 (f32.mul .rne false)
def saFdivSem (o : SaOps) : State → State → Sem := saFloat o 36 36 (f32.div .rne false)

/-- `fcmp`: less, equal, greater, unordered; INV for a signalling NaN alone. -/
def saFcmpSem (o : SaOps) : State → State → Sem :=
  saFloat o 6 1 (fun a b =>
    ((match fcompare a b with | some .lt => 1 | some .eq => 2 | some .gt => 4 | none => 8),
      if a.isSNaN || b.isSNaN then flINV else 0))

/-- The formats `fcvt` accepts (R111). -/
def fcvtFormat (f : Nat) : Bool := f == 0xD || f == 2 || f == 3 || f == 0xE || f == 0xF || f == 0 || f == 1

/-- `fcvt`: O[7:4] the destination, O[3:0] the source; SR rounds as RNE and takes no draw. One between integer formats counts as flag-raising
for an `sget` of fpstat (R51; DESIGN CHOICE, notes/assumptions/9.md). -/
def saFcvtSem (o : SaOps) (s l : State) : Sem :=
  let u := saO o s l
  let dst := fld u 4 4
  let src := fld u 0 4
  let ctl := s.me.fmts.cvtctl
  let rnd := if fld ctl 4 3 = 4 then .rne else rndOf (fld ctl 4 3)
  let r := convert dst src rnd (bitAt ctl 7) (saT o s % 2 ^ fmtWidth src)
  let v := if fmtIsInt dst && fmtSigned dst then sext64 (fmtWidth dst) r.1 else r.1
  { saSem o 6 1 (candIf (!(fcvtFormat dst && fcvtFormat src)) illegalCombination) v r.2 (enables s) true s l with
    risk := [0x04], riskO := true }

/-! ## The rows -/

/-- SA_ADD: Scalar add modulo 2^W. -/
def execSaAdd (o : SaOps) (s : State) : Host.Outcome State Fault Refusal := issueOne 4 (saAddSem o) s
/-- SA_SUB: Scalar subtract modulo 2^W. -/
def execSaSub (o : SaOps) (s : State) : Host.Outcome State Fault Refusal := issueOne 4 (saSubSem o) s
/-- SA_MUL: Low W bits of the product. -/
def execSaMul (o : SaOps) (s : State) : Host.Outcome State Fault Refusal := issueOne 4 (saMulSem o) s
/-- SA_MULH: High W bits of the signed product. -/
def execSaMulh (o : SaOps) (s : State) : Host.Outcome State Fault Refusal := issueOne 4 (saMulhSem o) s
/-- SA_MULHC: High W bits of the unsigned product. -/
def execSaMulhc (o : SaOps) (s : State) : Host.Outcome State Fault Refusal := issueOne 4 (saMulhcSem o) s
/-- SA_DIV: Signed divide rounded toward zero, trapping DIV0 or returning all ones by fpctl.ediv. -/
def execSaDiv (o : SaOps) (s : State) : Host.Outcome State Fault Refusal := issueOne 4 (saDivSem o) s
/-- SA_DIVC: Unsigned divide rounded toward zero. -/
def execSaDivc (o : SaOps) (s : State) : Host.Outcome State Fault Refusal := issueOne 4 (saDivcSem o) s
/-- SA_REM: Signed remainder with the sign of the dividend. -/
def execSaRem (o : SaOps) (s : State) : Host.Outcome State Fault Refusal := issueOne 4 (saRemSem o) s
/-- SA_REMC: Unsigned remainder. -/
def execSaRemc (o : SaOps) (s : State) : Host.Outcome State Fault Refusal := issueOne 4 (saRemcSem o) s
/-- SA_AND: Bitwise and. -/
def execSaAnd (o : SaOps) (s : State) : Host.Outcome State Fault Refusal := issueOne 4 (saAndSem o) s
/-- SA_OR: Bitwise or. -/
def execSaOr (o : SaOps) (s : State) : Host.Outcome State Fault Refusal := issueOne 4 (saOrSem o) s
/-- SA_XOR: Bitwise exclusive-or. -/
def execSaXor (o : SaOps) (s : State) : Host.Outcome State Fault Refusal := issueOne 4 (saXorSem o) s
/-- SA_ANDN: T and not O. -/
def execSaAndn (o : SaOps) (s : State) : Host.Outcome State Fault Refusal := issueOne 4 (saAndnSem o) s
/-- SA_SHL: Shift left by O mod W. -/
def execSaShl (o : SaOps) (s : State) : Host.Outcome State Fault Refusal := issueOne 4 (saShlSem o) s
/-- SA_SHR: Logical shift right by O mod W. -/
def execSaShr (o : SaOps) (s : State) : Host.Outcome State Fault Refusal := issueOne 4 (saShrSem o) s
/-- SA_SRA: Arithmetic shift right by O mod W. -/
def execSaSra (o : SaOps) (s : State) : Host.Outcome State Fault Refusal := issueOne 4 (saSraSem o) s
/-- SA_ROTL: Rotate left by O mod W. -/
def execSaRotl (o : SaOps) (s : State) : Host.Outcome State Fault Refusal := issueOne 4 (saRotlSem o) s
/-- SA_MIN: Signed minimum. -/
def execSaMin (o : SaOps) (s : State) : Host.Outcome State Fault Refusal := issueOne 4 (saMinSem o) s
/-- SA_MAX: Signed maximum. -/
def execSaMax (o : SaOps) (s : State) : Host.Outcome State Fault Refusal := issueOne 4 (saMaxSem o) s
/-- SA_MINC: Unsigned minimum. -/
def execSaMinc (o : SaOps) (s : State) : Host.Outcome State Fault Refusal := issueOne 4 (saMincSem o) s
/-- SA_MAXC: Unsigned maximum. -/
def execSaMaxc (o : SaOps) (s : State) : Host.Outcome State Fault Refusal := issueOne 4 (saMaxcSem o) s
/-- SA_CMPEQ: 1 if T equals O, else 0. -/
def execSaCmpeq (o : SaOps) (s : State) : Host.Outcome State Fault Refusal := issueOne 4 (saCmpeqSem o) s
/-- SA_CMPNE: 1 if T differs from O, else 0. -/
def execSaCmpne (o : SaOps) (s : State) : Host.Outcome State Fault Refusal := issueOne 4 (saCmpneSem o) s
/-- SA_CMPLT: 1 if T < O signed. -/
def execSaCmplt (o : SaOps) (s : State) : Host.Outcome State Fault Refusal := issueOne 4 (saCmpltSem o) s
/-- SA_CMPLE: 1 if T <= O signed. -/
def execSaCmple (o : SaOps) (s : State) : Host.Outcome State Fault Refusal := issueOne 4 (saCmpleSem o) s
/-- SA_CMPLTC: 1 if T < O unsigned. -/
def execSaCmpltc (o : SaOps) (s : State) : Host.Outcome State Fault Refusal := issueOne 4 (saCmpltcSem o) s
/-- SA_CMPLEC: 1 if T <= O unsigned. -/
def execSaCmplec (o : SaOps) (s : State) : Host.Outcome State Fault Refusal := issueOne 4 (saCmplecSem o) s
/-- SA_SEL: Selects T or O by a condition register. -/
def execSaSel (o : SaOps) (s : State) : Host.Outcome State Fault Refusal := issueOne 4 (saSelSem o) s
/-- SA_CLZ: Count of leading zeros of T. -/
def execSaClz (o : SaOps) (s : State) : Host.Outcome State Fault Refusal := issueOne 4 (saClzSem o) s
/-- SA_CTZ: Count of trailing zeros of T. -/
def execSaCtz (o : SaOps) (s : State) : Host.Outcome State Fault Refusal := issueOne 4 (saCtzSem o) s
/-- SA_POPC: Count of ones of T. -/
def execSaPopc (o : SaOps) (s : State) : Host.Outcome State Fault Refusal := issueOne 4 (saPopcSem o) s
/-- SA_BEXT: Extracts a bit field of T. -/
def execSaBext (o : SaOps) (s : State) : Host.Outcome State Fault Refusal := issueOne 4 (saBextSem o) s
/-- SA_BINS: Inserts bits of o2 into a field of T. -/
def execSaBins (o : SaOps) (s : State) : Host.Outcome State Fault Refusal := issueOne 4 (saBinsSem o) s
/-- SA_SEXT: Sign-extends the low n bits of T. -/
def execSaSext (o : SaOps) (s : State) : Host.Outcome State Fault Refusal := issueOne 4 (saSextSem o) s
/-- SA_ZEXT: Zero-extends the low n bits of T. -/
def execSaZext (o : SaOps) (s : State) : Host.Outcome State Fault Refusal := issueOne 4 (saZextSem o) s
/-- SA_MOV: Delivers T to sa.r. -/
def execSaMov (o : SaOps) (s : State) : Host.Outcome State Fault Refusal := issueOne 4 (saMovSem o) s
/-- SA_FADD: f32 sum of the low halves of T and O. -/
def execSaFadd (o : SaOps) (s : State) : Host.Outcome State Fault Refusal := issueOne 4 (saFaddSem o) s
/-- SA_FMUL: f32 product. -/
def execSaFmul (o : SaOps) (s : State) : Host.Outcome State Fault Refusal := issueOne 4 (saFmulSem o) s
/-- SA_FDIV: f32 quotient. -/
def execSaFdiv (o : SaOps) (s : State) : Host.Outcome State Fault Refusal := issueOne 4 (saFdivSem o) s
/-- SA_FCVT: Converts T between the formats named in O. -/
def execSaFcvt (o : SaOps) (s : State) : Host.Outcome State Fault Refusal := issueOne 4 (saFcvtSem o) s
/-- SA_FCMP: f32 comparison giving less, equal, greater and unordered bits. -/
def execSaFcmp (o : SaOps) (s : State) : Host.Outcome State Fault Refusal := issueOne 4 (saFcmpSem o) s

end Sys2Proof.Machine
end

