-- ==== Sys2Proof/Machine/Special.lean ====
section
/-! DEFINITION. The special functions of vf (R150, R151, Tables 7.6 and 7.7). A function's magnitude is formed in fixed point with
512 fraction bits, which is enough to round every f16 and bf16 result correctly; an f32 result that Table 7.6 bounds and does not
fix is a free choice among the codes within its bound (notes/assumptions/6.md). -/

namespace Sys2Proof.Machine

/-! ## Fixed point -/

/-- Fraction bits. -/
def fixBits : Nat := 512
/-- One in fixed point. -/
def fixOne : Nat := 2 ^ fixBits
/-- Product in fixed point. -/
def fixMul (a b : Nat) : Nat := a * b / fixOne
/-- Quotient in fixed point. -/
def fixDiv (a b : Nat) : Nat := a * fixOne / b

/-- Σ z^(2k+1)/(2k+1) from the term of power `p` on; signs alternate when `alt`. -/
def atanSeries (alt : Bool) (z2 : Nat) : Nat → Nat → Nat → Bool → Int
  | 0, _, _, _ => 0
  | n + 1, t, k, neg =>
    (if neg then -((t / k : Nat) : Int) else ((t / k : Nat) : Int)) + atanSeries alt z2 n (fixMul t z2) (k + 2) (alt != neg)

/-- arctan (alternating) or artanh of 1/m. -/
def atanInv (alt : Bool) (m n : Nat) : Int :=
  atanSeries alt (fixOne / (m * m)) n (fixOne / m) 1 false

/-- ln 2 = 2 artanh(1/3). -/
def ln2Fix : Nat := (2 * atanInv false 3 170).toNat
/-- π = 16 arctan(1/5) − 4 arctan(1/239). -/
def piFix : Nat := (16 * atanInv true 5 115 - 4 * atanInv true 239 35).toNat

/-- Σ x^k/k! from term `t` of number `k` on. -/
def expSeries (x : Nat) : Nat → Nat → Nat → Nat
  | 0, _, _ => 0
  | n + 1, t, k => t + expSeries x n (fixMul t x / k) (k + 1)

/-- e^x for 0 ≤ x < 1. -/
def expFix (x : Nat) : Nat := expSeries x 110 fixOne 1

/-- The alternating series of sine (k = 2) or cosine (k = 1) from term `t`. -/
def trigSeries (x2 : Nat) : Nat → Nat → Nat → Bool → Int
  | 0, _, _, _ => 0
  | n + 1, t, k, neg => (if neg then -(t : Int) else t) + trigSeries x2 n (fixMul t x2 / (k * (k + 1))) (k + 2) (!neg)

/-- sin(π r) and cos(π r) for 0 ≤ r ≤ 1/4. -/
def sinFix (r : Nat) : Nat := let y := fixMul piFix r; (trigSeries (fixMul y y) 60 y 2 false).toNat
def cosFix (r : Nat) : Nat := let y := fixMul piFix r; (trigSeries (fixMul y y) 60 fixOne 1 false).toNat

/-- ln m for 1 ≤ m < 2, m in fixed point. -/
def lnFix (m : Nat) : Nat :=
  let z := fixDiv (m - fixOne) (m + fixOne)
  (2 * atanSeries false (fixMul z z) 170 z 1 false).toNat

/-- The square root of `n` rounded down, by its bits from 2^k down. -/
def isqrtFrom (n : Nat) : Nat → Nat → Nat
  | 0, r => if (r + 1) * (r + 1) ≤ n then r + 1 else r
  | k + 1, r => isqrtFrom n k (if (r + 2 ^ (k + 1)) * (r + 2 ^ (k + 1)) ≤ n then r + 2 ^ (k + 1) else r)

/-- A magnitude in fixed point, rounded down. -/
def Mag.fix (x : Mag) : Nat := let p := scale x.num x.den (x.exp + fixBits); p.1 / p.2

/-! ## Results -/

/-- What a function gives for an operand: a code with its flags, an exact value, or one known to lie just above a fixed-point number. -/
inductive VfVal where
  | code (c flags : Nat)
  | exact (neg : Bool) (m : Mag)
  | approx (neg : Bool) (m : Mag)

/-- A value just above `a` in fixed point, for an irrational result (the last bit stands for what is below). -/
def above (neg : Bool) (a : Nat) (e : Int) : VfVal := .approx neg ⟨2 * a + 1, 1, e - fixBits - 1⟩

/-- The exact integer or half. -/
def unitVal (neg : Bool) : VfVal := .exact neg ⟨1, 1, 0⟩

/-- 2^(t) for a signed fixed-point exponent, `t` clamped to ±4096 where every format has overflowed or vanished. -/
def exp2Val (neg : Bool) (x : Mag) : VfVal :=
  if x.log2 ≥ 12 then above false 0 (if neg then -5000 else 5000)
  else
    let f := x.fix
    let n : Int := if neg then -(((f + fixOne - 1) / fixOne : Nat) : Int) else ((f / fixOne : Nat) : Int)
    let frac := if neg then (fixOne - f % fixOne) % fixOne else f % fixOne
    if frac = 0 then .exact false ⟨1, 1, n⟩ else above false (expFix (fixMul frac ln2Fix)) n

/-- E = e^x for x ≥ 0 in fixed point, `x` at most 512. -/
def expBig (x : Nat) : Nat :=
  let n := x / ln2Fix
  expFix (x - n * ln2Fix) * 2 ^ n

/-- log2 of a positive value. -/
def log2Val (x : Mag) : VfVal :=
  let e := x.log2
  let p := scale x.num x.den (x.exp + fixBits - e)
  if p.1 = fixOne * p.2 then
    (if e = 0 then .code 0 0 else .exact (decide (e < 0)) ⟨e.natAbs, 1, 0⟩)
  else
    let v : Int := e * (fixOne : Nat) + (fixDiv (lnFix (p.1 / p.2)) ln2Fix : Nat)
    if v < 0 then above true (v.natAbs - 1) 0 else above false v.natAbs 0

/-- 1/√x or √x of num · 2^exp (den 1): the root of a fraction scaled by 4^k, exact when nothing is left. -/
def rootVal (p : Nat × Nat) : VfVal :=
  let n := p.1 * 2 ^ 1024 / p.2
  let r := isqrtFrom n 760 0
  if r * r = n ∧ p.1 * 2 ^ 1024 % p.2 = 0 then .exact false ⟨r, 1, -512⟩ else above false r 0

/-- sin(π u) with u = |x| mod 2 in fixed point. -/
def sinPiVal (neg : Bool) (u : Nat) : VfVal :=
  let k := 2 * u / fixOne % 4
  let r := u - k * (fixOne / 2)
  let s := neg != decide (2 ≤ k)
  let quarter := fixOne / 4
  if k % 2 = 0 then
    if r ≤ quarter then above s (sinFix r) 0 else above s (cosFix (fixOne / 2 - r)) 0
  else
    if r ≤ quarter then above s (cosFix r - 1) 0 else above s (sinFix (fixOne / 2 - r)) 0

/-- x mod 2 of a magnitude, exactly, in fixed point. -/
def mod2Fix (x : Mag) : Nat := x.fix % (2 * fixOne)

/-- The zero with a sign. -/
def zeroCode (g : FFmt) (neg : Bool) : VfVal := .code (g.signed neg 0) 0
/-- The default NaN with INV. -/
def invalid (g : FFmt) : VfVal := .code g.nanCode flINV
/-- A signed infinity. -/
def infinity (g : FFmt) (neg : Bool) (fl : Nat) : VfVal := .code (g.signed neg g.infCode) fl

/-! ## The functions (Tables 7.6 and 7.7) -/

def fnExp2 (g : FFmt) : FVal → VfVal
  | .zero _ => unitVal false
  | .inf true => zeroCode g false
  | .inf false => infinity g false 0
  | .nan _ s => .code g.nanCode (if s then flINV else 0)
  | .fin n x => exp2Val n x

def fnLog2 (g : FFmt) : FVal → VfVal
  | .zero _ => infinity g true flDZ
  | .inf true => invalid g
  | .inf false => infinity g false 0
  | .nan _ s => .code g.nanCode (if s then flINV else 0)
  | .fin true _ => invalid g
  | .fin false x => log2Val x

def fnRcp (g : FFmt) : FVal → VfVal
  | .zero n => infinity g n flDZ
  | .inf n => zeroCode g n
  | .nan _ s => .code g.nanCode (if s then flINV else 0)
  | .fin n x => .exact n ⟨x.den, x.num, -x.exp⟩

def fnRsqrt (g : FFmt) : FVal → VfVal
  | .zero n => infinity g n flDZ
  | .inf true => invalid g
  | .inf false => zeroCode g false
  | .nan _ s => .code g.nanCode (if s then flINV else 0)
  | .fin true _ => invalid g
  | .fin false x => rootVal (let p := scale x.num x.den x.exp; (p.2, p.1))

def fnSqrt (g : FFmt) : FVal → VfVal
  | .zero n => zeroCode g n
  | .inf true => invalid g
  | .inf false => infinity g false 0
  | .nan _ s => .code g.nanCode (if s then flINV else 0)
  | .fin true _ => invalid g
  | .fin false x => rootVal (scale x.num x.den x.exp)

def fnSinpi (g : FFmt) : FVal → VfVal
  | .zero n => zeroCode g n
  | .inf _ => invalid g
  | .nan _ s => .code g.nanCode (if s then flINV else 0)
  | .fin n x =>
    let u := mod2Fix x
    if u % fixOne = 0 then zeroCode g n
    else if 2 * u % fixOne = 0 then unitVal (n != decide (fixOne < u))
    else sinPiVal n u

def fnCospi (g : FFmt) : FVal → VfVal
  | .zero _ => unitVal false
  | .inf _ => invalid g
  | .nan _ s => .code g.nanCode (if s then flINV else 0)
  | .fin _ x =>
    let u := mod2Fix x
    if u % fixOne = 0 then unitVal (decide (u = fixOne))
    else if 2 * u % fixOne = 0 then zeroCode g false
    else sinPiVal false ((u + fixOne / 2) % (2 * fixOne))

def fnTanh (g : FFmt) : FVal → VfVal
  | .zero n => zeroCode g n
  | .inf n => unitVal n
  | .nan _ s => .code g.nanCode (if s then flINV else 0)
  | .fin n x =>
    if x.log2 ≥ 7 then above n (fixOne - 2) 0
    else let e := expBig (2 * x.fix); above n (fixDiv (e - fixOne) (e + fixOne) - 1) 0

def fnSigm (g : FFmt) : FVal → VfVal
  | .zero _ => .exact false ⟨1, 1, -1⟩
  | .inf true => zeroCode g false
  | .inf false => unitVal false
  | .nan _ s => .code g.nanCode (if s then flINV else 0)
  | .fin n x =>
    if x.log2 ≥ 8 then above false (if n then 1 else fixOne - 2) 0
    else
      let e := expBig x.fix
      if n then above false (fixDiv fixOne (e + fixOne)) 0 else above false (fixDiv e (e + fixOne) - 1) 0

/-! ## Delivery -/

/-- The value of a magnitude code as if the exponent range went on above. -/
def codeMag (g : FFmt) (m : Nat) : Mag :=
  let e := m / 2 ^ g.mbits
  let f := m % 2 ^ g.mbits
  if e = 0 then ⟨f, 1, 1 - (g.bias : Int) - g.mbits⟩ else ⟨2 ^ g.mbits + f, 1, (e : Int) - g.bias - g.mbits⟩

/-- Whether a code lies within `k` ulp of a value, in units of the last place at the value (R150). -/
def within (g : FFmt) (k : Nat) (v : Mag) (m : Nat) : Bool :=
  let q : Int := max v.log2 (1 - g.bias) - g.mbits
  let c := codeMag g m
  let a := scale c.num c.den (c.exp - q)
  let b := scale v.num v.den (v.exp - q)
  decide ((((a.1 * b.2 : Nat) : Int) - (b.1 * a.2 : Nat)).natAbs ≤ k * (a.2 * b.2))

/-- The magnitude codes within `k` ulp of a value, infinity's included. -/
def candidates (g : FFmt) (k : Nat) (v : Mag) : List Nat :=
  let m := (g.roundMag .rtz false v).1
  ((List.range (2 * k + 4)).map (fun i => m + i)).filterMap (fun i =>
    if k + 1 ≤ i ∧ i - (k + 1) ≤ g.infCode ∧ within g k v (i - (k + 1)) then some (i - (k + 1)) else none)

/-- An f32 value within its bound: the free choice `ch` among the candidates, with the flags of R44. -/
def chooseVal (g : FFmt) (k ch : Nat) (mode : Rnd) (sat neg : Bool) (v : Mag) (exact : Bool) : Nat × Nat :=
  let r := g.roundMag mode neg v
  if r.1 > g.maxFin then g.round mode sat neg v
  else
    let l := candidates g k v
    let m := l.getD (ch % max 1 l.length) r.1
    let inx := !exact || r.2.1 || m != r.1
    if m = g.infCode then (g.signed neg (if sat then g.maxFin else g.infCode), flOVF + flINX)
    else (g.signed neg m, (if inx then flINX else 0) + (if inx && r.2.2 then flUNF else 0))

/-- Delivers a result: correctly rounded, or within `k` ulp in f32 where `k` is not 0. -/
def vfDeliver (fmt k ch : Nat) (g : FFmt) (mode : Rnd) (sat : Bool) : VfVal → Nat × Nat
  | .code c f => (c, f)
  | .exact n m => if fmt = 0xD ∧ k ≠ 0 then chooseVal g k ch mode sat n m true else g.round mode sat n m
  | .approx n m => if fmt = 0xD ∧ k ≠ 0 then chooseVal g k ch mode sat n m false else g.round mode sat n m

/-- Whether a result of Table 7.6 and Table 7.7 is exact in f32 whatever the bound: exp2 of an integer with a normal result, log2
of a power of two, and the special operands. -/
def vfFixed (op : Nat) (g : FFmt) (v : VfVal) : Bool :=
  match v with
  | .code _ _ => true
  | .exact _ m => (op == 0 && decide (1 - (g.bias : Int) ≤ m.log2)) || op == 1 || decide (5 ≤ op)
  | .approx _ _ => false

/-- A vf operation: function `fn` of opcode `op`, bound `k` ulp in f32 (0: correctly rounded). -/
def vfSem (o : VpOps) (op k : Nat) (fn : FFmt → FVal → VfVal) : State → State → Sem :=
  let g := (ffmt o.fmt).getD f16
  vecSem 6 o.t o.o o.fmt o.mask (ruleF.ok o.fmt o.sat o.rnd o.mask) false 20 16 true
    (fun m a b c => mapVals o.fmt m (fun x _ _ =>
      let v := fn g (g.readFlush x)
      vfDeliver o.fmt (if vfFixed op g v then 0 else k) (Config.vfChoice op o.fmt o.rnd x) g (rndOf o.rnd) o.sat v) a b c)

def vfExp2Sem (o : VpOps) : State → State → Sem := vfSem o 0 1 fnExp2
def vfLog2Sem (o : VpOps) : State → State → Sem := vfSem o 1 1 fnLog2
def vfRcpSem (o : VpOps) : State → State → Sem := vfSem o 2 1 fnRcp
def vfRsqrtSem (o : VpOps) : State → State → Sem := vfSem o 3 1 fnRsqrt
def vfSqrtSem (o : VpOps) : State → State → Sem := vfSem o 4 0 fnSqrt
def vfSinpiSem (o : VpOps) : State → State → Sem := vfSem o 5 2 fnSinpi
def vfCospiSem (o : VpOps) : State → State → Sem := vfSem o 6 2 fnCospi
def vfTanhSem (o : VpOps) : State → State → Sem := vfSem o 7 2 fnTanh
def vfSigmSem (o : VpOps) : State → State → Sem := vfSem o 8 2 fnSigm

/-- `fdiv`: T / O, correctly rounded. -/
def vfFdivSem (o : VpOps) : State → State → Sem :=
  let g := (ffmt o.fmt).getD f16
  vecSem 6 o.t o.o o.fmt o.mask (ruleF.ok o.fmt o.sat o.rnd o.mask) true 20 16 true
    (fun m => mapVals o.fmt m (fun x y _ => g.div (rndOf o.rnd) o.sat (g.readFlush x) (g.readFlush y)))

/-! ## The rows -/

/-- VF_EXP2: 2^x per value. -/
def execVfExp2 (o : VpOps) (s : State) : Host.Outcome State Fault Refusal :=
  issueOne 4 (vfExp2Sem o) s
/-- VF_LOG2: log2 x per value. -/
def execVfLog2 (o : VpOps) (s : State) : Host.Outcome State Fault Refusal :=
  issueOne 4 (vfLog2Sem o) s
/-- VF_RCP: Reciprocal per value. -/
def execVfRcp (o : VpOps) (s : State) : Host.Outcome State Fault Refusal :=
  issueOne 4 (vfRcpSem o) s
/-- VF_RSQRT: Reciprocal square root per value. -/
def execVfRsqrt (o : VpOps) (s : State) : Host.Outcome State Fault Refusal :=
  issueOne 4 (vfRsqrtSem o) s
/-- VF_SQRT: Correctly rounded square root. -/
def execVfSqrt (o : VpOps) (s : State) : Host.Outcome State Fault Refusal :=
  issueOne 4 (vfSqrtSem o) s
/-- VF_SINPI: sin(pi x) per value. -/
def execVfSinpi (o : VpOps) (s : State) : Host.Outcome State Fault Refusal :=
  issueOne 4 (vfSinpiSem o) s
/-- VF_COSPI: cos(pi x) per value. -/
def execVfCospi (o : VpOps) (s : State) : Host.Outcome State Fault Refusal :=
  issueOne 4 (vfCospiSem o) s
/-- VF_TANH: tanh per value. -/
def execVfTanh (o : VpOps) (s : State) : Host.Outcome State Fault Refusal :=
  issueOne 4 (vfTanhSem o) s
/-- VF_SIGM: Logistic sigmoid per value. -/
def execVfSigm (o : VpOps) (s : State) : Host.Outcome State Fault Refusal :=
  issueOne 4 (vfSigmSem o) s
/-- VF_FDIV: Correctly rounded T / O. -/
def execVfFdiv (o : VpOps) (s : State) : Host.Outcome State Fault Refusal :=
  issueOne 4 (vfFdivSem o) s

end Sys2Proof.Machine
end

