-- ==== Sys2Proof/Machine/Slots.lean ====
section
/-! DEFINITION. What each slot instruction asks for and does, for the bundle that holds it; an event is no slot's. -/

namespace Sys2Proof.Machine

/-- The semantics of a slot instruction, from the state at the start of the bundle and the latches its moves leave (R66). -/
def slotSem : Instr → Option (State → State → Sem)
  | .bundleIssue _ => none
  | .copyMove dst src => some (copyMoveSem dst src)
  | .immediateMove dst imm => some (immediateMoveSem dst imm)
  | .saAdd o => some (saAddSem o)
  | .saSub o => some (saSubSem o)
  | .saMul o => some (saMulSem o)
  | .saMulh o => some (saMulhSem o)
  | .saMulhc o => some (saMulhcSem o)
  | .saDiv o => some (saDivSem o)
  | .saDivc o => some (saDivcSem o)
  | .saRem o => some (saRemSem o)
  | .saRemc o => some (saRemcSem o)
  | .saAnd o => some (saAndSem o)
  | .saOr o => some (saOrSem o)
  | .saXor o => some (saXorSem o)
  | .saAndn o => some (saAndnSem o)
  | .saShl o => some (saShlSem o)
  | .saShr o => some (saShrSem o)
  | .saSra o => some (saSraSem o)
  | .saRotl o => some (saRotlSem o)
  | .saMin o => some (saMinSem o)
  | .saMax o => some (saMaxSem o)
  | .saMinc o => some (saMincSem o)
  | .saMaxc o => some (saMaxcSem o)
  | .saCmpeq o => some (saCmpeqSem o)
  | .saCmpne o => some (saCmpneSem o)
  | .saCmplt o => some (saCmpltSem o)
  | .saCmple o => some (saCmpleSem o)
  | .saCmpltc o => some (saCmpltcSem o)
  | .saCmplec o => some (saCmplecSem o)
  | .saSel o => some (saSelSem o)
  | .saClz o => some (saClzSem o)
  | .saCtz o => some (saCtzSem o)
  | .saPopc o => some (saPopcSem o)
  | .saBext o => some (saBextSem o)
  | .saBins o => some (saBinsSem o)
  | .saSext o => some (saSextSem o)
  | .saZext o => some (saZextSem o)
  | .saMov o => some (saMovSem o)
  | .saFadd o => some (saFaddSem o)
  | .saFmul o => some (saFmulSem o)
  | .saFdiv o => some (saFdivSem o)
  | .saFcvt o => some (saFcvtSem o)
  | .saFcmp o => some (saFcmpSem o)
  | .agLea o => some (agLeaSem o)
  | .agAff o => some (agAffSem o)
  | .agBound o => some (agBoundSem o)
  | .agSpa o => some (agSpaSem o)
  | .agGva o => some (agGvaSem o)
  | .agAdds o => some (agAddsSem o)
  | .ldB o => some (ldBSem o)
  | .ldH o => some (ldHSem o)
  | .ldW o => some (ldWSem o)
  | .ldD o => some (ldDSem o)
  | .ldQ o => some (ldQSem o)
  | .ldsB o => some (ldsBSem o)
  | .ldsH o => some (ldsHSem o)
  | .ldsW o => some (ldsWSem o)
  | .stB o => some (stBSem o)
  | .stH o => some (stHSem o)
  | .stW o => some (stWSem o)
  | .stD o => some (stDSem o)
  | .stQ o => some (stQSem o)
  | .vld o => some (vldSem o)
  | .vst o => some (vstSem o)
  | .vldg o => some (vldgSem o)
  | .vstg o => some (vstgSem o)
  | .vldx o => some (vldxSem o)
  | .vstx o => some (vstxSem o)
  | .amoAddW o => some (amoAddWSem o)
  | .amoMinW o => some (amoMinWSem o)
  | .amoMaxW o => some (amoMaxWSem o)
  | .amoMincW o => some (amoMincWSem o)
  | .amoMaxcW o => some (amoMaxcWSem o)
  | .amoAndW o => some (amoAndWSem o)
  | .amoOrW o => some (amoOrWSem o)
  | .amoXorW o => some (amoXorWSem o)
  | .amoXchgW o => some (amoXchgWSem o)
  | .amoCasW o => some (amoCasWSem o)
  | .amoFaddW o => some (amoFaddWSem o)
  | .amoIncwW o => some (amoIncwWSem o)
  | .amoAddD o => some (amoAddDSem o)
  | .amoMinD o => some (amoMinDSem o)
  | .amoMaxD o => some (amoMaxDSem o)
  | .amoMincD o => some (amoMincDSem o)
  | .amoMaxcD o => some (amoMaxcDSem o)
  | .amoAndD o => some (amoAndDSem o)
  | .amoOrD o => some (amoOrDSem o)
  | .amoXorD o => some (amoXorDSem o)
  | .amoXchgD o => some (amoXchgDSem o)
  | .amoCasD o => some (amoCasDSem o)
  | .amoFaddD o => some (amoFaddDSem o)
  | .amoIncwD o => some (amoIncwDSem o)
  | .amoCasQ o => some (amoCasQSem o)
  | .redAdd o => some (redAddSem o)
  | .redMin o => some (redMinSem o)
  | .redMax o => some (redMaxSem o)
  | .redAnd o => some (redAndSem o)
  | .redOr o => some (redOrSem o)
  | .redXor o => some (redXorSem o)
  | .redFadd o => some (redFaddSem o)
  | .redFaddh o => some (redFaddhSem o)
  | .vaAdd o => some (vaAddSem o)
  | .vaSub o => some (vaSubSem o)
  | .vaMul o => some (vaMulSem o)
  | .vaMulh o => some (vaMulhSem o)
  | .vaMulhr o => some (vaMulhrSem o)
  | .vaMad o => some (vaMadSem o)
  | .vaAbs o => some (vaAbsSem o)
  | .vaNeg o => some (vaNegSem o)
  | .vaMin o => some (vaMinSem o)
  | .vaMax o => some (vaMaxSem o)
  | .vaAvg o => some (vaAvgSem o)
  | .vaAbsd o => some (vaAbsdSem o)
  | .vaAnd o => some (vaAndSem o)
  | .vaOr o => some (vaOrSem o)
  | .vaXor o => some (vaXorSem o)
  | .vaNot o => some (vaNotSem o)
  | .vaLut3 o => some (vaLut3Sem o)
  | .vaShl o => some (vaShlSem o)
  | .vaShr o => some (vaShrSem o)
  | .vaSra o => some (vaSraSem o)
  | .vaShlr o => some (vaShlrSem o)
  | .vaFshl o => some (vaFshlSem o)
  | .vaFshlImm o => some (vaFshlImmSem o)
  | .vaFshr o => some (vaFshrSem o)
  | .vaFshrImm o => some (vaFshrImmSem o)
  | .vaCmpeq o => some (vaCmpeqSem o)
  | .vaCmpne o => some (vaCmpneSem o)
  | .vaCmplt o => some (vaCmpltSem o)
  | .vaCmple o => some (vaCmpleSem o)
  | .vaSel o => some (vaSelSem o)
  | .vaClamp o => some (vaClampSem o)
  | .vaPopc o => some (vaPopcSem o)
  | .vaClz o => some (vaClzSem o)
  | .vaMov o => some (vaMovSem o)
  | .vaFadd o => some (vaFaddSem o)
  | .vaFsub o => some (vaFsubSem o)
  | .vaFmul o => some (vaFmulSem o)
  | .vaFma o => some (vaFmaSem o)
  | .vaFmin o => some (vaFminSem o)
  | .vaFmax o => some (vaFmaxSem o)
  | .vaMulsh o => some (vaMulshSem o)
  | .vpRotr o => some (vpRotrSem o)
  | .vpRotc o => some (vpRotcSem o)
  | .vpBcrow o => some (vpBcrowSem o)
  | .vpBccol o => some (vpBccolSem o)
  | .vpRedrAdd o => some (vpRedrAddSem o)
  | .vpRedrMax o => some (vpRedrMaxSem o)
  | .vpRedrMin o => some (vpRedrMinSem o)
  | .vpRedcAdd o => some (vpRedcAddSem o)
  | .vpRedcMax o => some (vpRedcMaxSem o)
  | .vpRedcMin o => some (vpRedcMinSem o)
  | .vpTrn o => some (vpTrnSem o)
  | .vpPerm o => some (vpPermSem o)
  | .vpPermImm o => some (vpPermImmSem o)
  | .vpZip o => some (vpZipSem o)
  | .vpUnzip o => some (vpUnzipSem o)
  | .vpShiftr o => some (vpShiftrSem o)
  | .vpShiftc o => some (vpShiftcSem o)
  | .vpScanrAdd o => some (vpScanrAddSem o)
  | .vpScancAdd o => some (vpScancAddSem o)
  | .vfExp2 o => some (vfExp2Sem o)
  | .vfLog2 o => some (vfLog2Sem o)
  | .vfRcp o => some (vfRcpSem o)
  | .vfRsqrt o => some (vfRsqrtSem o)
  | .vfSqrt o => some (vfSqrtSem o)
  | .vfSinpi o => some (vfSinpiSem o)
  | .vfCospi o => some (vfCospiSem o)
  | .vfTanh o => some (vfTanhSem o)
  | .vfSigm o => some (vfSigmSem o)
  | .vfFdiv o => some (vfFdivSem o)
  | .vcCvt o => some (vcCvtSem o)
  | .vcCvts o => some (vcCvtsSem o)
  | .vcQblk o => some (vcQblkSem o)
  | .vcDqblk o => some (vcDqblkSem o)
  | .vcQts8 o => some (vcQts8Sem o)
  | .vcDqts8 o => some (vcDqts8Sem o)
  | .vcUnpk10 o => some (vcUnpk10Sem o)
  | .vcUnpk12 o => some (vcUnpk12Sem o)
  | .vcUnpk14 o => some (vcUnpk14Sem o)
  | .vcPk10 o => some (vcPk10Sem o)
  | .vcPk12 o => some (vcPk12Sem o)
  | .vcPk14 o => some (vcPk14Sem o)
  | .vcSwap16 o => some (vcSwap16Sem o)
  | .mstep o => some (mstepSem o)
  | .mstepG o => some (mstepGSem o)
  | .mpre o => some (mpreSem o)
  | .mstepWs o => some (mstepWsSem o)
  | .mfin o => some (mfinSem o)
  | .mzero o => some (mzeroSem o)
  | .mcorr o => some (mcorrSem o)
  | .mcld o => some (mcldSem o)
  | .mcinv o => some (mcinvSem o)
  | .mscl o => some (msclSem o)
  | .cpy o => some (cpySem o)
  | .cpyf o => some (cpyfSem o)
  | .cpyt o => some (cpytSem o)
  | .lblk o => some (lblkSem o)
  | .eblk o => some (eblkSem o)
  | .put o => some (putSem o)
  | .sread o => some (sreadSem o)
  | .swrite o => some (swriteSem o)
  | .cfill o => some (cfillSem o)
  | .xcpy o => some (xcpySem o)
  | .nput o => some (nputSem o)
  | .nget o => some (ngetSem o)
  | .nref o => some (nrefSem o)
  | .nrel o => some (nrelSem o)
  | .nswap o => some (nswapSem o)
  | .nout o => some (noutSem o)
  | .nstat o => some (nstatSem o)
  | .br off => some (brSem off)
  | .brk off k sense => some (brkSem off k sense)
  | .call off => some (callSem off)
  | .jmp src link => some (jmpSem src link)
  | .loop cnt off imm => some (loopSem cnt off imm)
  | .lbrk n cond sense k => some (lbrkSem n cond sense k)
  | .twait src soft => some (twaitSem src soft)
  | .cwait a sreg scope => some (cwaitSem a sreg scope)
  | .fence kind scope => some (fenceSem kind scope)
  | .fmtw reg src => some (fmtwSem reg src)
  | .sget dst sys => some (sgetSem dst sys)
  | .sgetFpstat dst => some (sgetFpstatSem dst)
  | .sset src sys => some (ssetSem src sys)
  | .ssetSplit src => some (ssetSplitSem src)
  | .ssetDict src => some (ssetDictSem src)
  | .ssetVwin src => some (ssetVwinSem src)
  | .ssetNreg src => some (ssetNregSem src)
  | .ssetLdepth src => some (ssetLdepthSem src)
  | .fpstatClear src => some (fpstatClearSem src)
  | .gmset g n => some (gmsetSem g n)
  | .bacq mask => some (bacqSem mask)
  | .brel mask => some (brelSem mask)
  | .qpush a sreg nb => some (qpushSem a sreg nb)
  | .trap code => some (trapSem code)
  | .cwb a sreg => some (cwbSem a sreg)
  | .iinv a sreg => some (iinvSem a sreg)
  | .brkp code => some (brkpSem code)
  | .tokc src => some (tokcSem src)
  | .mxNop => some mxNopSem
  | .cpNop => some cpNopSem
  | .ctNop => some ctNopSem
  | .ret => some retSem
  | .drain => some drainSem
  | .xfence => some xfenceSem
  | .halt => some haltSem
  | .tret => some tretSem
  | .ppt => some pptSem
  | .fsync => some fsyncSem
  | .ewait => some ewaitSem
  | .yield => some yieldSem
  | .fuResultLand _ _ => none
  | .landingDue _ _ => none
  | .landingDataArrival _ _ _ => none
  | .slackExpire _ => none
  | .starvationIssue _ => none
  | .yieldExpire _ => none
  | .formatShadowEnd _ => none
  | .dictRefillComplete _ _ => none
  | .pageWalkComplete _ _ => none
  | .matrixEngineStart _ _ => none
  | .matrixComplete _ _ => none
  | .copyEngineStart _ _ => none
  | .flumeBlock _ _ => none
  | .copyComplete _ _ => none
  | .reclaimDecrement _ _ => none
  | .ordinalRelease _ _ => none
  | .nvmeCompletion _ _ _ => none
  | .storageTimeout _ => none
  | .twaitComplete _ => none
  | .cwaitComplete _ => none
  | .drainComplete _ => none
  | .xfenceComplete _ => none
  | .splitConvert _ => none
  | .bacqGrant _ => none
  | .qpushSlotFree _ => none
  | .fsyncComplete _ => none
  | .ewaitComplete _ => none
  | .weirArrive _ => none
  | .weirRelease _ => none
  | .superstepRelease _ => none
  | .trapEntry _ => none
  | .preemptSave _ => none
  | .preemptDeadline _ => none
  | .jobResume _ => none
  | .queueEnable _ => none
  | .queueDisable _ => none
  | .queueReset _ => none
  | .regionInstallRequest _ => none
  | .regionRemoveRequest _ => none
  | .regionRemove _ => none
  | .evrdWrite _ => none
  | .attestRequest _ => none
  | .bar0Write _ _ _ => none
  | .packetValidate _ => none
  | .launch _ => none
  | .jobBind _ => none
  | .wait _ => none
  | .signal _ => none
  | .node _ => none
  | .nodeRun _ => none
  | .copy _ => none
  | .tlbi _ => none
  | .role _ => none
  | .roleGraceExpire => none
  | .roleDrainEnd => none
  | .roleFlushEnd => none
  | .snap _ => none
  | .query _ => none
  | .packetComplete _ => none
  | .jobComplete _ => none
  | .deviceReset => none
  | .bootStage => none
  | .retrainDue _ => none
  | .retrainForced _ => none
  | .retrainEnd _ _ _ => none
  | .hostPostedWrite _ _ _ => none
  | .hostRead _ _ => none
  | .hostAtomicop _ _ _ _ _ => none
  | .peerAccess _ _ _ => none
  | .flitReceive _ _ => none
  | .powerLimitInterval => none
  | .thermalLimitInterval _ => none
  | .scrubVisit _ _ => none
  | .indexWordFetchComplete _ => none
  | .landingStoreAccepted _ _ => none
  | .cxlCacheSnoop _ _ => none
  | .leatPortDown _ => none
  | .leatPortTrained _ _ => none
  | .aerUncorrectableError _ => none

end Sys2Proof.Machine
end

