-- ==== Sys2Proof/Machine/Bundle.lean ====
section
/-! DEFINITION. Issuing the bundle at a context's PC (R52 to R58, R66, R74, R83, R293): the traps that wait for it, its fetch, its
slots together. -/

namespace Sys2Proof.Machine

/-- Whether a wait is a stall of Table 4.2, which holds the issue for its slack; run-on waits and the wait for a save are not. -/
def Wait.stalls : Wait → Bool
  | .fpstat _ _ => false
  | .entry _ _ _ _ => false
  | .save _ => false
  | .tokens _ _ => true
  | .counter _ _ => true
  | .drain => true
  | .xfence => true
  | .fsync => true
  | .engines => true
  | .ways _ => true
  | .push _ _ => true
  | .weir _ _ _ _ _ => true
  | .split _ => true

/-- The slots of a bundle that are not nops, with their codes; a bundle of nops alone is its control slot's (R72). -/
def bundleWork (b : Bundle) : List (Nat × Instr) :=
  match b.slots.filter (fun p => !p.2.isNop) with
  | [] => [(3, .ctNop)]
  | l => l

/-- The semantics of slots. -/
def bundleSems (s : State) (l : List (Nat × Instr)) : List (Nat × Sem) :=
  semsOf (l.filterMap (fun p => (slotSem p.2).map (fun f => (p.1, f)))) s

/-- A bundle of 384 bits that took `len` words is decoded and issued. -/
def issueBits (s : State) (c b len : Nat) : State :=
  match decodeBundle b with
  | .error k => trapBundle s c 0x01 k (if len = 25 then 1 else 0)
  | .ok g => issueSlots s c len g.hdr (bundleSems s (bundleWork g))

/-- The context waits for dictionary entry `n` to be refilled (R57): a stall with slack 0, its bundle's header not being known (R83; DESIGN
CHOICE, notes/assumptions/53.md). -/
def awaitRefill (s : State) (c n : Nat) : State :=
  let s1 := beginStall s c Header.none []
  let old := look [] s1.fetches (coreOf c)
  if old.contains (.refill c n) then s1 else { s1 with fetches := put s1.fetches (coreOf c) (old ++ [.refill c n]) }

/-- The next bundle of a context that no wait and no waiting trap holds back. One whose index words are missing stalls with slack 0, its header
not being known (R83; DESIGN CHOICE, notes/assumptions/53.md). -/
def fetchAndIssue (s : State) (c : Nat) : State :=
  match s.fetch c with
  | .trap cause tval lit => trapBundle s c cause tval lit
  | .words => beginStall s c Header.none []
  | .refill n => awaitRefill s c n
  | .bundle b len => issueBits s c b len

/-- The issue-time trap of the next bundle, with its value and whether it is a literal; none where it would issue or waits. -/
def State.nextTrap (s : State) (c : Nat) : Option (Nat × Nat × Nat) :=
  match s.fetch c with
  | .trap cause tval lit => some (cause, tval, lit)
  | .bundle b len =>
    match decodeBundle b with
    | .error k => some (0x01, k, if len = 25 then 1 else 0)
    | .ok g =>
      match attemptSlots s c g.hdr (bundleSems s (bundleWork g)) with
      | .trap cause tval => some (cause, tval, if len = 25 then 1 else 0)
      | _ => none
  | _ => none

/-- An enabled FP exception of the operation started at `b` enters before the next bundle of context `c`; where that bundle
traps at issue, that trap is taken and the exception is merged into it (R50, R294). -/
def enterFpx (s : State) (c b : Nat) : State :=
  match s.nextTrap c with
  | some t => trapBundle s c t.1 t.2.1 t.2.2
  | none => trapBundle s c 0x0E b (s.litAt c (s.ctx c).seq.pc)

/-- BUNDLE_ISSUE: a trap due before the next bundle is taken in its place (R293, R294); else the bundle is fetched and issued. -/
def issueBundle (s0 : State) (c : Nat) : State :=
  let x := s0.ctx c
  if x.resident ∧ x.seq.wake ≤ s0.clock then
    match x.seq.wait with
    | some w => if w.stalls ∧ x.sched.stall.isNone then beginStall s0 c (s0.nextHeader c) [] else s0
    | none =>
      let s := { s0 with cur := c }.settled c
      match (s.ctx c).seq.pend, (s.ctx c).seq.fpx with
      | some p, _ => trapBundle s c p.cause p.tval (s.litAt c x.seq.pc)
      | none, some b => enterFpx s c b
      | none, none => fetchAndIssue s c
  else s0

/-- R86: whether a context takes part in the selection. -/
def State.ready (s : State) (c : Nat) : Bool :=
  let x := s.ctx c
  x.resident && decide (x.seq.wake ≤ s.clock) && x.sched.stall.isNone && (match x.seq.wait with | some w => w.stalls | none => true)

/-- R86 step 2: whether it has been ready and unissued for 4,096 cycles. -/
def State.starved (s : State) (c : Nat) : Bool := s.ready c && decide ((s.ctx c).sched.readySince + 4096 ≤ s.clock)

/-- R80: landing access `n` of a context is due: everything due lands, or the context freezes. -/
def landingDue (s : State) (c n : Nat) : State :=
  match s.flight c n with
  | some f =>
    let x := s.ctx c
    if x.bound ∧ f.landing.isSome ∧ f.hi ≤ x.seq.cyc then
      if x.missing x.seq.cyc then
        if s.ready c ∧ x.seq.wait.isNone then beginStall s c (s.nextHeader c) [] else s
      else (s.modCtx c (fun y => y.settle (s.landDraw c))).draw
    else s
  | none => s

/-! ## The rows -/

/-- BUNDLE_ISSUE: a context issues one whole bundle. -/
def execBundleIssue (c : Nat) (s : State) : Host.Outcome State Fault Refusal := .next (issueBundle s c)
/-- STARVATION_ISSUE: a context ready and unissued for 4,096 cycles issues one bundle. -/
def execStarvationIssue (c : Nat) (s : State) : Host.Outcome State Fault Refusal := .next (if s.starved c then issueBundle s c else s)
/-- LANDING_DUE: a landing access reaches its due cycle. -/
def execLandingDue (c n : Nat) (s : State) : Host.Outcome State Fault Refusal := .next (landingDue s c n)

end Sys2Proof.Machine
end

