-- ==== Sys2Proof/Machine/Ecdsa.lean ====
section
/-! DEFINITION. ECDSA over P-521 with SHA-512 (Table 5.2, R361 to R363): verifying and making a signature. The curve is that of
FIPS 186-4 (PRESUMED; notes/assumptions/50.md). -/

namespace Sys2Proof.Machine

/-- The field of P-521. -/
def p521 : Nat := 2 ^ 521 - 1
/-- The coefficient b of y² = x³ − 3x + b. -/
def p521B : Nat :=
  0x51953EB9618E1C9A1F929A21A0B68540EEA2DA725B99B315F3B8B489918EF109E156193951EC7E937B1652C0BD3BB1BF073573DF883D2C34F1EF451FD46B503F00
/-- The order of the base point. -/
def p521N : Nat :=
  0x1FFFFFFFFFFFFFFFFFFFFFFFFFFFFFFFFFFFFFFFFFFFFFFFFFFFFFFFFFFFFFFFFFA51868783BF2F966B7FCC0148F709A5D03BB5C9B8899C47AEBB6FB71E91386409

/-- A point; none is the point at infinity. -/
abbrev Point := Option (Nat × Nat)

/-- The base point. -/
def p521G : Point := some
  (0xC6858E06B70404E9CD9E3ECB662395B4429C648139053FB521F828AF606B4D3DBAA14B5E77EFE75928FE1DC127A2FFA8DE3348B3C1856A429BF97E7E31C2E5BD66,
   0x11839296A789A3BC0045C8A5FB42C7D1BD998F54449579B446817AFBD17273E662C97EE72995EF42640C550B9013FAD0761353C7086A272C24088BE94769FD16650)

/-- x^e modulo m, by the `n` low bits of e. -/
def powMod (m x : Nat) : Nat → Nat → Nat
  | 0, _ => 1 % m
  | n + 1, e => (let r := powMod m (x * x % m) n (e / 2); if e % 2 = 1 then r * x % m else r)

/-- The inverse modulo a prime of at most 521 bits. -/
def invMod (m x : Nat) : Nat := powMod m (x % m) 521 (m - 2)

/-- Difference modulo p. -/
def subP (a b : Nat) : Nat := (a + p521 - b % p521) % p521

/-- The third point of a line of slope `l` through (x, y) and abscissa `x2`, reflected. -/
def lineP (l x y x2 : Nat) : Point := (let x3 := subP (subP (l * l % p521) x) x2; some (x3, subP (l * subP x x3 % p521) y))

/-- Sum of two points. -/
def addP : Point → Point → Point
  | none, q => q
  | p, none => p
  | some (x, y), some (u, v) =>
    if x = u then
      if (y + v) % p521 = 0 then none
      else lineP (subP (3 * x * x) 3 * invMod p521 (2 * y) % p521) x y u
    else lineP (subP v y * invMod p521 (subP u x) % p521) x y u

/-- k · P by the `n` low bits of k. -/
def mulP (q : Point) : Nat → Nat → Point
  | 0, _ => none
  | n + 1, k => (let r := mulP (addP q q) n (k / 2); if k % 2 = 1 then addP r q else r)

/-- Whether a pair lies on the curve. -/
def onCurve (x y : Nat) : Bool :=
  decide (x < p521) && decide (y < p521) && (y * y) % p521 == subP (x * x * x + p521B) (3 * x)

/-- A digest of 64 bytes as a number. -/
def digestNat (d : List Nat) : Nat := beNat d

/-- Whether (r, s) signs a digest under the public key of 133 bytes, uncompressed. -/
def ecdsaVerify (key digest : List Nat) (r s : Nat) : Bool :=
  let x := beNat ((key.drop 1).take 66)
  let y := beNat ((key.drop 67).take 66)
  let w := invMod p521N s
  let e := digestNat digest
  key.length == 133 && key.getD 0 0 == 4 && onCurve x y && decide (0 < r ∧ r < p521N) && decide (0 < s ∧ s < p521N) &&
    (match addP (mulP p521G 521 (e * w % p521N)) (mulP (some (x, y)) 521 (r * w % p521N)) with
      | some q => q.1 % p521N == r
      | none => false)

/-- The public key of private key `d`, 133 bytes. -/
def ecdsaPublic (d : Nat) : List Nat :=
  match mulP p521G 521 (d % p521N) with
  | some q => 4 :: beBytes 66 q.1 ++ beBytes 66 q.2
  | none => List.replicate 133 0

/-- A signature of a digest by private key `d` with nonce `k`: r then s, 66 bytes each. -/
def ecdsaSign (d k : Nat) (digest : List Nat) : List Nat :=
  let r := (mulP p521G 521 (k % p521N)).elim 0 (·.1) % p521N
  beBytes 66 r ++ beBytes 66 (invMod p521N k * (digestNat digest + r * d) % p521N)

/-- Whether a signature block (key identifier, r, s: 148 bytes) of `body` is valid under one of `keys` (R362). -/
def signedBy (keys : List (List Nat)) (sig body : List Nat) : Bool :=
  let r := beNat ((sig.drop 16).take 66)
  let s := beNat ((sig.drop 82).take 66)
  keys.any (fun k => (sha512 k).take 16 == sig.take 16 && ecdsaVerify k (sha512 body) r s)

end Sys2Proof.Machine
end

