-- ==== Sys2Proof/Machine/Naming.lean ====
section
/-! DEFINITION. Naming many lines as the Miller does (R97, R372): leaves, and the nodes of a tree of least depth over them. -/

namespace Sys2Proof.Machine

/-- What naming has come to: the region, the names given in order, what lookups allocated as (name, line), a failure. -/
structure Naming where
  reg : Region
  names : List Nat
  recs : List (Nat × Nat)
  fail : Option Named

/-- Names lines in order as leaves or nodes; a zero line has the zero name. -/
def nameLines (node : Bool) : List Nat → Naming → Naming
  | [], g => g
  | l :: r, g =>
    if l = 0 then nameLines node r { g with names := g.names ++ [0] }
    else
      let a := g.reg.lookup node l
      match a.2 with
      | .name v new => nameLines node r { g with reg := a.1, names := g.names ++ [v], recs := if new then g.recs ++ [(v, l)] else g.recs }
      | f => { g with reg := a.1, fail := some f }

/-- Releases names, the zero name apart. -/
def dropNames (g : Region) (l : List Nat) : Region := (l.filter (fun v => v != 0)).foldl Region.dec g

/-- Node lines over names, eight by eight (R244). -/
def nodeLines : Nat → List Nat → List Nat
  | 0, _ => []
  | n + 1, l => if l = [] then [] else packVals 128 (l.take 8) :: nodeLines n (l.drop 8)

/-- `d` levels of nodes over the names of `g`, which keep no count of their own once their node holds one; a failure releases all. -/
def nameLevels : Nat → Naming → Naming
  | 0, g => g
  | d + 1, g =>
    let h := nameLines true (nodeLines g.names.length g.names) { g with names := [] }
    match h.fail with
    | some _ => { h with reg := dropNames h.reg (h.names ++ g.names), names := [] }
    | none => nameLevels d { h with reg := dropNames h.reg g.names }

/-- The least depth of a tree of `n` leaves, at least `d`; `fuel` bounds it. -/
def treeDepth (n : Nat) : Nat → Nat → Nat
  | 0, d => d
  | fuel + 1, d => if n ≤ 8 ^ d then d else treeDepth n fuel (d + 1)

/-- Names lines as a tree of depth `d`: the root is the one name left. -/
def nameTree (g : Region) (lines : List Nat) (d : Nat) : Naming :=
  let h := nameLines false lines ⟨g, [], [], none⟩
  match h.fail with
  | some _ => { h with reg := dropNames h.reg h.names, names := [] }
  | none => nameLevels d h

/-- The root of a tree. -/
def Naming.root (g : Naming) : Nat := g.names.headD 0

/-- Bytes as lines of 128, the last padded with zero. -/
def toLines : Nat → List Nat → List Nat
  | 0, _ => []
  | n + 1, bs => if bs = [] then [] else leNat (bs.take 128) :: toLines n (bs.drop 128)

end Sys2Proof.Machine
end

