-- ==== Sys2Proof/Machine/Places.lean ====
section
/-! DEFINITION. Places (R24, R353 to R355): which places are free, binding a placement shape to clusters, the jobs that wait, and
the pre-emptions that make room. -/

namespace Sys2Proof.Machine

/-! ## Jobs -/

/-- The jobs by number. -/
def State.jobList (s : State) : List (Nat × Job) := s.miller.jobs
/-- Whether a context is bound to job `j`. -/
def Ctx.ofJob (x : Ctx) (j : Nat) : Bool := x.bound && x.sched.job == j
/-- The bound contexts of job `j`. -/
def State.ctxsOfJob (s : State) (j : Nat) : List Nat := (s.ctxs.filter (fun p => p.2.ofJob j)).map (·.1)
/-- Whether a pre-emption of job `j` is under way: some of it is saved, or asked to be. -/
def State.preempting (s : State) (j : Nat) : Bool :=
  !(s.loaded j).saved.isEmpty || s.ctxs.any (fun p => p.2.ofJob j && p.2.sched.preempt.isSome)

/-! ## Free places (R353) -/

/-- The physical die of a relative die. -/
def physDie (r : Nat) : Nat := 3 - r
/-- A context by its coordinates. -/
def ctxNumber (die cluster core ctx : Nat) : Nat := 4 * (128 * die + 4 * cluster + core) + ctx
/-- Whether die `d` is a compute die with its clusters ready (R353, R364). -/
def State.dieReady (s : State) (d : Nat) : Bool := bitAt s.boot.cmask d && bitAt s.boot.ready d
/-- Whether a role change under way affects die `d` (R330, R331). -/
def State.dieLeaving (s : State) (d : Nat) : Bool :=
  match s.boot.chg with
  | some g => bitAt g.cmask d != bitAt s.boot.cmask d
  | none => false

/-- Whether context `c` is free for place `p` of job `j`, the jobs `vs` counted as gone. -/
def State.placeOpen (s : State) (vs : List Nat) (j c : Nat) (p : Place) : Bool :=
  let k := coreOf c
  let gone := fun (y : Ctx) => !y.bound || vs.contains y.sched.job
  gone (s.ctx c) &&
    (List.range 16).all (fun w => !bitAt p.ways w ||
      (match s.way k w with
        | .cache => true
        | .owned i d => (i == j && d == c) || vs.contains i
        | .released _ _ => false)) &&
    (ctxsOf k).all (fun d => gone (s.ctx d) ||
      ((s.ctx d).incomingWays &&& p.ways == 0 && !windowsMeet p.vbase p.vcount (s.ctx d).win.vbase (s.ctx d).win.vcount))

/-! ## Binding a shape (R24, R353) -/

/-- The cluster of the shape that an entry names. -/
def Place.key (p : Place) : Nat × Nat := (p.die, p.cluster)
/-- The context of an entry on physical cluster `c`. -/
def Place.on (p : Place) (c : Nat) : Nat := ctxNumber (physDie p.die) c p.core p.ctx

/-- Assigns distinct physical clusters to the clusters of a shape: `fits key cluster` tells which may be, `try_` the order in which
they are tried. -/
def assign (fits : Nat × Nat → Nat → Bool) (try_ : List Nat) : List (Nat × Nat) → List (Nat × Nat) → Option (List ((Nat × Nat) × Nat))
  | [], _ => some []
  | k :: r, used =>
    try_.findSome? (fun c =>
      if !used.contains (k.1, c) && fits k c then (assign fits try_ r ((k.1, c) :: used)).map (fun l => (k, c) :: l) else none)

/-- The physical clusters in an order that a free value turns: which of equivalent clusters the Miller takes is open (R24). -/
def State.clusterOrder (s : State) : List Nat := (List.range 32).map (fun i => (i + s.free 9000) % 32)

/-- Binds entries for job `j`, the jobs `vs` counted as gone and the assignments of `fixed` kept: every entry with its context. -/
def State.plan (s : State) (j : Nat) (vs : List Nat) (fixed : List ((Nat × Nat) × Nat)) (ps : List Place) : Option (List Place) :=
  let fits := fun (k : Nat × Nat) (c : Nat) =>
    s.dieReady (physDie k.1) && !s.dieLeaving (physDie k.1) &&
      fixed.all (fun f => (f.1 != k || f.2 == c) && (f.1 == k || !(f.1.1 == k.1 && f.2 == c))) &&
      ps.all (fun p => p.key != k || s.placeOpen vs j (p.on c) p)
  (assign fits s.clusterOrder ((ps.map Place.key).eraseDups) []).map (fun m =>
    ps.map (fun p => { p with bound := p.on ((m.find? (fun f => f.1 == p.key)).elim 0 (·.2)) }))

/-- Whether a shape of `n` dies fits the compute dies of the current profile, whatever of it the entries use (R24, R355). -/
def State.shapeFits (s : State) (n : Nat) : Bool := decide (n < 4) && (List.range n).all (fun d => bitAt s.boot.cmask (physDie d))

/-- Whether the places of a plan are free now. -/
def State.planFree (s : State) (j : Nat) (ps : List Place) : Bool :=
  ps.all (fun p => s.dieReady (dieOf (coreOf p.bound)) && !s.dieLeaving (dieOf (coreOf p.bound)) && s.placeOpen [] j p.bound p)

/-! ## Requests of pre-emption (R304, R355) -/

/-- The Miller requests the pre-emption of context `c`. -/
def requestPreempt (s : State) (c : Nat) : State :=
  s.modCtx c (fun x =>
    match x.sched.preempt with
    | some _ => x
    | none => { x with sched := { x.sched with preempt := some (s.clock, s.clock + x.traps.predl) } })

/-- Requests the pre-emption of every context of job `j`. -/
def requestJob (s : State) (j : Nat) : State := (s.ctxsOfJob j).foldl requestPreempt s

/-- Whether `a` is pre-empted before `b`: the lower priority first, within one the most recently bound (R355). -/
def Job.goesBefore (a b : Job) : Bool := decide (a.prio < b.prio ∨ (a.prio = b.prio ∧ b.order < a.order))

/-- Inserts a job into a list in the order of R355. -/
def insertVictim (v : Nat × Job) : List (Nat × Job) → List (Nat × Job)
  | [] => [v]
  | a :: r => if v.2.goesBefore a.2 then v :: a :: r else a :: insertVictim v r

/-- The running jobs of a priority below `p`, in the order in which they are chosen. -/
def State.victims (s : State) (p : Nat) : List Nat :=
  ((s.jobList.filter (fun j => j.2.st == 1 && decide (j.2.prio < p))).foldl (fun l v => insertVictim v l) []).map (·.1)

/-- The first of the growing prefixes of `vs` for which entries can be bound, with the binding. -/
def State.planOver (s : State) (j : Nat) (ps : List Place) : List Nat → List Nat → Option (List Nat × List Place)
  | taken, [] => (s.plan j taken [] ps).map (fun l => (taken, l))
  | taken, v :: r =>
    match s.plan j taken [] ps with
    | some l => some (taken, l)
    | none => s.planOver j ps (taken ++ [v]) r

/-- R354: whether another job goes first: an untaken LAUNCH of a higher priority, or one of the same that asked earlier, or a
pre-empted job; a job whose shape fits no die of the profile holds nobody back. -/
def State.heldBack (s : State) (j : Nat) (b : Job) : Bool :=
  s.jobList.any (fun o =>
    o.1 != j && s.shapeFits (s.loaded o.1).dies &&
      ((o.2.st == 0 && (decide (b.prio < o.2.prio) || (o.2.prio == b.prio && decide (o.1 < j) && b.st == 0))) ||
        (o.2.st == 2 && (decide (b.prio < o.2.prio) || (o.2.prio == b.prio && (b.st == 0 || decide (o.2.order < b.order)))))))

end Sys2Proof.Machine
end

