-- ==== Sys2Proof/Machine/Packet.lean ====
section
/-! DEFINITION. Packets (R339 to R346, Tables 20.4 to 20.7, 19.4, 19.7): reading them from their rings, the checks of a head packet,
wait conditions, and the queue whose turn it is (R354). -/

namespace Sys2Proof.Machine

/-! ## Fields -/

/-- Byte `n` of a packet or body. -/
def pktByte (p n : Nat) : Nat := fld p (8 * n) 8
/-- `len` bytes at offset `n`. -/
def pktField (p n len : Nat) : Nat := fld p (8 * n) (8 * len)

def pktType (p : Nat) : Nat := pktByte p 0
/-- Slots by the size field. -/
def pktSlots (p : Nat) : Nat := fld p 8 2 + 1
def pktNotify (p : Nat) : Bool := bitAt p 10
def pktFence (p : Nat) : Bool := bitAt p 11
def pktSigerr (p : Nat) : Bool := bitAt p 12
def pktPrio (p : Nat) : Nat := pktByte p 2
def pktTag (p : Nat) : Nat := pktField p 4 4
def pktSigAddr (p : Nat) : Nat := pktField p 0x28 8
def pktSigVal (p : Nat) : Nat := pktField p 0x30 8
/-- Wait condition `i`: address and value. -/
def pktWait (p i : Nat) : Nat × Nat := (pktField p (8 + 16 * i) 8, pktField p (16 + 16 * i) 8)

/-- Sum of the bytes of a packet of `n` bytes. -/
def byteSum (p : Nat) : Nat → Nat
  | 0 => 0
  | n + 1 => p % 256 + byteSum (p / 256) n

/-- The `n` slots of queue `q` from index `k` on, as one number (R339, R341). -/
def State.slotsAt (s : State) (q : Queue) (k : Nat) : Nat → Nat
  | 0 => 0
  | n + 1 => s.readN q.ringSpace (q.ring + 64 * (k % q.slots)) 64 + 2 ^ 512 * s.slotsAt q (k + 1) n

/-! ## Addresses of the Miller (R341) -/

/-- What the Miller finds at an address: physical for host-side packets, virtual of the pushing job for device-side ones. -/
inductive MHit where
  | ok (w : Space) (a : Nat) (leaf : Option Leaf)
  | fault (cause detail : Nat)
  deriving DecidableEq, Repr

/-- The check of one piece of an access of the Miller. -/
def State.millerHit (s : State) (job : Option Nat) (a : Nat) (p : Perm) : MHit :=
  match job with
  | none => if bitAt a 63 then .ok .host (a % 2 ^ 63) none else if a < dramEnd then .ok .dram a none else .fault 0x50 0
  | some j =>
    if 2 ^ 55 ≤ a ∨ a < 0x8000000 then .fault 0x50 0
    else
      match s.millerLeaf j a with
      | none => .fault 0x50 0
      | some f =>
        if pteClass f.pte = 1 ∨ !p.allows f.pte then .fault 0x51 0
        else
          let t := leafTarget f a
          if s.reachable t then .ok t.space t.addr (some f) else .fault 0x59 (s.peerPort (t.addr / 2 ^ 40))

/-- R202, R321, R323: what the Miller's access to `n` bytes at `a` does beside its data: A is set on the leaf it used, and D for a write,
the translation is cached, pinned lines are locked. -/
def State.millerUse (s : State) (job : Option Nat) (a : Nat) (f : Option Leaf) (write : Bool) (n : Nat) : State :=
  match job, f with
  | some j, some f => s.millerTouch j a f write n
  | _, _ => s

/-- An 8-byte read by the Miller, which is zero where no peer answers (notes/assumptions/14.md); none where the address does not
translate. -/
def State.millerRead (s : State) (job : Option Nat) (a : Nat) : Option Nat :=
  match s.millerHit job a .load with
  | .ok w b _ => some (s.readN w b 8)
  | .fault 0x59 _ => some 0
  | .fault _ _ => none

/-- `n` bytes that the Miller reads in one piece of memory; none where they do not translate. -/
def State.millerBytes (s : State) (job : Option Nat) (a n : Nat) : Option Nat :=
  (chunks a n).foldr (fun c acc =>
    match acc, s.millerHit job c.1 .load with
    | some v, .ok w b _ => some (s.readN w b c.2 + 2 ^ (8 * c.2) * v)
    | _, _ => none) (some 0)

/-- R358: the event of an access of the Miller that no peer answered at leat port `p`. -/
def State.millerLost (s : State) (p : Nat) : State := s.linkEvent (srcLeat p) (some p)

/-- An 8-byte atomic add by the Miller (R272); nothing where the address does not translate, an event where no peer answers (R358). -/
def State.millerAdd (s : State) (job : Option Nat) (a v : Nat) : State :=
  match s.millerHit job a .atomic with
  | .ok w b f => (((s.millerUse job a f true 8).meetBad w b 8).updateN w b 8 (fun old => (old + v) % 2 ^ 64)).1
  | .fault 0x59 p => s.millerLost p
  | .fault _ _ => s

/-! ## Validation (R342, Table 20.5) -/

/-- Slots of each type (Table 20.6); none for a type it does not list. -/
def typeSlots : Nat → Option Nat
  | 0x01 => some 3
  | 0x02 => some 1
  | 0x03 => some 1
  | 0x04 => some 2
  | 0x05 => some 2
  | 0x06 => some 2
  | 0x07 => some 2
  | 0x08 => some 2
  | 0x09 => some 2
  | _ => none

/-- Whether a type may stand on a device-side queue. -/
def typeDevice (t : Nat) : Bool := decide (1 ≤ t ∧ t ≤ 5)

/-- Reserved bytes and limits of a LAUNCH (Table 20.7, R345, R346); `job` is the pushing job of a device-side queue. -/
def State.launchOk (s : State) (p : Nat) (job : Option Nat) : Bool :=
  let f := pktField p
  let qmask := f 0x68 8
  f 0x40 8 % 8 == 0 && f 0x48 8 % 65536 == 0 && decide (f 0x52 1 < 16) && f 0x53 1 == 0 && f 0x56 2 == 0 && f 0x58 8 % 64 == 0 &&
    (f 0x60 4 == 0 || decide (4096 ≤ f 0x60 4)) && f 0x64 4 == 0 && f 0x78 8 == 0 && f 0x9E 34 == 0 &&
    (List.range 15).all (fun i => let v := f (0x80 + 2 * i) 2; decide (v ≤ 1023) || v == 65535) &&
    (List.range 64).all (fun q => !bitAt qmask q || bitAt (s.queue q).qcfg 4) &&
    (match job with
      | none => true
      | some j =>
        match s.job j with
        | none => false
        | some b => f 0x48 8 == 0 && f 0x50 2 == 0 && f 0x54 2 == 0 && f 0x58 8 == 0 && (qmask &&& notBits 64 b.qmask) == 0 &&
            decide (pktPrio p ≤ b.prio))

/-- Limits of a NODE body (R348). -/
def nodeOk (p : Nat) : Bool :=
  let f := pktField p
  decide (f 0x40 2 < 4096) && decide (f 0x44 1 ≤ 8) && f 0x45 3 == 0 &&
    (List.range (min 8 (f 0x44 1))).all (fun i => decide (f (0x48 + 2 * i) 2 < 4096)) && f 0x58 8 % 8 == 0

/-- Limits of a COPY body (R347). -/
def copyOk (p : Nat) : Bool :=
  let f := pktField p
  decide (1 ≤ f 0x50 8 ∧ f 0x50 8 ≤ 2 ^ 40) && decide (f 0x58 1 < 7) && f 0x59 7 == 0

/-- Limits of a TLBI body (Table 19.4). -/
def tlbiOk (p : Nat) : Bool :=
  let f := pktField p
  let k := f 0x40 1
  decide (k < 4) && f 0x41 1 == 0 && (k == 1 || k == 2 || f 0x42 2 == 0) && f 0x50 8 == 0 &&
    (if 2 ≤ k then decide (1 ≤ f 0x44 4) && f 0x48 8 % 65536 == 0 && decide (f 0x48 8 < 2 ^ 55) else f 0x44 4 == 0 && f 0x48 8 == 0)

/-- Limits of a ROLE body (Table 19.7). -/
def roleOk (p : Nat) : Bool :=
  let f := pktField p
  decide (f 0x41 1 < 2) && f 0x42 2 == 0 && f 0x48 8 % 8 == 0

/-- Limits of a manifest at `a` (Table 21.3), for a full (0) or incremental (1) point. -/
def State.manifestOk (s : State) (kind a : Nat) : Bool :=
  let f := fun n len => s.readN .dram (a + n) len
  f 0 4 == 0x504E534B && f 4 2 == 1 && decide (f 0x10 4 ≤ 193) && f 0x4C 4 == 0 && f 0x58 40 == 0 &&
    (if kind = 0 then f 0x14 4 == 0
     else decide (1 ≤ f 0x14 4 ∧ f 0x14 4 ≤ 64) &&
      (List.range (min 64 (f 0x14 4))).all (fun i =>
        f (0x80 + 16 * i) 8 % 128 == 0 && f (0x88 + 16 * i) 8 % 128 == 0 && decide (f (0x80 + 16 * i) 8 + f (0x88 + 16 * i) 8 ≤ dramEnd)))

/-- Limits of a SNAP body (R349, R369); its manifest lies in device DRAM with all of its ranges. -/
def State.snapOk (s : State) (p : Nat) : Bool :=
  let f := pktField p
  decide (f 0x40 1 < 2) && decide (f 0x42 1 < 16) && f 0x43 1 == 0 && f 0x50 8 % 64 == 0 && f 0x58 8 == 0 &&
    decide (f 0x50 8 + 128 + 16 * (if f 0x40 1 = 0 then 0 else s.readN .dram (f 0x50 8 + 0x14) 4) ≤ dramEnd) &&
    s.manifestOk (f 0x40 1) (f 0x50 8)

/-- Limits of a QUERY body (R349): five blocks. -/
def queryOk (p : Nat) : Bool :=
  let f := pktField p
  decide (f 0x40 1 < 32) && f 0x41 7 == 0 && f 0x48 8 % 64 == 0 && f 0x58 8 == 0

/-- Limits of the first slot (Table 20.4). -/
def headOk (p pmax : Nat) : Bool :=
  fld p 13 3 == 0 && decide (pktPrio p < 8) && decide (pktPrio p ≤ pmax) && (pktWait p 0).1 % 8 == 0 && (pktWait p 1).1 % 8 == 0 &&
    pktSigAddr p % 8 == 0 && pktField p 0x38 8 == 0

/-- Limits of a body by its type. -/
def State.bodyOk (s : State) (p : Nat) (job : Option Nat) : Bool :=
  match pktType p with
  | 0x01 => s.launchOk p job
  | 0x04 => nodeOk p
  | 0x05 => copyOk p
  | 0x06 => tlbiOk p
  | 0x07 => roleOk p
  | 0x08 => s.snapOk p
  | 0x09 => queryOk p
  | _ => true

/-- The reason a packet is bad, the lowest code of Table 20.5 that applies; none for a good one. `over` is the overrun of 0x02. -/
def State.badReason (s : State) (p pmax : Nat) (dev : Bool) (job : Option Nat) (overrun : Bool) : Option Nat :=
  if byteSum p (64 * pktSlots p) % 256 ≠ 0 then some 1
  else if overrun then some 2
  else
    match typeSlots (pktType p) with
    | none => some 3
    | some n =>
      if !headOk p pmax || (pktSlots p == n && !s.bodyOk p job) then some 4
      else if pktSlots p ≠ n then some 5
      else if dev && !typeDevice (pktType p) then some 6
      else none

/-! ## The head of a queue -/

/-- The pushing job of the head of a device-side queue. -/
def State.headJob (s : State) (q : Nat) : Option Nat :=
  let u := s.queue q
  if bitAt u.qcfg 4 then some (look 0 u.pushers (s.readIndex u % u.slots)) else none

/-- Slots that the head packet takes. -/
def State.headSlots (s : State) (q : Nat) : Nat := pktSlots (s.slotsAt (s.queue q) (s.readIndex (s.queue q)) 1)

/-- The head packet of queue `q`. -/
def State.headPacket (s : State) (q : Nat) : Nat := s.slotsAt (s.queue q) (s.readIndex (s.queue q)) (s.headSlots q)

/-- Whether a queue runs, with queues usable (R361) and room for events (R352). -/
def State.queueLive (s : State) (q : Nat) : Bool :=
  (s.queue q).st == 1 && decide (6 ≤ s.boot.stage) && decide (s.miller.events.buffer.length < 4096)

/-- The head of queue `q` that has passed validation. -/
def State.goodHead (s : State) (q : Nat) : Option Nat :=
  if s.queueLive q && (s.queue q).valid == some (s.readIndex (s.queue q)) then some (s.headPacket q) else none

/-- A wait condition begins to be read: A is set on the leaf it goes through, an uncorrectable error is counted, a peer that does not answer
gives an event (R321, R358, R374). -/
def State.useWait (s : State) (job : Option Nat) (w : Nat × Nat) : State :=
  if w.1 = 0 then s
  else
    match s.millerHit job w.1 .load with
    | .ok x b f => (s.millerUse job w.1 f false 8).meetBad x b 8
    | .fault 0x59 p => s.millerLost p
    | .fault _ _ => s

/-- Both wait conditions of a packet are read (R344). -/
def State.useWaits (s : State) (job : Option Nat) (p : Nat) : State := (s.useWait job (pktWait p 0)).useWait job (pktWait p 1)

/-- The uncorrectable errors in the slots of the head packet of queue `q`, and in the index that publishes it, are counted (R374). -/
def State.meetHead (s : State) (q : Nat) : State :=
  let u := s.queue q
  (List.range (s.headSlots q)).foldl (fun t i => t.meetBad u.ringSpace (u.ring + 64 * ((s.readIndex u + i) % u.slots)) 64)
    (s.meetBad u.lineSpace u.line 4)

/-- PACKET_VALIDATE: the head, once wholly published, is checked, and its wait conditions begin to be read; a bad one puts the queue in ERROR (R340, R342). -/
def packetValidate (s : State) (q : Nat) : State :=
  let u := s.queue q
  let r := s.readIndex u
  if s.queueLive q ∧ u.valid ≠ some r ∧ 1 ≤ s.held u ∧ s.headSlots q ≤ s.held u then
    let p := s.headPacket q
    let t := s.meetHead q
    match s.badReason p (fld u.qcfg 8 3) (bitAt u.qcfg 4) (s.headJob q) (decide (u.slots < s.held u)) with
    | none => (t.useWaits (s.headJob q) p).modQueue q (fun u => { u with valid := some r })
    | some e =>
      ((t.modQueue q (fun u => { u with st := 2, reason := e, slot := r, valid := none })).addEvent 0x200
        (eventRec 2 e q (pktTag p) r (s.free 9504))).draw
  else s

/-! ## Waits and turns (R344, R354) -/

/-- A wait condition: none where its address does not translate. -/
def State.waitHolds (s : State) (job : Option Nat) (w : Nat × Nat) : Option Bool :=
  if w.1 = 0 then some true else (s.millerRead job w.1).map (fun v => decide (w.2 ≤ v))

/-- Both wait conditions; none where an address does not translate. -/
def State.waitsHold (s : State) (job : Option Nat) (p : Nat) : Option Bool :=
  match s.waitHolds job (pktWait p 0), s.waitHolds job (pktWait p 1) with
  | some a, some b => some (a && b)
  | _, _ => none

/-- Whether every earlier packet of queue `q` has completed, where a fence asks for it. -/
def State.fenceOk (s : State) (q p : Nat) : Bool := !pktFence p || !s.miller.taken.any (fun t => t.q == q)

/-- Whether a packet's own conditions let it start; an address that does not translate lets it start and end with status 0x03. -/
def State.mayStart (s : State) (q : Nat) (job : Option Nat) (p : Nat) : Bool :=
  s.miller.snap.isNone && s.fenceOk q p && (s.waitsHold job p).getD true

/-- Whether the head of `q` is a LAUNCH that asks already. -/
def State.asking (s : State) (q : Nat) : Bool :=
  s.jobList.any (fun j => j.2.st == 0 && j.2.node.isNone && j.2.id == q * 2 ^ 32 + s.readIndex (s.queue q))

/-- Whether a head packet may be taken now, turns apart. A NODE is accepted whatever its waits (R344); a ROLE waits for the change
under way (R332); a SNAP for every context to be gone (R349). -/
def State.eligible (s : State) (q : Nat) : Bool :=
  match s.goodHead q with
  | none => false
  | some p =>
    if pktType p = 4 then s.miller.snap.isNone
    else
      s.mayStart q (s.headJob q) p &&
        (match pktType p with
          | 0x01 => !s.asking q
          | 0x07 => s.boot.chg.isNone
          | 0x08 => s.ctxs.all (fun c => !c.2.bound)
          | _ => true)

/-! ## The work of nodes (R348) -/

/-- A free node. -/
def Node.free : Node := ⟨0, false, 0, 0, [], 0, none, false⟩
/-- Node `i`. -/
def State.node (s : State) (i : Nat) : Node := look Node.free s.miller.nodes i

/-- The packet of a NODE that has been taken. -/
def State.takenOf (s : State) (n : Nat) : Option Taken := s.miller.taken.find? (fun t => t.n == n)

/-- The work packet of a node: its bytes; none where they do not translate. -/
def State.workOf (s : State) (n : Node) : Option Nat :=
  (s.millerBytes n.job n.work 64).bind (fun h => s.millerBytes n.job n.work (64 * pktSlots h))

/-- The status of a packet whose addresses do not translate; none where they do. -/
def State.addressStatus (s : State) (job : Option Nat) (p : Nat) : Option Nat :=
  let sig := pktSigAddr p
  let bad := (s.waitsHold job p).isNone || (sig != 0 && (match s.millerHit job sig .atomic with
    | .ok _ _ _ => false
    | .fault c _ => c != 0x59))
  if bad then some 3 else none

/-- What the Miller finds of a node whose work is to run: it waits; an address does not translate; its work packet is bad, with the
reason; its work packet, with the NODE's own. -/
inductive Work where
  | waits
  | lost
  | bad (reason : Nat)
  | packet (t : Taken) (w : Nat)
  deriving DecidableEq, Repr

/-- R348: a defined node with count zero whose waits hold has its work read and validated by R342. -/
def State.nodeWork (s : State) (i : Nat) : Work :=
  let n := s.node i
  match s.takenOf n.taken with
  | none => .waits
  | some t =>
    if n.defined ∧ n.count = 0 ∧ !n.running ∧ s.miller.snap.isNone ∧ (s.waitsHold n.job t.pkt).getD true ∧
        (!pktFence t.pkt ∨ !s.miller.taken.any (fun o => o.q == t.q && decide (o.n < t.n))) then
      match if (s.addressStatus n.job t.pkt).isSome then none else s.workOf n with
      | none => .lost
      | some w =>
        let u := s.queue n.q
        match if pktType w ≠ 1 ∧ pktType w ≠ 3 ∧ pktType w ≠ 5 then some 3 else s.badReason w (fld u.qcfg 8 3) (bitAt u.qcfg 4) n.job false with
        | some e => .bad e
        | none => .packet t w
    else .waits

/-- Whether the work of node `i` may be dispatched, turns apart: its own waits and fence hold, and events have room (R352). -/
def State.workReady (s : State) (i : Nat) : Bool :=
  match s.nodeWork i with
  | .packet t w =>
    decide (s.miller.events.buffer.length < 4096) && (s.waitsHold (s.node i).job w).getD true &&
      (!pktFence w || !s.miller.taken.any (fun o => o.q == t.q && o.n != t.n))
  | _ => false

/-! ## Turns (R354) -/

/-- What may be dispatched: the head of a queue, or, as if it were that, the work of a node of the queue (R348), with its priority. -/
structure Turn where
  q : Nat
  node : Option Nat
  prio : Nat
  deriving DecidableEq, Repr

/-- Everything that may be dispatched now; the work of a queue's nodes, whose NODEs came first, before its head. -/
def State.turns (s : State) : List Turn :=
  let works := (s.miller.nodes.filter (fun n => s.workReady n.1)).map (fun n =>
    (⟨n.2.q, some n.1, (s.takenOf n.2.taken).elim 0 (fun t => pktPrio t.pkt)⟩ : Turn))
  works ++ ((List.range 64).filter s.eligible).map (fun q => ⟨q, none, pktPrio (s.headPacket q)⟩)

/-- What is dispatched next: of the highest priority, of the next queue in ascending number after the queue served last at it. -/
def State.nextTurn (s : State) : Option Turn :=
  let l := s.turns
  let top := l.foldl (fun m t => max m t.prio) 0
  let c := l.filter (fun t => t.prio == top)
  let last := look 63 s.miller.turn top
  let q := (List.range 64).find? (fun i => c.any (fun t => t.q == (last + 1 + i) % 64))
  q.bind (fun i => c.find? (fun t => t.q == (last + 1 + i) % 64))

/-- Whether the head of `q` is a packet of type `t` that has its turn. -/
def State.hasTurn (s : State) (q t : Nat) : Bool :=
  s.nextTurn.any (fun v => v.q == q && v.node.isNone) && pktType (s.headPacket q) == t

/-- Whether the work of node `i` has its turn. -/
def State.workTurn (s : State) (i : Nat) : Bool := s.nextTurn.any (fun v => v.node == some i)

/-! ## Taking and completing -/

/-- Changes the Miller. -/
def State.modMiller (s : State) (f : Miller → Miller) : State := { s with miller := f s.miller }

/-- A turn of priority `p` has gone to queue `q`. -/
def State.spendTurn (s : State) (p q : Nat) : State := s.modMiller (fun m => { m with turn := put m.turn p q })

/-- The head of `q` is taken: the read index advances past it, a completed job of the identity it comes to is forgotten, and the
turn of its priority is spent (R339, R350, R354). -/
def State.takeHead (s : State) (q : Nat) : State :=
  let u := s.queue q
  let n := s.headSlots q
  let p := pktPrio (s.headPacket q)
  let s1 := s.writeN u.lineSpace (u.line + 64) 4 ((s.readIndex u + n) % 2 ^ 32)
  (s1.modQueue q (fun u => { u with valid := none })).modMiller (fun m => { m with
    turn := put m.turn p q
    jobs := m.jobs.map (fun j => if j.2.st = 3 ∧ j.2.id = q * 2 ^ 32 + (s.readIndex u + n) % 2 ^ 32 then (j.1, { j.2 with known := false }) else j) })

/-- Enters a taken packet, under a number of its own. -/
def State.enterTaken (s : State) (q ridx pkt : Nat) (job node : Option Nat) (status : Option (Nat × Nat)) : State :=
  s.modMiller (fun m => { m with
    count := m.count + 1
    taken := m.taken ++ [⟨m.count + 1, q, ridx, pkt, job, node, status⟩] })

/-- The taken packet of number `n` has come to a status, with the engine cause and detail. -/
def State.setStatus (s : State) (n st cause : Nat) : State :=
  s.modMiller (fun m => { m with taken := m.taken.map (fun t => if t.n = n ∧ t.status.isNone then { t with status := some (st, cause) } else t) })

/-! ## The rows -/

/-- PACKET_VALIDATE: a head packet is checked. -/
def execPacketValidate (q : Nat) (s : State) : Host.Outcome State Fault Refusal := .next (packetValidate s q)

end Sys2Proof.Machine
end

