-- ==== Sys2Proof/Machine/Preempt.lean ====
section
/-! DEFINITION. Pre-emption (R302 to R310): the save at a point, the deadline, the resumption of a job. -/

namespace Sys2Proof.Machine

/-! ## Ways and tiles in the save image -/

/-- The bytes of way `w` of core `k`, by their offset in the way. -/
def State.wayBytes (s : State) (k w : Nat) : Memory :=
  let b := k * 2 ^ 24 + w * 2 ^ 20
  (s.mem.sp.filter (fun p => decide (b ≤ p.1 ∧ p.1 < b + 2 ^ 20))).map (fun p => (p.1 - b, p.2))

/-- Way `w` of core `k` takes saved bytes, owned by context `c` of job `j` (R309). -/
def restoreWay (s : State) (k w j c : Nat) (m : Memory) : State :=
  let s1 := takeWay s k w j c
  s1.modMem (fun q => { q with sp := m.foldl (fun t p => memPut t (k * 2 ^ 24 + w * 2 ^ 20 + p.1) p.2) q.sp })

/-- The tiles of a context's window, by physical number (R134). -/
def State.windowTiles (s : State) (c : Nat) : Sparse Tile :=
  let w := (s.ctx c).win
  (s.core (coreOf c)).tiles.filter (fun p => decide (w.vbase ≤ p.1 ∧ p.1 < w.vbase + w.vcount))

/-! ## The save (R304, R305, R307) -/

/-- Whether a context stands at a point (R302), or will issue nothing more. -/
def Ctx.atPoint (x : Ctx) : Bool :=
  match x.seq.run with
  | .unbound => false
  | .halted => true
  | .killed => true
  | .resident =>
    x.level == 0 && (x.waitPoint || (match x.seq.wait with | some (.save _) => true | _ => false))

/-- Whether the register writes of a context that issues no more have landed: the cycles to the last of their landing cycles have passed
since it stopped, each landing at a free cycle of its window (R77, R304). -/
def State.writesLanded (s : State) (c : Nat) : Bool :=
  let x := s.ctx c
  let last := (x.early (s.landDraw c) x.seq.cyc x.lastLanding).lastLanding
  decide (x.seq.wake + (last - x.seq.cyc) ≤ s.clock)

/-- Whether the wait of R304 is over: register writes have landed, ls accesses have performed, and every matrix instruction of the context
has completed. -/
def State.saveReady (s : State) (c : Nat) : Bool :=
  let x := s.ctx c
  x.atPoint && !x.missing x.lastLanding && s.writesLanded c && !s.engineBusy x.sched.job x.sched.place (fun mx _ _ => mx)

/-- The context as the image holds it: everything landed, format writes as issued, no stall and no request. -/
def Ctx.image (x : Ctx) (f : Nat → Nat) : Ctx :=
  let y := x.runOn f x.lastLanding
  { y with
    seq := { y.seq with wait := match y.seq.wait with | some (.save _) => none | w => w, path := none }
    sched := { y.sched with stall := none, yielded := false, yieldAt := none, preempt := none, faults := [] }
    fmts := y.fmts.flushed }

/-- The context of an asking job that way `w` of core `k` is planned for (R307). -/
def State.incoming (s : State) (k w : Nat) : Option (Nat × Nat) :=
  s.jobList.findSome? (fun o =>
    if o.2.st = 0 then
      ((s.loaded o.1).places.find? (fun p => coreOf p.bound == k && bitAt p.ways w && decide (0 < p.bound))).map (fun p => (o.1, p.bound))
    else none)

/-- Before a way is saved, the `xcpy` writes to it that are still to become visible perform (R231, R280). -/
def settleWay (s : State) (k w : Nat) : State := s.showLoose (Loose.meets Space.sp.code (k * 2 ^ 24 + w * 2 ^ 20) (2 ^ 20))

/-- R307: what becomes of way `w` of a context that is saved: handed to the incoming context, back to the cache on a die that
leaves (R331), or kept. The second part is its saved contents. -/
def handWay (s : State) (k w : Nat) : State × List (Nat × Memory) :=
  let t := settleWay s k w
  if s.dieLeaving (dieOf k) then (dropWay t k w, [(w, t.wayBytes k w)])
  else
    match s.incoming k w with
    | some o => ((clearWay t k w).setWay k w (.owned o.1 o.2), [(w, t.wayBytes k w)])
    | none => (s, [])

/-- R307 for the ways of a mask, ascending from way `i`. -/
def handWays (s : State) (k mask : Nat) : Nat → Nat → State × List (Nat × Memory)
  | 0, _ => (s, [])
  | n + 1, i =>
    if bitAt mask i then
      let r := handWay s k i
      let q := handWays r.1 k mask n (i + 1)
      (q.1, r.2 ++ q.2)
    else handWays s k mask n (i + 1)

/-- R200: released ways of core `k` that no job alive holds return to the cache state. -/
def settleReleased (s : State) (k : Nat) : State :=
  forWays (fun t w =>
    match t.way k w with
    | .released j _ =>
      if (t.job j).any (fun b => b.st != 3) || t.ctxs.any (fun p => coreOf p.1 == k && p.2.bound &&
          ((t.loaded p.2.sched.job).places[p.2.sched.place]?).any (fun q => bitAt q.ways w)) then t
      else dropWay t k w
    | _ => t) 65535 16 0 s

/-- Context `c` is bound to nothing any more. -/
def unbind (s : State) (c : Nat) : State := settleReleased { s with ctxs := del s.ctxs c } (coreOf c)

/-- The bytes of saved ways of core `k` that no acquire has ordered yet (R175). -/
def State.freshOf (s : State) (k : Nat) (ways : List Nat) : List Fresh := (s.core k).fresh.filter (fun f => ways.contains f.way)

/-- The save itself. -/
def saveCtx (s : State) (c : Nat) : State :=
  let x := s.ctx c
  let k := coreOf c
  let j := x.sched.job
  let r := handWays s k x.win.ways 16 0
  let sv : Saved := ⟨x.sched.place, (r.1.ctx c).image (s.landDraw c), s.windowTiles c, r.2, none, k, s.freshOf k (r.2.map (·.1))⟩
  let s1 := unbind (r.1.modLoaded j (fun l => { l with saved := l.saved ++ [sv] })) c
  (if (s1.ctxsOfJob j).isEmpty then s1.modJob j (fun b => { b with st := 2 }) else s1).draw

/-- Whether the Miller has asked for every context of die `d` to leave it (R331, policy 1). -/
def State.evicting (s : State) (d : Nat) : Bool := s.dieLeaving d && s.boot.chg.any (fun g => g.policy == 1 && g.phase == 1)

/-- PREEMPT_SAVE: at a point, once the wait of R304 is over, the context is saved; after the deadline it is killed (R306). -/
def preemptSave (s : State) (c : Nat) : State :=
  let x := s.ctx c
  if s.saveReady c then
    match x.sched.preempt with
    | some (q, d) => if x.resident ∧ d < s.clock then killByDeadline s c q else saveCtx s c
    | none => if !x.resident ∧ (s.preempting x.sched.job ∨ s.evicting (dieOf (coreOf c))) then saveCtx s c else s
  else s

/-- PREEMPT_DEADLINE: a pre-emption that has not landed by its deadline kills the context (R306). -/
def preemptDeadline (s : State) (c : Nat) : State :=
  let x := s.ctx c
  match x.sched.preempt with
  | some (q, d) => if x.resident ∧ d < s.clock then killByDeadline s c q else s
  | none => s

/-! ## What a binding on a core does to what others left there -/

/-- R308: a context of another job becomes resident on core `k`: the matrix state goes with the saved contexts of that core. -/
def saveMatrix (s : State) (k j : Nat) : State :=
  let e := s.eng k
  { s with miller := { s.miller with loads := s.miller.loads.map (fun l =>
      if l.1 = j then l
      else (l.1, { l.2 with saved := l.2.saved.map (fun v => if v.core = k ∧ v.matrix.isNone then { v with matrix := some e } else v) })) } }

/-- Banks, z tiles and stationary operand of a saved core come back (R308), the operand's tag following its context. -/
def restoreMatrix (s : State) (k : Nat) (e : Engines) : State :=
  s.modEng k (fun q => { q with bank0 := e.bank0, bank1 := e.bank1, z := e.z,
                                stat := e.stat.map (fun t => { t with ctx := 4 * k + t.ctx % 4 }) })

/-- R94: fills the dictionary window at `base` of core `k` with the sections of job `j`, in list order. -/
def fillSection (s : State) (k j base va : Nat) : Nat → State
  | 0 => s
  | n + 1 =>
    let s1 := fillSection s k j base va n
    let a := va + 48 * n
    let word := fun i => match s1.millerLeaf j (a + 2 * i) with
      | some f => (leafTarget f (a + 2 * i)).place
      | none => 0
    let via := fun va => match s1.millerLeaf j va with
      | some f => f.via
      | none => ⟨s1.asidOf j, va / 65536, 2, false⟩
    let bits := ofWords16 ((List.range 24).map (fun i => s1.readPlace (word i) 2))
    let cut := (65536 - a % 65536) / 2
    let seen := fun (t : State) (c : Nat × Nat) =>
      match t.millerLeaf j c.1 with
      | some f => (let g := leafTarget f c.1; (t.millerTouch j c.1 f false c.2).meetBad g.space g.addr c.2)
      | none => t
    ((pieces a 48).foldl seen s1).modCore k (fun c => { c with
      dict := put c.dict (base + n) ⟨bits, a, word 0, word cut, j, true, via a, via (a + 47)⟩ })

/-- Fills the whole window, section after section. -/
def fillDict (s : State) (k j base : Nat) : List (Nat × Nat) → State
  | [] => s
  | d :: r => fillDict (fillSection s k j base d.1 d.2) k j (base + d.2) r

/-! ## Resumption (R309) -/

/-- Whether context `c` can take back saved context `v` of job `j`: the context unbound, its ways kept or in the cache state, its
window free. -/
def State.canTake (s : State) (j c : Nat) (v : Saved) : Bool :=
  let old := 4 * v.core + c % 4
  let k := coreOf c
  !(s.ctx c).bound && s.dieReady (dieOf k) && !s.dieLeaving (dieOf k) &&
    (List.range 16).all (fun w => !bitAt v.ctx.win.ways w || s.way k w == .cache || (c == old && s.way k w == .owned j c)) &&
    splitComing s k c &&& v.ctx.win.ways == 0 &&
    (ctxsOf k).all (fun d => !(s.ctx d).bound || !windowsMeet v.ctx.win.vbase v.ctx.win.vcount (s.ctx d).win.vbase (s.ctx d).win.vcount)

/-- The contexts that the saved contexts of job `j` resume on, where the current profile has the job's shape (R24, R332): where they were
when that is free, else another binding of the shape that keeps the clusters of the contexts that were not pre-empted. -/
def State.resumePlan (s : State) (j : Nat) : Option (List (Saved × Nat)) :=
  let l := s.loaded j
  let entry := fun (v : Saved) => l.places[v.place]?
  let same := l.saved.filterMap (fun v => (entry v).map (fun p => (v, p.bound)))
  if !s.shapeFits l.dies then none
  else if same.length = l.saved.length ∧ same.all (fun p => s.canTake j p.2 p.1) then some same
  else
    let fixed := (l.places.zipIdx.filter (fun p => !l.saved.any (fun v => v.place == p.2))).map (fun p => (p.1.key, clusterOf (coreOf p.1.bound)))
    let want := l.saved.filterMap (fun v => (entry v).map (fun p => { p with ways := v.ctx.win.ways, vbase := v.ctx.win.vbase, vcount := v.ctx.win.vcount }))
    (s.plan j [j] fixed want).map (fun ps => l.saved.zip (ps.map (·.bound)))

/-- R309: what a saved context that is to resume on another core leaves behind is saved first: kept ways go back to the cache, and the
matrix state of its old core goes with it. -/
def packOne (acc : State × List (Saved × Nat)) (j : Nat) (v : Saved) (c : Nat) : State × List (Saved × Nat) :=
  let s := acc.1
  if coreOf c = v.core then (s, acc.2 ++ [(v, c)])
  else
    let kept := (List.range 16).filter (fun w => bitAt v.ctx.win.ways w && s.way v.core w == .owned j (4 * v.core + c % 4))
    let s := kept.foldl (fun t w => settleWay t v.core w) s
    let u := { v with
      ways := v.ways ++ kept.map (fun w => (w, s.wayBytes v.core w))
      fresh := v.fresh ++ s.freshOf v.core kept
      matrix := match v.matrix with | some e => some e | none => some (s.eng v.core) }
    (kept.foldl (fun t w => dropWay t v.core w) s, acc.2 ++ [(u, c)])

/-- A saved context becomes resident on context `c`, all that it left behind being saved with it. -/
def resumeOne (s : State) (j : Nat) (v : Saved) (c : Nat) : State :=
  let k := coreOf c
  let s0 := v.fresh.foldl (fun t f => t.addFresh k f) (v.ways.foldl (fun t w => restoreWay t k w.1 j c w.2) s)
  let s1 := saveMatrix s0 k j
  let s2 :=
    match v.matrix with
    | some e => restoreMatrix s1 k e
    | none => s1
  let outside := fun (q : Core) =>
    q.tiles.filter (fun p => !decide (v.ctx.win.vbase ≤ p.1 ∧ p.1 < v.ctx.win.vbase + v.ctx.win.vcount))
  let s3 := s2.modCore k (fun q => { q with tiles := v.tiles.foldl (fun t p => put t p.1 p.2) (outside q) })
  let s4 := fillDict s3 k j v.ctx.win.dbase (s.loaded j).dicts
  s4.setCtx c { v.ctx with
    seq := { v.ctx.seq with wake := s.clock }
    sched := { v.ctx.sched with readySince := s.clock } }

/-- JOB_RESUME: a pre-empted job is resumed whole, once nothing goes before it and its places are free (R309, R354). -/
def jobResume (s : State) (j : Nat) : State :=
  match s.job j with
  | some b =>
    if (b.st = 2 ∨ (b.st = 1 ∧ !(s.loaded j).saved.isEmpty)) ∧ !s.heldBack j b ∧
        !s.ctxs.any (fun p => p.2.ofJob j && p.2.sched.preempt.isSome) then
      match s.resumePlan j with
      | some l =>
        let r := l.foldl (fun a p => packOne a j p.1 p.2) (s, [])
        let s1 := r.2.foldl (fun t p => resumeOne t j p.1 p.2) r.1
        let s2 := s1.modLoaded j (fun q => { q with
          saved := []
          places := q.places.zipIdx.map (fun p => match l.find? (fun r => r.1.place == p.2) with | some r => { p.1 with bound := r.2 } | none => p.1) })
        (s2.modJob j (fun b => { b with st := 1 })).draw
      | none => s
    else s
  | none => s

/-! ## The rows -/

/-- PREEMPT_SAVE: the context's state is saved and ways handed over. -/
def execPreemptSave (c : Nat) (s : State) : Host.Outcome State Fault Refusal := .next (preemptSave s c)
/-- PREEMPT_DEADLINE: the deadline kills the context with cause 0x14. -/
def execPreemptDeadline (c : Nat) (s : State) : Host.Outcome State Fault Refusal := .next (preemptDeadline s c)
/-- JOB_RESUME: a pre-empted job is resumed whole and its state and ways restored. -/
def execJobResume (j : Nat) (s : State) : Host.Outcome State Fault Refusal := .next (jobResume s j)

end Sys2Proof.Machine
end

