-- ==== Sys2Proof/Machine/Loader.lean ====
section
/-! DEFINITION. Code objects (R89 to R100): the checks of a load, symbols and bodies, the code segment, rebasing and relocations.
Readings of points the spec leaves open are in notes/assumptions/20.md. -/

namespace Sys2Proof.Machine

/-! ## Bytes of a job's address space -/

/-- `n` bytes at virtual address `a` of job `j`; none where they do not translate. -/
def State.virtNat (s : State) (j a n : Nat) : Option Nat :=
  (pieces a n).foldr (fun c acc =>
    match acc, s.millerLeaf j c.1 with
    | some v, some f => if pteClass f.pte = 1 then none else (let t := leafTarget f c.1; some (s.readN t.space t.addr c.2 + 2 ^ (8 * c.2) * v))
    | _, _ => none) (some 0)

/-- R202, R321, R374: a read through the leaves of a range sets A, locks pinned lines, and counts the uncorrectable errors it meets. -/
def State.markRange (s : State) (j a n : Nat) : State :=
  (pieces a n).foldl (fun t c =>
    match t.millerLeaf j c.1 with
    | some f => (let g := leafTarget f c.1; (t.millerTouch j c.1 f false c.2).meetBad g.space g.addr c.2)
    | none => t) s

/-- Writes through the physical pages of a range, whatever its mappings allow (R96); the places written. -/
def State.patch (s : State) (j a n v : Nat) : State :=
  ((pieces a n).foldl (fun (acc : State × Nat) c =>
    match acc.1.millerLeaf j c.1 with
    | some f => (let t := leafTarget f c.1; (acc.1.writeN t.space t.addr c.2 (acc.2 % 2 ^ (8 * c.2)), acc.2 / 2 ^ (8 * c.2)))
    | none => (acc.1, acc.2 / 2 ^ (8 * c.2))) (s, v)).1

/-! ## Objects -/

/-- A section: type, address, bytes. -/
structure Section where
  typ : Nat
  addr : Nat
  size : Nat
  deriving DecidableEq, Repr

/-- An object that has passed its checks. -/
structure Obj where
  addr : Nat
  secs : List Section
  /-- entries of its dictionary, and of the dictionaries before it -/
  dictN : Nat
  dictBase : Nat
  deriving DecidableEq, Repr

/-- The first section of a type. -/
def secOf (l : List Section) (t : Nat) : Option Section := l.find? (fun x => x.typ == t)

/-- Entry `i` of the section table at `t`; none where it cannot be read. -/
def State.secEntry (s : State) (j obj t i : Nat) : Option (Nat × Nat × Nat × Nat) :=
  (s.virtNat j (obj + t + 24 * i) 24).map (fun v => (v % 2 ^ 32, fld v 32 32, fld v 64 64, fld v 128 64))

/-- The section table, without checks. -/
def State.sections (s : State) (j obj : Nat) : List Section :=
  match s.virtNat j obj 128 with
  | none => []
  | some h =>
    (List.range (min 32 (fld h (8 * 0x20) 16))).filterMap (fun i =>
      (s.secEntry j obj (fld h (8 * 0x24) 32) i).map (fun e => ⟨e.1, obj + e.2.2.1, e.2.2.2⟩))

/-- A load status with its detail (Table 5.4). -/
abbrev Refused := Nat × Nat

/-- Check 1: the first bad field of the header. A header that cannot be read is malformed with detail 0, and `total` is bad below the
128 bytes of the header itself (DESIGN CHOICE, notes/assumptions/62.md). -/
def headBad (addr : Nat) (h : Option Nat) : Option Refused :=
  match h with
  | none => some (1, 0)
  | some v =>
    let f := fun n len => fld v (8 * n) (8 * len)
    if addr % 128 ≠ 0 ∨ f 0 4 ≠ 0x4D44524B then some (1, 0)
    else if f 4 2 ≠ 1 then some (1, 4)
    else if 4 ≤ f 0x0C 4 then some (1, 0x0C)
    else if f 0x22 2 ≠ 0 then some (1, 0x22)
    else if f 0x28 8 < 128 then some (1, 0x28)
    else if f 0x31 79 ≠ 0 then some (1, 0x31)
    else none

/-- The keys of the configuration block (Table 20.12). -/
def Boot.keys (b : Boot) : List (List Nat) :=
  (List.range (min 4 (b.active.getD 0x0E 0))).map (fun i => (b.active.drop (0x10 + 133 * i)).take 133)

/-- Check 2: a signature that is present must be valid, and must be present when the configuration asks for one. A signature section
that other sections follow covers the bytes before it, and one without header flag [1] is not read (DESIGN CHOICE,
notes/assumptions/62.md). -/
def State.signatureBad (s : State) (j addr flags : Nat) : Option Refused :=
  if bitAt flags 1 then
    match secOf (s.sections j addr) 7 with
    | none => some (9, 0)
    | some g =>
      match s.virtNat j addr (g.addr - addr), s.virtNat j g.addr 148 with
      | some body, some sig =>
        if decide (148 ≤ g.size) && signedBy s.boot.keys (leBytes 148 sig) (leBytes (g.addr - addr) body) then none else some (9, 0)
      | _, _ => some (9, 0)
  else if s.boot.active.getD 9 0 = 1 then some (9, 0)
  else none

/-- Check 3. -/
def steppingBad (h : Nat) : Option Refused :=
  let step := Config.stepping 0 % 256
  if fld h (8 * 0x30) 8 = 1 ∧ step < 32 ∧ bitAt (fld h 64 32) step then none else some (2, step)

/-- Check 4, for section `i` with the sections before it. A size that is no multiple of the entry size of its type is refused as well
(DESIGN CHOICE, notes/assumptions/62.md). -/
def sectionBad (obj total : Nat) (before : List (Nat × Nat × Nat × Nat)) (e : Nat × Nat × Nat × Nat) : Bool :=
  let t := e.1
  let off := e.2.2.1
  let size := e.2.2.2
  t == 0 || decide (9 < t) || e.2.1 != 0 || decide (total < off + size) ||
    before.any (fun b => overlap off size b.2.2.1 b.2.2.2 || (b.1 == t && t != 8)) ||
    ((t == 1 || t == 2 || t == 8) && (obj + off) % 65536 != 0) ||
    (t == 1 && size % 48 != 0) || (t == 2 && size % 2 != 0) || (t == 4 && size % 40 != 0) || (t == 5 && size % 24 != 0)

/-- Check 4, section by section. -/
def State.sectionsBad (s : State) (j obj total t : Nat) : Nat → Nat → List (Nat × Nat × Nat × Nat) → Option Refused
  | 0, _, _ => none
  | n + 1, i, before =>
    match s.secEntry j obj t i with
    | none => some (5, i)
    | some e => if sectionBad obj total before e then some (5, i) else s.sectionsBad j obj total t n (i + 1) (before ++ [e])

/-- The missing required section of lowest type (R90). -/
def missingSection (secs : List Section) (root : Bool) : Option Refused :=
  let has := fun t => (secOf secs t).isSome
  if has 6 && !has 1 && !has 2 then none
  else
    ([1, 2] ++ (if root then [3] else []) ++ (if has 4 then [9] else [])).findSome? (fun t => if has t then none else some (5, 0x10000 + t))

/-- Whether Tables 3.8 to 3.17 list an opcode of a unit (R99). -/
def listedOpcode (unit op : Nat) : Bool :=
  match unit with
  | 0 => (saOpcode op).isSome
  | 1 => (agOpcode op).isSome
  | 2 => (lsOpcode op).isSome
  | 3 => (vaOpcode op).isSome || (vaImmOpcode op 0).isSome
  | 4 => (vaOpcode op).isSome || (vaImmOpcode op 0).isSome
  | 5 => (vpOpcode op).isSome || (vpImmOpcode op 0).isSome
  | 6 => (vfOpcode op).isSome
  | 7 => (vcOpcode op).isSome
  | 8 => op == 0 || (mxOpcode op).isSome
  | 9 => op == 0 || (cpOpcode op).isSome
  | 10 => decide (op ≤ 0x1E)
  | _ => false

/-- Check 5: every entry names a listed opcode as permanent. That bits [9:0] of an entry are checked, and what becomes of a manifest of
more than 4,096 entries or beyond the object, is the model's choice (DESIGN CHOICE, notes/assumptions/62.md). -/
def State.manifestBad (s : State) (j obj total off n : Nat) : Option Refused :=
  if 4096 < n ∨ total < off + 4 * n then some (4, 0)
  else
    (List.range n).findSome? (fun i =>
      match s.virtNat j (obj + off + 4 * i) 4 with
      | none => some (4, i)
      | some e => if listedOpcode (fld e 28 4) (fld e 20 8) ∧ fld e 18 2 = 0 ∧ fld e 0 10 = 0 then none else some (4, i))

/-- Check 6 and its compatibility bits (R100). -/
def erratumBad (dep : Nat) : Option Refused :=
  (List.range 64).findSome? (fun e => if bitAt dep e ∧ Config.erratum e % 4 ≠ 1 ∧ Config.erratum e % 4 ≠ 2 then some (3, e) else none)
def compatOf (dep : Nat) : Nat := ((List.range 64).filter (fun e => bitAt dep e && Config.erratum e % 4 == 2)).foldl (fun m e => m + 2 ^ e) 0

/-! ## The placement map (R91, R92) -/

/-- The map's header and entries. -/
structure PlaceMap where
  dies : Nat
  clusters : Nat
  cores : Nat
  lnd : List Nat
  slk : List Nat
  places : List Place
  /-- reserved bytes and limits of the header hold; entries whose reserved bytes do not -/
  headOk : Bool
  badEntries : List Nat
  deriving DecidableEq, Repr

/-- Entry `v` of a map. -/
def placeOf (v : Nat) : Place :=
  let f := fun n len => fld v (8 * n) (8 * len)
  ⟨f 0 1, f 1 1, f 2 1, f 3 1, f 4 4, f 8 2, f 0x0A 2, f 0x0C 2, f 0x0E 2, f 0x10 2, 0⟩

/-- Reads the placement map of an object. -/
def State.readMap (s : State) (j : Nat) (secs : List Section) : Option PlaceMap :=
  match secOf secs 3 with
  | none => none
  | some g =>
    match s.virtNat j g.addr 64 with
    | none => none
    | some h =>
      let f := fun n len => fld h (8 * n) (8 * len)
      let n := f 0 2
      match s.virtNat j (g.addr + 64) (24 * min 512 n) with
      | none => none
      | some b =>
        let es := (List.range (min 512 n)).map (fun i => fld b (192 * i) 192)
        some ⟨f 2 1, f 3 1, f 4 1, (List.range 8).map (fun i => f (6 + 2 * i) 2), (List.range 15).map (fun i => f (0x16 + 2 * i) 2),
          es.map placeOf,
          decide (1 ≤ n ∧ n ≤ 512) && decide (1 ≤ f 2 1 ∧ f 2 1 ≤ 3) && decide (1 ≤ f 3 1 ∧ f 3 1 ≤ 32) && decide (1 ≤ f 4 1 ∧ f 4 1 ≤ 4) &&
            f 5 1 == 0 && f 0x34 12 == 0 && decide (64 + 24 * n ≤ g.size) && (List.range 15).all (fun i => decide (f (0x16 + 2 * i) 2 ≤ 1023)),
          (List.range es.length).filter (fun i => fld (es.getD i 0) 144 48 != 0)⟩

/-- Whether entry `i` breaks a condition of R92 beside those of the dictionary windows. -/
def PlaceMap.entryBad (m : PlaceMap) (limit i : Nat) : Bool :=
  match m.places[i]? with
  | none => true
  | some p =>
    decide (m.dies ≤ p.die ∨ m.clusters ≤ p.cluster ∨ m.cores ≤ p.core ∨ 4 ≤ p.ctx) || decide (limit ≤ p.entry) ||
      p.vbase % 16 != 0 || p.vcount % 16 != 0 || decide (768 < p.vbase + p.vcount) || m.badEntries.contains i ||
      (m.places.take i).any (fun q => q.key == p.key && q.core == p.core &&
        (q.ctx == p.ctx || q.ways &&& p.ways != 0 || windowsMeet q.vbase q.vcount p.vbase p.vcount))

/-- Check 7. -/
def PlaceMap.bad (m : PlaceMap) (limit : Nat) : Option Refused :=
  if !m.headOk then some (6, 0)
  else (List.range m.places.length).findSome? (fun i => if m.entryBad limit i then some (6, i) else none)

/-! ## Symbols and bodies (R95, R97) -/

/-- A symbol entry. -/
structure Sym where
  name : List Nat
  binding : Nat
  kind : Nat
  value : Nat
  size : Nat
  ok : Bool
  deriving DecidableEq, Repr

/-- The NUL-terminated bytes of a name, at most `n`. -/
def State.cstring (s : State) (j a : Nat) : Nat → List Nat
  | 0 => []
  | n + 1 =>
    match s.virtNat j a 1 with
    | some 0 => []
    | some b => b :: s.cstring j (a + 1) n
    | none => []

/-- The symbols of an object. -/
def State.symbols (s : State) (j : Nat) (secs : List Section) : List Sym :=
  match secOf secs 4, secOf secs 9 with
  | some g, some t =>
    (List.range (g.size / 40)).filterMap (fun i =>
      (s.virtNat j (g.addr + 40 * i) 40).map (fun v =>
        let f := fun n len => fld v (8 * n) (8 * len)
        ⟨s.cstring j (t.addr + f 0 4) (t.size - f 0 4), f 4 1, f 5 1, f 8 8, f 0x10 8,
          decide (f 4 1 < 3) && decide (f 5 1 < 2) && f 6 2 == 0 && f 0x18 16 == 0⟩))
  | _, _ => []

/-- A relocation entry. -/
structure Reloc where
  sec : Nat
  typ : Nat
  sym : Nat
  off : Nat
  addend : Nat
  deriving DecidableEq, Repr

/-- The relocations of an object. -/
def State.relocs (s : State) (j : Nat) (secs : List Section) : List Reloc :=
  match secOf secs 5 with
  | none => []
  | some g =>
    (List.range (g.size / 24)).filterMap (fun i =>
      (s.virtNat j (g.addr + 24 * i) 24).map (fun v => ⟨fld v 0 16, fld v 16 16, fld v 32 32, fld v 64 64, fld v 128 64⟩))

/-- The words of a stream as (offset, word), literals' own words left out (Table 3.1). -/
def streamWords : Nat → Nat → List Nat → List (Nat × Nat)
  | 0, _, _ => []
  | _ + 1, _, [] => []
  | n + 1, i, w :: r => (i, w) :: (if w = 0xFFFF then streamWords n (i + 25) (r.drop 24) else streamWords n (i + 1) r)

/-- The index words of a section. -/
def State.indexWords (s : State) (j : Nat) (g : Section) : List (Nat × Nat) :=
  match s.virtNat j g.addr g.size with
  | some v => streamWords (g.size / 2) 0 (words16 (g.size / 2) v)
  | none => []

/-- A length of 8 bytes, then the bytes. -/
def counted (l : List Nat) : List Nat := leBytes 8 l.length ++ l

/-- The bytes of the body of a symbol: address and length. -/
def bodySpan (secs : List Section) (y : Sym) : Option (Nat × Nat) :=
  if y.kind = 0 then (secOf secs 2).map (fun g => (g.addr + 2 * y.value, 2 * y.size)) else (secOf secs 8).map (fun g => (g.addr + y.value, y.size))

/-- The bytes that a body is named by (R97): its span, the dictionary bundles its index words select in first-use order, the
relocations in the span with their targets' names. How they are put together is a choice (notes/assumptions/20.md). -/
def State.bodyBytes (s : State) (j : Nat) (secs : List Section) (syms : List Sym) (y : Sym) : List Nat :=
  let home := if y.kind = 0 then secOf secs 2 else secOf secs 8
  let lo := if y.kind = 0 then 2 * y.value else y.value
  let n := if y.kind = 0 then 2 * y.size else y.size
  match home with
  | none => []
  | some g =>
    let idx := (secs.findIdx? (fun x => x == g)).getD 0
    let span := leBytes n ((s.virtNat j (g.addr + lo) n).getD 0)
    let used := if y.kind = 0 then
        (((s.indexWords j g).filter (fun w => decide (y.value ≤ w.1 ∧ w.1 < y.value + y.size) && decide (w.2 < 0xFFF0))).map (·.2)).eraseDups
      else []
    let bundles := used.flatMap (fun k => match secOf secs 1 with
      | some d => leBytes 48 ((s.virtNat j (d.addr + 48 * k) 48).getD 0)
      | none => [])
    let rel := ((s.relocs j secs).filter (fun r => r.sec == idx && decide (lo ≤ r.off ∧ r.off < lo + n))).flatMap (fun r =>
      leBytes 2 r.typ ++ leBytes 8 (r.off - lo) ++ leBytes 8 r.addend ++ counted ((syms[r.sym]?).elim [] (·.name)))
    counted span ++ counted bundles ++ counted rel

/-- A definition that other objects see. -/
structure Def where
  name : List Nat
  strong : Bool
  body : Nat
  /-- address of the target, and its segment word offset for code -/
  addr : Nat
  word : Option Nat
  deriving DecidableEq, Repr

/-- What loading has come to. -/
structure Load where
  s : State
  objs : List Obj
  defs : List Def
  bodies : List (Nat × Nat)
  compat : Nat
  map : Option PlaceMap

/-- The address of a symbol and its segment word offset (R94, R96); of several data sections the first holds the data symbols (DESIGN
CHOICE, notes/assumptions/62.md). -/
def symTarget (base : Nat) (secs : List Section) (y : Sym) : Option (Nat × Option Nat) :=
  if y.kind = 0 then (secOf secs 2).map (fun g => (g.addr + 2 * y.value, some ((g.addr - base) / 2 + y.value)))
  else (secOf secs 8).map (fun g => (g.addr + y.value, none))

/-- R97: releases the counts held on bodies. -/
def releaseBodies (s : State) (l : List (Nat × Nat)) : State :=
  l.foldl (fun t b => if b.2 = 0 then t else t.putRegion b.1 ((t.region b.1).dec b.2)) s

/-- Check 9: names the bodies of the strong and weak symbols, holding a count on each; a failure releases those of this object. -/
def nameBodies (j r : Nat) (secs : List Section) (syms : List Sym) : List (Nat × Sym) → List (Nat × Nat) → State → Except (Refused × State) (State × List (Nat × Nat))
  | [], acc, s => .ok (s, acc)
  | (i, y) :: rest, acc, s =>
    if y.binding = 0 then nameBodies j r secs syms rest acc s
    else
      let bytes := s.bodyBytes j secs syms y
      let lines := toLines (bytes.length + 1) bytes
      let q := nameTree (s.region r) lines (treeDepth lines.length 64 0)
      let s1 := ((bodySpan secs y).elim s (fun b => s.markRange j b.1 b.2)).putRegion r q.reg
      match q.fail with
      | some f => .error ((0x0B, (match f with | .collex => 2 | _ => 3) * 2 ^ 24 + i % 2 ^ 24), releaseBodies s1 (acc.map (fun b => (r, b.2))))
      | none => nameBodies j r secs syms rest (acc ++ [(i, q.root)]) s1

/-- Check 10 and R97: the definitions of an object enter the table by Table 5.6. -/
def addDefs (base : Nat) (secs : List Section) (bodies : List (Nat × Nat)) : List (Nat × Sym) → List Def → Except Refused (List Def)
  | [], d => .ok d
  | (i, y) :: rest, d =>
    if y.binding = 0 then addDefs base secs bodies rest d
    else
      let body := ((bodies.find? (fun b => b.1 == i)).map (·.2)).getD 0
      let t := (symTarget base secs y).getD (0, none)
      let new : Def := ⟨y.name, y.binding == 1, body, t.1, t.2⟩
      match d.find? (fun e => e.name == y.name) with
      | none => addDefs base secs bodies rest (d ++ [new])
      | some e =>
        if e.strong && new.strong then (if e.body = body then addDefs base secs bodies rest d else .error (7, i))
        else if !e.strong && new.strong then addDefs base secs bodies rest (d.map (fun x => if x.name == y.name then new else x))
        else addDefs base secs bodies rest d

/-- The limit of the segment formed by the index-stream sections of objects at `addrs` (R94). -/
def State.segmentLimit (s : State) (j base : Nat) (addrs : List Nat) : Nat :=
  (addrs.filterMap (fun a => secOf (s.sections j a) 2)).foldl (fun m g => max m ((g.addr + g.size - base) / 2)) 0

/-- The Miller reads the contents of the sections of an object, but for a Pelver form and data (R321). -/
def State.markSections (s : State) (j : Nat) (secs : List Section) : State :=
  (secs.filter (fun g => g.typ != 6 && g.typ != 8)).foldl (fun t g => t.markRange j g.addr g.size) s

/-- Loads one object (Table 5.4, checks 1 to 10); what each check has read is marked (R321). A section count that R89 does not allow is
refused as the section table is (DESIGN CHOICE, notes/assumptions/62.md). -/
def loadObject (j region : Nat) (all : List Nat) (l : Load) (addr : Nat) : Except (Refused × State) Load :=
  let s := l.s
  let root := l.objs.isEmpty
  let head := s.virtNat j addr 128
  let h := head.getD 0
  let f := fun n len => fld h (8 * n) (8 * len)
  let t1 := s.markRange j addr 128
  match headBad addr head with
  | some e => .error (e, t1)
  | none =>
  let t2 := if bitAt (f 0x0C 4) 1 then (secOf (s.sections j addr) 7).elim t1 (fun g => t1.markRange j addr (g.addr + 148 - addr)) else t1
  match s.signatureBad j addr (f 0x0C 4) with
  | some e => .error (e, t2)
  | none =>
  match steppingBad h with
  | some e => .error (e, t2)
  | none =>
  let n := f 0x20 2
  let t3 := t2.markRange j (addr + f 0x24 4) (24 * min 32 n)
  match (if n = 0 ∨ 32 < n then some ((5, 0) : Refused) else s.sectionsBad j addr (f 0x28 8) (f 0x24 4) n 0 []) with
  | some e => .error (e, t3)
  | none =>
  let secs := s.sections j addr
  let t4 := (t3.markSections j secs).markRange j (addr + f 0x18 4) (4 * min 4096 (f 0x1C 4))
  let no := fun (e : Refused) => (Except.error (e, t4) : Except (Refused × State) Load)
  let syms := s.symbols j secs
  match (missingSection secs root).or (if syms.all (·.ok) then none
      else some (5, (secs.findIdx? (fun x => x.typ == 4)).getD 0)) with
  | some e => no e
  | none =>
  match s.manifestBad j addr (f 0x28 8) (f 0x18 4) (f 0x1C 4) with
  | some e => no e
  | none =>
  match erratumBad (f 0x10 8) with
  | some e => no e
  | none =>
  let base := if root then (secOf secs 2).elim 0 (·.addr) else (l.objs.head?.bind (fun o => secOf o.secs 2)).elim 0 (·.addr)
  let map := if root then s.readMap j secs else l.map
  let pelver := (secOf secs 6).isSome && (secOf secs 1).isNone && (secOf secs 2).isNone
  match (if root && !(pelver && (secOf secs 3).isNone) then (match map with | some m => m.bad (if pelver then 2 ^ 32 else s.segmentLimit j base all) | none => some (6, 0)) else none) with
  | some e => no e
  | none =>
  if pelver then no (0x0A, 0)
  else
    let numbered := syms.zipIdx.map (fun p => (p.2, p.1))
    match nameBodies j region secs syms numbered [] t4 with
    | .error e => .error e
    | .ok (s1, bodies) =>
      match addDefs base secs bodies numbered l.defs with
      | .error e => .error (e, releaseBodies s1 (bodies.map (fun b => (region, b.2))))
      | .ok defs =>
        let before := l.objs.foldl (fun m o => m + o.dictN) 0
        .ok { s := s1, objs := l.objs ++ [⟨addr, secs, (secOf secs 1).elim 0 (fun g => g.size / 48), before⟩], defs := defs,
              bodies := l.bodies ++ bodies.map (fun b => (region, b.2)), compat := l.compat ||| compatOf (f 0x10 8), map := map }

/-- Loads the objects of a list in order: the load, or the first refusal with its list index. -/
def loadObjects (j region : Nat) (all : List Nat) : List Nat → Nat → Load → Except (Refused × Nat × State × List (Nat × Nat)) Load
  | [], _, l => .ok l
  | a :: rest, i, l =>
    match loadObject j region all l a with
    | .error e => .error (e.1, i, e.2, l.bodies)
    | .ok l1 => loadObjects j region all rest (i + 1) l1

/-! ## After the last object (R94, R96) -/

/-- The code segment: every stream at or above the base, below 2^33 bytes of it. -/
def segmentBad (base : Nat) (l : List Obj) : Option (Refused × Nat) :=
  l.zipIdx.findSome? (fun o =>
    match secOf o.1.secs 2 with
    | none => none
    | some g => if g.addr < base ∨ base + 2 ^ 33 < g.addr + g.size then some ((5, (o.1.secs.findIdx? (fun x => x == g)).getD 0), o.2) else none)

/-- R94: words of object `o` that leave the dictionary range when rebased. -/
def State.rebaseBad (s : State) (j : Nat) (o : Obj) : Option Refused :=
  match secOf o.secs 2 with
  | none => none
  | some g =>
    if o.dictBase = 0 then none
    else (s.indexWords j g).findSome? (fun w => if w.2 < 0xFFF0 ∧ 0xFFF0 ≤ w.2 + o.dictBase then some (8, w.1) else none)

/-- Rebases the index stream of an object in place. -/
def State.rebase (s : State) (j : Nat) (o : Obj) : State :=
  match secOf o.secs 2 with
  | none => s
  | some g =>
    if o.dictBase = 0 then s
    else (s.indexWords j g).foldl (fun t w => if w.2 < 0xFFF0 then t.patch j (g.addr + 2 * w.1) 2 (w.2 + o.dictBase) else t) s

/-- A target of a relocation: an object's own symbol, or the definition of its name. -/
def relocTarget (base : Nat) (o : Obj) (syms : List Sym) (defs : List Def) (r : Reloc) : Option (Nat × Option Nat) :=
  match syms[r.sym]? with
  | none => none
  | some y =>
    if y.binding = 0 then symTarget base o.secs y
    else (defs.find? (fun d => d.name == y.name)).map (fun d => (d.addr, d.word))

/-- The address of the bundle that holds byte `off` of a code section: of the literal around it, or of the first index word that
selects the dictionary entry. -/
def State.bundleAt (s : State) (j base : Nat) (o : Obj) (g : Section) (off : Nat) : Option Nat :=
  match secOf o.secs 2 with
  | none => none
  | some x =>
    let w0 := (x.addr - base) / 2
    if g.typ = 2 then
      ((s.indexWords j x).find? (fun w => w.2 == 0xFFFF && decide (2 * w.1 < off ∧ off < 2 * w.1 + 50))).map (fun w => w0 + w.1)
    else ((s.indexWords j x).find? (fun w => w.2 == off / 48)).map (fun w => w0 + w.1)

/-- The patch of a relocation: address, bytes, value; none when it does not resolve (Table 5.5). -/
def State.relocPatch (s : State) (j base : Nat) (o : Obj) (syms : List Sym) (defs : List Def) (r : Reloc) : Option (Nat × Nat × Nat) :=
  match o.secs[r.sec]?, relocTarget base o syms defs r with
  | some g, some t =>
    let a := g.addr + r.off
    let add := toSigned 64 r.addend
    let width := if r.typ = 4 then 8 else if r.typ = 1 then 6 else 4
    if g.size < r.off + width then none
    else
      match r.typ with
      | 1 =>
        match t.2, s.bundleAt j base o g r.off, s.virtNat j a 6 with
        | some w, some b, some old =>
          let v : Int := (w : Int) + add - (b : Int)
          if -(2 ^ 23) ≤ v ∧ v < 2 ^ 23 then some (a, 6, old - fld old 18 24 * 2 ^ 18 + wrapInt 24 v * 2 ^ 18) else none
        | _, _, _ => none
      | 2 => some (a, 4, wrapInt 64 ((t.1 : Int) + add) % 2 ^ 32)
      | 3 => some (a, 4, wrapInt 64 ((t.1 : Int) + add) / 2 ^ 32)
      | 4 => if g.typ = 8 then some (a, 8, wrapInt 64 ((t.1 : Int) + add)) else none
      | 5 =>
        match t.2 with
        | some w => (let v : Int := (w : Int) + add; if 0 ≤ v ∧ v < 2 ^ 32 then some (a, 4, v.toNat) else none)
        | none => none
      | _ => none
  | _, _ => none

/-- The relocations of an object with their patches, or the first that does not resolve. -/
def State.patches (s : State) (j base : Nat) (defs : List Def) (o : Obj) : Except Refused (List (Nat × Nat × Nat)) :=
  let syms := s.symbols j o.secs
  (s.relocs j o.secs).zipIdx.foldr (fun r acc =>
    match s.relocPatch j base o syms defs r.1 with
    | none => .error (8, r.2)
    | some p => acc.map (fun l => p :: l)) (.ok [])

/-- Drops what cores hold of the pages that were patched (R96): index words, and dictionary entries become invalid; what is in a fetch path
may stay there (R57). -/
def dropPatched (s : State) (pages : List Nat) : State :=
  let hit := fun (p : Nat) => pages.contains (p / 65536)
  let t := s.cores.foldl (fun t c => t.holdPaths c.1) s
  { t with cores := t.cores.map (fun c => (c.1, { c.2 with
      icache := c.2.icache.filter (fun e => !hit e.2.place)
      dict := c.2.dict.map (fun e => if hit e.2.pa || hit e.2.pb then (e.1, { e.2 with valid := false }) else e) })) }

/-- The pages of a patch, by place. -/
def State.patchPages (s : State) (j a n : Nat) : List Nat :=
  (pieces a n).filterMap (fun c => (s.millerLeaf j c.1).map (fun f => (leafTarget f c.1).space.code * 2 ^ 44 + (leafTarget f c.1).addr / 65536))

/-- Everything after the last object, in the order of Table 5.4: the state with every patch in place, or a refusal. -/
def endObject (j : Nat) (l : Load) : Except (Refused × Nat) State :=
  let s := l.s
  let base := (l.objs.head?.bind (fun o => secOf o.secs 2)).elim 0 (·.addr)
  let total := l.objs.foldl (fun m o => m + o.dictN) 0
  match segmentBad base l.objs with
  | some e => .error e
  | none =>
  match l.objs.zipIdx.findSome? (fun o => (s.rebaseBad j o.1).map (fun e => (e, o.2))) with
  | some e => .error e
  | none =>
  match l.map.bind (fun m => m.places.zipIdx.findSome? (fun p =>
      let size := if p.1.dsize = 0 then total else p.1.dsize
      if size < total ∨ 16384 < p.1.dbase + size then some ((6, p.2) : Refused) else none)) with
  | some e => .error (e, 0)
  | none =>
  match l.objs.zipIdx.foldr (fun o (acc : Except (Refused × Nat) (List (Nat × Nat × Nat))) =>
      match s.patches j base l.defs o.1 with
      | .error e => .error (e, o.2)
      | .ok p => acc.map (fun q => p ++ q)) (.ok []) with
  | .error e => .error e
  | .ok ps =>
    let pages := ps.flatMap (fun p => s.patchPages j p.1 p.2.1) ++
      (l.objs.filter (fun o => o.dictBase != 0)).flatMap (fun o => (secOf o.secs 2).elim [] (fun g => s.patchPages j g.addr g.size))
    let s1 := ps.foldl (fun t p => t.patch j p.1 p.2.1 p.2.2) s
    .ok (dropPatched (l.objs.foldl (fun t o => t.rebase j o) s1) pages.eraseDups)

/-! ## The whole load (R93) -/

/-- The addresses of a load list; none where it does not translate or its count is out of range. -/
def State.loadList (s : State) (j a : Nat) : Option (List Nat) :=
  match s.virtNat j a 8 with
  | none => none
  | some n => if n = 0 ∨ 16 < n then none else (s.virtNat j (a + 8) (8 * n)).map (fun v => (List.range n).map (fun i => fld v (64 * i) 64))

/-- The Miller reads the load list of job `j` (R321). -/
def State.markList (s : State) (j a : Nat) : State :=
  let s1 := s.markRange j a 8
  match s.virtNat j a 8 with
  | none => s1
  | some n => if n = 0 ∨ 16 < n then s1 else s1.markRange j (a + 8) (8 * n)

/-- The Miller reads the header, the section table and the placement map of the object at `a` (R321). -/
def State.markMap (s : State) (j a : Nat) : State :=
  let s1 := s.markRange j a 128
  match s.virtNat j a 128 with
  | none => s1
  | some h =>
    let s2 := s1.markRange j (a + fld h (8 * 0x24) 32) (24 * min 32 (fld h (8 * 0x20) 16))
    match secOf (s.sections j a) 3 with
    | none => s2
    | some g => s2.markRange j g.addr (64 + 24 * min 512 ((s.virtNat j g.addr 2).getD 0))

/-- The placement map of the root object, where it can be read and stands (R92, R353). -/
def State.jobMap (s : State) (j : Nat) : Option PlaceMap :=
  match s.job j with
  | none => none
  | some b =>
    match s.loadList j b.loadlist with
    | some (a :: all) =>
      let secs := s.sections j a
      (s.readMap j secs).bind (fun m => if (m.bad (s.segmentLimit j ((secOf secs 2).elim 0 (·.addr)) (a :: all))).isNone then some m else none)
    | _ => none

/-- R93: loads the list of job `j`: the load with everything patched, or the load record of the first refusal. -/
def loadJob (s : State) (j : Nat) (b : Job) (all : List Nat) : Except (State × Refused × Nat × Nat) Load :=
  match loadObjects j b.region all all 0 ⟨s, [], [], [], 0, none⟩ with
  | .error (e, i, t, held) => .error (releaseBodies t held, e, i, all.getD i 0)
  | .ok l =>
    match endObject j l with
    | .error (e, i) => .error (releaseBodies l.s l.bodies, e, i, all.getD i 0)
    | .ok t => .ok { l with s := t }

/-- The load record (Table 5.4). -/
def loadRecord (e : Refused) (i addr : Nat) : Nat := e.1 % 256 + 2 ^ 8 * (i % 256) + 2 ^ 32 * (e.2 % 2 ^ 32) + 2 ^ 64 * (addr % 2 ^ 64)

end Sys2Proof.Machine
end

