-- ==== Sys2Proof/Machine/Miller.lean ====
section
/-! DEFINITION. The Miller at work (R343 to R355): launching and completing jobs, waits and signals, the task graph, copies,
shootdowns, completion of packets. -/

namespace Sys2Proof.Machine

/-! ## Readiness (R364) -/

/-- The `ready` word takes a new value; a change gives event type 5. -/
def setReady (s : State) (v : Nat) : State :=
  if s.boot.ready = v then s
  else ({ s with boot := { s.boot with ready := v } }).openEvent srcReady 5 none none (some v)

/-- Bits of `ready` that stand for the cores and the Flumes of the dies of a mask. -/
def coreBits (dies : Nat) : Nat := dies % 16 + 2 ^ 51 * (dies % 16)

/-! ## Launching (R345, R353 to R355) -/

/-- The job a LAUNCH describes; a child takes root, asid, regions and log from its parent (R346). -/
def State.jobOf (s : State) (q ridx pkt prio : Nat) (pusher node : Option Nat) : Job :=
  let f := pktField pkt
  let up := pusher.bind s.job
  { id := q * 2 ^ 32 + ridx
    st := 0
    prio := prio
    root := up.elim (f 0x48 8) (·.root)
    asid := up.elim (f 0x50 2) (·.asid)
    rmask := up.elim (f 0x54 2) (·.rmask)
    qmask := f 0x68 8
    log := up.elim (f 0x58 8) (·.log)
    predl := if f 0x60 4 = 0 then 65536 else f 0x60 4
    param := f 0x70 8
    region := f 0x52 1
    slk := (List.range 15).map (fun i => f (0x80 + 2 * i) 2)
    loadlist := f 0x40 8
    compat := 0
    parent := pusher
    pkt := pkt
    taken := 0
    node := node
    order := 0
    known := true }

/-- R355: where too few places are free for a map of the holding head, the pre-emptions that would make room are requested and the places kept
for job `j`. -/
def askPlaces (s : State) (j : Nat) (b : Job) (ps : List Place) : State :=
  if ps.isEmpty ∨ s.heldBack j b ∨ !s.shapeFits (s.loaded j).dies ∨ (s.plan j [] [] ps).isSome then s
  else
    match s.planOver j ps [] (s.victims b.prio) with
    | none => s
    | some v => v.1.foldl requestJob (s.modLoaded j (fun l => { l with places := v.2 }))

/-- The status of a job that ends before its load (R345, Table 20.9): its region is checked before its load list is read. -/
def State.jobError (s : State) (b : Job) (j : Nat) : Option Nat :=
  match s.addressStatus b.parent b.pkt with
  | some e => some e
  | none =>
    if !bitAt b.rmask b.region ∨ !(s.region b.region).inst then some 7
    else if (s.loadList j b.loadlist).isNone then some 3
    else none

/-- What the Miller reads of the load list of a job and of its root object's placement map is read through its leaves (R321); nothing where the
job's region stands against it. -/
def State.readList (s : State) (j : Nat) (b : Job) : State :=
  match s.jobError b j with
  | some 3 => if (s.addressStatus b.parent b.pkt).isSome then s else s.markList j b.loadlist
  | some _ => s
  | none => (s.markList j b.loadlist).markMap j (((s.loadList j b.loadlist).bind (·.head?)).getD 0)

/-- The places and the shape of a map are noted for job `j`, and asked for. -/
def askMap (s : State) (j : Nat) (b : Job) (m : PlaceMap) : State :=
  askPlaces (s.modLoaded j (fun l => { l with places := m.places, dies := m.dies })) j b m.places

/-- A LAUNCH begins to ask for its places; one that ends before its load reads no map and asks for none (R345). -/
def askJob (s : State) (q ridx pkt prio : Nat) (pusher node : Option Nat) : State :=
  let b := s.jobOf q ridx pkt prio pusher node
  let n := s.miller.count + 1
  let s1 := s.modMiller (fun m => { m with
    count := n
    jobs := put (m.jobs.filter (fun o => !(o.2.id == b.id && o.2.st == 3))) n b })
  let s2 := s1.readList n b
  match if (s1.jobError b n).isSome then none else s1.jobMap n with
  | some m => (askMap s2 n b m).draw
  | none => s2.draw

/-- LAUNCH: the head of `q` has its turn and asks to bind. -/
def launch (s : State) (q : Nat) : State :=
  if s.hasTurn q 1 then
    let p := s.headPacket q
    askJob s q (s.readIndex (s.queue q)) p (pktPrio p) (s.headJob q) none
  else s

/-- The LAUNCH of job `j` is taken: out of its ring, or as the work of its node, whose turn is spent. -/
def takeLaunch (s : State) (j : Nat) (b : Job) (error : Nat) : State :=
  let s1 := match b.node with
    | some _ => s.spendTurn b.prio (b.id / 2 ^ 32)
    | none => s.takeHead (b.id / 2 ^ 32)
  let s2 := s1.enterTaken (b.id / 2 ^ 32) (b.id % 2 ^ 32) b.pkt b.parent b.node none
  let n := s2.miller.count
  (s2.modJob j (fun x => { x with st := 1, taken := n, order := n })).modLoaded j (fun l => { l with error := error })

/-- The context of placement entry `i` as it is bound (R92, R345, Tables 5.3, 20.7). A landing offset of the map between 1 and 11 is
stored as 12, as R82 has a written one (DESIGN CHOICE, notes/assumptions/62.md). -/
def boundCtx (s : State) (j i : Nat) (b : Job) (m : PlaceMap) (p : Place) (base limit total : Nat) : Ctx :=
  let x := Ctx.reset
  let pick := fun (v d : Nat) => if v = 0 then d else max 12 v
  let lnd := (List.range 8).map (fun n => (n, pick (m.lnd.getD n 0) (look 0 lndReset n)))
  let slk := (List.range 15).map (fun n => (17 + n, let v := b.slk.getD n 65535; if v = 65535 then m.slk.getD n 0 else v))
  { x with
    seq := { x.seq with run := .resident, pc := p.entry, base := base, limit := limit, wake := s.clock }
    sched := { x.sched with job := j, place := i, asid := b.asid, readySince := s.clock }
    regs := { x.regs with s := wr (wr [] 0 b.param) 1 i, lnd := lnd ++ slk }
    traps := { x.traps with predl := b.predl }
    win := { x.win with vbase := p.vbase, vcount := p.vcount, dbase := p.dbase, dsize := if p.dsize = 0 then total else p.dsize,
                        ways := p.ways, nreg := b.region } }

/-- Binds one entry of the map to its context. -/
def bindOne (s : State) (j i : Nat) (b : Job) (m : PlaceMap) (p : Place) (base limit total : Nat) (dicts : List (Nat × Nat)) : State :=
  let c := p.bound
  let k := coreOf c
  let s1 := forWays (fun t w => match t.way k w with | .cache => takeWay t k w j c | _ => t) p.ways 16 0 (saveMatrix s k j)
  let s2 := s1.modEng k (fun e => { e with stat := if e.stat.any (fun t => t.ctx == c) then none else e.stat })
  (fillDict s2 k j p.dbase dicts).setCtx c (boundCtx s j i b m p base limit total)

/-- Every entry of a plan is bound. -/
def bindAll (s : State) (j : Nat) (b : Job) (m : PlaceMap) (l : Load) (ps : List Place) : State :=
  let base := (l.objs.head?.bind (fun o => secOf o.secs 2)).elim 0 (·.addr)
  let secs := l.objs.filterMap (fun o => (secOf o.secs 2).map (fun g => (g.addr, g.size)))
  let dicts := l.objs.filterMap (fun o => (secOf o.secs 1).map (fun g => (g.addr, g.size / 48)))
  let limit := secs.foldl (fun n g => max n ((g.1 + g.2 - base) / 2)) 0
  let total := dicts.foldl (fun n d => n + d.2) 0
  let s1 := s.modLoaded j (fun x => { x with places := ps, base := base, limit := limit, sections := secs, dicts := dicts, bodies := l.bodies })
  let s2 := s1.modJob j (fun x => { x with compat := l.compat })
  ps.zipIdx.foldl (fun t p => bindOne t j p.2 b m p.1 base limit total dicts) s2

/-- Loads a job and binds it to a plan, or refuses it with its record (R93). -/
def loadAndBind (s : State) (j : Nat) (b : Job) (all : List Nat) (plan : List Place) : State :=
  match loadJob s j b all with
  | .error (t, e, i, addr) => takeLaunch (logEntry t j 1 e.1 0 0 (loadRecord e i addr)) j b 2
  | .ok l =>
    match l.map with
    | some m => bindAll (takeLaunch l.s j b 0) j b m l plan
    | none => takeLaunch l.s j b 2

/-- Whether the places kept for an asking job are those of jobs whose pre-emption is under way, or free (R355). -/
def State.keptComing (s : State) (j : Nat) (kept : List Place) : Bool :=
  let going := (s.jobList.filter (fun o => s.preempting o.1)).map (·.1)
  !kept.isEmpty && kept.all (fun p => decide (0 < p.bound) && s.dieReady (dieOf (coreOf p.bound)) && !s.dieLeaving (dieOf (coreOf p.bound)) &&
    s.placeOpen going j p.bound p)

/-- JOB_BIND: an asking job is refused, bound to free places, or has room asked for (R353 to R355). -/
def jobBind (s : State) (j : Nat) : State :=
  match s.job j with
  | some b =>
    if b.st = 0 ∧ !s.heldBack j b ∧ s.miller.snap.isNone ∧ s.miller.events.buffer.length < 4096 then
      match s.jobError b j with
      | some e => takeLaunch (s.readList j b) j b e
      | none =>
        let all := (s.loadList j b.loadlist).getD []
        match s.jobMap j with
        | none => loadAndBind (s.readList j b) j b all []
        | some m =>
          if !s.shapeFits m.dies then s
          else
            let kept := (s.loaded j).places
            let plan := if kept.all (fun p => decide (0 < p.bound)) && !kept.isEmpty && s.planFree j kept then some kept else s.plan j [] [] m.places
            match plan with
            | some ps => (loadAndBind (s.readList j b) j b all ps).draw
            | none => if s.victims b.prio = [] ∨ s.keptComing j kept then s else (askMap s j b m).draw
    else s
  | none => s

/-! ## The end of a job (R129, R200, R281, R299) -/

/-- The packets of a ring that wait untaken: index and first slot. -/
def State.ringPackets (s : State) (u : Queue) : Nat → Nat → Nat → List (Nat × Nat)
  | 0, _, _ => []
  | fuel + 1, r, left =>
    if left = 0 then []
    else (let p := s.slotsAt u r 1; (r, p) :: s.ringPackets u fuel (r + pktSlots p) (left - pktSlots p))

/-- Whether a child of job `j` is still to complete: bound or asking, the work of a node, or a LAUNCH that waits in a ring, whatever the state
of its queue. -/
def State.hasChild (s : State) (j : Nat) : Bool :=
  s.jobList.any (fun o => o.2.parent == some j && o.2.st != 3) ||
    s.miller.nodes.any (fun n => n.2.defined && n.2.job == some j) ||
    (List.range 64).any (fun q =>
      let u := s.queue q
      bitAt u.qcfg 4 &&
        (s.ringPackets u (s.held u) (s.readIndex u) (min u.slots (s.held u))).any (fun p =>
          pktType p.2 == 1 && look 0 u.pushers (p.1 % u.slots) == j))

/-- Whether every context of job `j` has halted or been killed. -/
def State.allEnded (s : State) (j : Nat) : Bool :=
  (List.range (s.loaded j).places.length).all (fun i =>
    match s.ctxAt j i with
    | some x => x.seq.run == .halted || x.seq.run == .killed
    | none => true)

/-- Whether an engine instruction of job `j` is still to complete. -/
def State.engineWork (s : State) (j : Nat) : Bool :=
  s.engines.any (fun e => e.2.mxq.any (fun r => r.iss.job == j) || e.2.cpq.any (fun r => r.iss.job == j))

/-- The ways of core `k` that contexts of job `j` own return to the cache state. -/
def freeWays (s : State) (k j : Nat) : State :=
  forWays (fun t w => match t.way k w with | .owned i _ => if i = j then dropWay t k w else t | _ => t) 65535 16 0 s

/-- JOB_COMPLETE: what the job's `xcpy` and `cwb` instructions have still to bring about happens, its places are free, its packet has its
status. -/
def jobComplete (s : State) (j : Nat) : State :=
  match s.job j with
  | some b =>
    if (b.st = 1 ∨ b.st = 2) ∧ s.allEnded j ∧ !s.engineWork j ∧ !s.hasChild j then
      let err := (s.loaded j).error
      let s0 := (s.showLoose (fun d => d.job == j)).performMaints (fun m => m.job == j)
      let s1 := s0.modJob j (fun x => { x with st := 3 })
      let s2 := { s1 with ctxs := s1.ctxs.filter (fun p => !p.2.ofJob j) }
      let s3 := s2.cores.foldl (fun t p =>
        (settleReleased (freeWays t p.1 j) p.1).modCore p.1 (fun k => { k with fresh := k.fresh.filter (fun f => f.job != j) })) s2
      let s4 := releaseBodies s3 (s.loaded j).bodies
      let s5 := s4.modLoaded j (fun l => { l with saved := [], bodies := [] })
      s5.setStatus b.taken err 0
    else s
  | none => s

/-! ## Packets without a body (R343) -/

/-- A packet that completes as soon as it starts. -/
def startPlain (s : State) (q t : Nat) : State :=
  if s.hasTurn q t then
    let p := s.headPacket q
    let job := s.headJob q
    (s.takeHead q).enterTaken q (s.readIndex (s.queue q)) p job none (some ((s.addressStatus job p).getD 0, 0))
  else s

/-! ## Copies (R347) -/

/-- The parts of [a, a + n) cut at multiples of 64 KiB of an address. -/
def pageParts : Nat → Nat → Nat → List (Nat × Nat)
  | 0, _, _ => []
  | fuel + 1, a, n =>
    if n = 0 then []
    else (let m := min n (65536 - a % 65536); (a, m) :: pageParts fuel ((a + m) % 2 ^ 64) (n - m))

/-- The parts of `n` bytes at `a`. -/
def partsOf (a n : Nat) : List (Nat × Nat) := pageParts (n / 65536 + 2) (a % 2 ^ 64) n

/-- Places of an access of the Miller in the byte stores, as it finds them now. -/
def State.millerRanges (s : State) (job : Option Nat) (p : Perm) (l : List (Nat × Nat)) : List (Nat × Nat × Nat) :=
  l.filterMap (fun c => match s.millerHit job c.1 p with | .ok w b _ => some (w.code, b, c.2) | .fault _ _ => none)

/-- Whether a source byte of a copy is also a destination byte, or two destination bytes share a place. -/
def State.copyMeets (s : State) (job : Option Nat) (src dst n : Nat) : Bool :=
  let meets := fun (x y : Nat × Nat × Nat) => x.1 == y.1 && overlap x.2.1 x.2.2 y.2.1 y.2.2
  let d := (s.millerRanges job .store (partsOf dst n)).zipIdx
  (s.millerRanges job .load (partsOf src n)).any (fun x => d.any (fun y => meets x y.1)) ||
    d.any (fun x => d.any (fun y => x.2 != y.2 && meets x.1 y.1))

/-- The Miller's copy engine takes up a COPY body under the taken number `n`. -/
def startCopy (s : State) (n : Nat) (job : Option Nat) (p : Nat) : State :=
  let f := pktField p
  let plain := f 0x58 1 == 0
  let m : MillerCopy :=
    { n := n, job := job, fl := f 0x58 1, src := f 0x40 8, dst := f 0x48 8, len := f 0x50 8, ordered := s.copyMeets job (f 0x40 8) (f 0x48 8) (f 0x50 8)
      todo := if plain then [(0, f 0x50 8)] else [], got := [], pos := 0, block := 0, out := 0, ended := plain, was := [], fault := none }
  (s.modMiller (fun q => { q with copies := q.copies ++ [m] })).draw

/-- The copy of the same packet is now `m`. -/
def State.setCopy (s : State) (m : MillerCopy) : State := s.modMiller (fun q => { q with copies := q.copies.map (fun c => if c.n = m.n then m else c) })

/-- A fault of an access ends a copy. -/
def MillerCopy.fails (m : MillerCopy) (f : Nat × Nat) : MillerCopy := { m with todo := [], got := [], ended := true, fault := some f }

/-- Whether everything of a copy has been done. -/
def MillerCopy.over (m : MillerCopy) : Bool := m.ended && m.todo.isEmpty && m.got.isEmpty

/-- The vertical interfaces that an access of the Miller, on d0, crosses: to the home agents of d3 for device DRAM (R10, R11). -/
def millerCross (w : Space) : Nat := if w = .dram then crossMask 0 3 else 0

/-- Whether an access of a copy crosses a vertical interface that pauses (R335). -/
def MillerCopy.waits (m : MillerCopy) (s : State) (p : Perm) (a n : Nat) : Bool :=
  (partsOf a n).any (fun q => match s.millerHit m.job q.1 p with | .ok w _ _ => s.paused (millerCross w) | .fault _ _ => false)

/-- Whether an access of a copy finds no fault. -/
def MillerCopy.clear (m : MillerCopy) (s : State) (p : Perm) (a n : Nat) : Bool :=
  (partsOf a n).all (fun q => match s.millerHit m.job q.1 p with
    | .ok w b _ => p == .store || s.badIn w b q.2 == []
    | .fault _ _ => false)

/-- What reading `n` bytes at `b` of a store brings: a byte that the copy has overwritten has its value from before the copy or its present
one, which an earlier iteration wrote, by a free value (R219). -/
def MillerCopy.bytes (m : MillerCopy) (s : State) (w : Space) (b n : Nat) : List Nat :=
  (leBytes n (s.readN w b n)).zipIdx.map (fun p =>
    match m.was.find? (fun e => e.1 == w.code * 2 ^ 60 + b + p.2) with
    | some e => if bitAt (s.free (2 ^ 43 + (b + p.2) / 16)) ((b + p.2) % 16) then e.2 else p.1
    | none => p.1)

/-- Reads by the Miller's copy engine: the bytes, or a fault (Table 10.4). -/
def MillerCopy.load (m : MillerCopy) : List (Nat × Nat) → State → State × Except (Nat × Nat) (List Nat)
  | [], s => (s, .ok [])
  | (a, n) :: rest, s =>
    match s.millerHit m.job a .load with
    | .fault c d => (s, .error (c, d))
    | .ok w b f =>
      if s.badIn w b n ≠ [] then (s.meetBad w b n, .error (0x5C, 0))
      else
        let t := s.millerUse m.job a f false n
        let r := m.load rest t
        (r.1, r.2.map (fun l => m.bytes t w b n ++ l))

/-- The copy with the bytes at `b` of a store noted as they are before it overwrites them. -/
def MillerCopy.noting (m : MillerCopy) (s : State) (w : Space) (b n : Nat) : MillerCopy :=
  if m.ordered then
    { m with was := (leBytes n (s.readN w b n)).zipIdx.foldl (fun l p =>
        let k := w.code * 2 ^ 60 + b + p.2
        if l.any (fun e => e.1 == k) then l else (k, p.1) :: l) m.was }
  else m

/-- Writes by the Miller's copy engine, up to a fault. -/
def MillerCopy.store : List (Nat × Nat) → List Nat → State → MillerCopy → State × MillerCopy
  | [], _, s, m => (s, m)
  | (a, n) :: rest, l, s, m =>
    match s.millerHit m.job a .store with
    | .fault c d => (s, m.fails (c, d))
    | .ok w b f =>
      let t := s.millerUse m.job a f true n
      MillerCopy.store rest (l.drop n) (t.writeN w b n (leNat (l.take n))) (m.noting t w b n)

/-- The bytes of a plain copy at offset `o` are read. -/
def MillerCopy.take (m : MillerCopy) (s : State) (o n : Nat) : State × MillerCopy :=
  let cut := fun (r : Nat × Nat) =>
    if r.1 ≤ o ∧ o + n ≤ r.1 + r.2 then [(r.1, o - r.1), (o + n, r.1 + r.2 - (o + n))].filter (fun q => q.2 != 0) else [r]
  let q := m.load (partsOf (m.src + o) n) s
  match q.2 with
  | .error f => (q.1, m.fails f)
  | .ok l => (q.1, { m with todo := m.todo.flatMap cut, got := m.got ++ [(o, l)] })

/-- The bytes at offset `o` that have been read are written. -/
def MillerCopy.put (m : MillerCopy) (s : State) (o n : Nat) : State × MillerCopy :=
  match m.got.find? (fun g => decide (g.1 ≤ o ∧ o + n ≤ g.1 + g.2.length)) with
  | none => (s, m)
  | some g =>
    let rest := [(g.1, g.2.take (o - g.1)), (o + n, g.2.drop (o - g.1 + n))].filter (fun q => q.2 != [])
    MillerCopy.store (partsOf (m.dst + o) n) ((g.2.drop (o - g.1)).take n) s { m with got := m.got.flatMap (fun q => if q = g then rest else [q]) }

/-- Whether the Miller's Flume works on a copy: on the stream that started first and has not ended (R236). -/
def MillerCopy.turn (m : MillerCopy) (s : State) : Bool :=
  !m.ended && m.got.isEmpty && (s.miller.copies.takeWhile (fun c => c.n != m.n)).all (·.ended)

/-- Whether the next block of a stream, its header or its body, crosses a vertical interface that pauses (R335). -/
def MillerCopy.blockWaits (m : MillerCopy) (s : State) : Bool :=
  m.waits s .load (m.src + m.pos) 32 ||
    (match (m.load (partsOf (m.src + m.pos) 32) s).2 with
     | .ok hb => (flumeHead m.fl hb).any (fun h => m.waits s .load (m.src + m.pos + 32) h.csize)
     | .error _ => false)

/-- What a block makes of a stream. -/
def MillerCopy.takeBlock (m : MillerCopy) (h : FlumeHead) (b : FlumeBlock) (exact : Bool) : MillerCopy :=
  let out := b.out.take (m.len - m.out)
  let k := { m with got := if out = [] then [] else [(m.out, out)], out := m.out + out.length, pos := m.pos + 32 + h.padded, block := m.block + 1 }
  match streamEnd (m.len - m.out) h b exact with
  | none => k
  | some f => { k with ended := true, fault := f.map (fun c => (c, m.block)) }

/-- The next block of a stream is checked and expanded (R235). -/
def MillerCopy.nextBlock (m : MillerCopy) (s : State) : State × MillerCopy :=
  let q := m.load (partsOf (m.src + m.pos) 32) s
  match q.2 with
  | .error f => (q.1, m.fails f)
  | .ok hb =>
    match flumeHead m.fl hb with
    | none => (q.1, m.fails (0x54, m.block))
    | some h =>
      let b := m.load (partsOf (m.src + m.pos + 32) h.csize) q.1
      match b.2 with
      | .error f => (b.1, m.fails f)
      | .ok body => (b.1, m.takeBlock h (flumeBody h body false) (bitAt (s.free 5410) 0))

/-- The first thing that a copy has still to do, in order; none where there is nothing, or it waits. -/
def MillerCopy.next (m : MillerCopy) (s : State) : Option (State × MillerCopy) :=
  match m.got, m.todo with
  | g :: _, _ => if m.waits s .store (m.dst + g.1) g.2.length then none else some (m.put s g.1 g.2.length)
  | [], r :: _ =>
    let n := if m.ordered then 1 else min r.2 (65536 - (m.src + r.1) % 65536)
    if m.waits s .load (m.src + r.1) n then none else some (m.take s r.1 n)
  | [], [] => if m.turn s ∧ !m.blockWaits s then some (m.nextBlock s) else none

/-- What is left of a copy, as far as it need not wait. -/
def MillerCopy.rest : Nat → State → MillerCopy → State × MillerCopy
  | 0, s, m => (s, m)
  | fuel + 1, s, m =>
    match m.next s with
    | none => (s, m)
    | some q => MillerCopy.rest fuel q.1 q.2

/-- The COPY that was taken as `n`, where it is under way: it ends with its status, or as much of it is done as need not wait. A peer that
does not answer gives an event beside (R358). -/
def endCopy (s : State) (n : Nat) : State :=
  match s.miller.copies.find? (fun m => m.n == n) with
  | none => s
  | some m =>
    let r := MillerCopy.rest (4 * m.len + m.got.length + 8) s m
    if r.2.over then
      let t := r.1.modMiller (fun q => { q with copies := q.copies.filter (fun c => c.n != n) })
      match r.2.fault with
      | none => (t.setStatus n 0 0).draw
      | some e => (let u := t.setStatus n 4 (e.1 + 2 ^ 32 * e.2); if e.1 = 0x59 then u.millerLost e.2 else u.draw)
    else if r.2 = m then s
    else (r.1.setCopy r.2).draw

/-- A part of [a, a + n) by free values, within 64 KiB of `base + a`: where it begins, and its length. -/
def State.somePart (s : State) (base a n i : Nat) : Nat × Nat :=
  let o := a + s.free (5600 + 2 * i) % n
  (o, 1 + s.free (5601 + 2 * i) % min (a + n - o) (65536 - (base + o) % 65536))

/-- The states that one read, write or block more of a copy leads to: of those that find no fault and need not wait, in any order that R219
allows. -/
def State.copyWork (s : State) (m : MillerCopy) : List State :=
  let done := fun (q : State × MillerCopy) => q.1.setCopy q.2
  let room := 65536 - m.got.foldl (fun n g => n + g.2.length) 0
  (if m.ordered ∧ m.got ≠ [] then []
   else m.todo.zipIdx.filterMap (fun r =>
    let c := if m.ordered then (r.1.1, 1) else s.somePart m.src r.1.1 r.1.2 r.2
    if c.2 ≤ room ∧ m.clear s .load (m.src + c.1) c.2 ∧ !m.waits s .load (m.src + c.1) c.2 then some (done (m.take s c.1 c.2)) else none)) ++
  m.got.zipIdx.filterMap (fun g =>
    let c := s.somePart m.dst g.1.1 g.1.2.length (1000 + g.2)
    let o := if m.ordered then g.1.1 else c.1
    if m.clear s .store (m.dst + o) c.2 ∧ !m.waits s .store (m.dst + o) c.2 then some (done (m.put s o (min c.2 (g.1.1 + g.1.2.length - o)))) else none) ++
  (if m.todo.isEmpty ∧ m.turn s ∧ !m.blockWaits s then [done (m.nextBlock s)] else [])

/-- COPY: the packet is taken, and its copy begins. -/
def copyPacket (s : State) (q : Nat) : State :=
  if s.hasTurn q 5 then
    let p := s.headPacket q
    let job := s.headJob q
    let ridx := s.readIndex (s.queue q)
    let t := s.takeHead q
    match s.addressStatus job p with
    | some e => t.enterTaken q ridx p job none (some (e, 0))
    | none => (let u := t.enterTaken q ridx p job none none; startCopy u u.miller.count job p)
  else s

/-! ## The task graph (R348) -/

/-- Replaces node `i`. -/
def State.setNode (s : State) (i : Nat) (n : Node) : State := s.modMiller (fun m => { m with nodes := setv Node.free m.nodes i n })

/-- The signed 32-bit count of a node. -/
def count32 (v : Int) : Int := toSigned 32 (wrapInt 32 v)

/-- NODE: accepted into the graph, or complete with status 0x05. -/
def acceptNode (s : State) (q : Nat) : State :=
  if s.hasTurn q 4 then
    let p := s.headPacket q
    let job := s.headJob q
    let ridx := s.readIndex (s.queue q)
    let f := pktField p
    let id := f 0x40 2
    let t := s.takeHead q
    if (s.node id).defined then t.enterTaken q ridx p job none (some (5, 0))
    else
      let u := t.enterTaken q ridx p job none none
      u.setNode id { Node.free with
        count := count32 ((s.node id).count + (f 0x42 2 : Int)), defined := true, q := q, taken := u.miller.count,
        succ := (List.range (min 8 (f 0x44 1))).map (fun i => f (0x48 + 2 * i) 2), work := f 0x58 8, job := job }
  else s

/-- A node is released: its successors' counts fall, and it is free. -/
def releaseNode (s : State) (i : Nat) : State :=
  let n := s.node i
  let s1 := n.succ.foldl (fun t k => t.setNode k { t.node k with count := count32 ((t.node k).count - 1) }) s
  s1.setNode i Node.free

/-- The Miller reads a packet through its leaves: A is set, uncorrectable errors are counted, a peer that does not answer gives an event
(R321, R358, R374). -/
def State.usePacket (s : State) (job : Option Nat) (a n : Nat) : State :=
  (chunks a n).foldl (fun t c => match t.millerHit job c.1 .load with
    | .ok w b f => (t.millerUse job c.1 f false c.2).meetBad w b c.2
    | .fault 0x59 p => t.millerLost p
    | .fault _ _ => t) s

/-- The work packet of a node is read, as much of it as can be. -/
def State.useWork (s : State) (n : Node) : State := s.usePacket n.job n.work (64 * (s.workOf n).elim 1 pktSlots)

/-- A work packet is dispatched, at the NODE's priority; its turn is spent, a LAUNCH's when it is bound (R354). -/
def dispatchWork (s : State) (i : Nat) (n : Node) (t : Taken) (w : Nat) : State :=
  let s0 := (s.useWork n).useWaits n.job w
  let s1 := (if pktType w = 1 then s0 else s0.spendTurn (pktPrio t.pkt) t.q).setNode i { n with running := true }
  match pktType w with
  | 0x01 => askJob s1 t.q t.ridx w (pktPrio t.pkt) n.job (some i)
  | 0x05 =>
    match s1.addressStatus n.job w with
    | some e => s1.enterTaken t.q t.ridx w n.job (some i) (some (e, 0))
    | none => (let u := s1.enterTaken t.q t.ridx w n.job (some i) none; startCopy u u.miller.count n.job w)
  | _ => s1.enterTaken t.q t.ridx w n.job (some i) (some ((s1.addressStatus n.job w).getD 0, 0))

/-- NODE_RUN: a defined node with count zero has its work read and validated, and dispatched once it has its turn. -/
def nodeRun (s : State) (i : Nat) : State :=
  let n := s.node i
  match s.nodeWork i with
  | .waits => s
  | .lost => releaseNode (((if (s.addressStatus n.job ((s.takenOf n.taken).elim 0 (·.pkt))).isSome then s else s.useWork n)).setStatus n.taken 3 0) i
  | .bad e => releaseNode ((s.useWork n).setStatus n.taken 9 e) i
  | .packet t w => if s.workTurn i then dispatchWork s i n t w else s

/-! ## Completion (R351) -/

/-- A packet with a status completes: the signal add, then the event; a node's work completes its NODE. -/
def completeTaken (s : State) (n : Nat) : State :=
  match s.takenOf n with
  | none => s
  | some t =>
    match t.status with
    | none => s
    | some st =>
      let tells := pktNotify t.pkt || st.1 != 0
      if tells ∧ 4096 ≤ s.miller.events.buffer.length then s
      else
        let sig := pktSigAddr t.pkt
        let s1 := if sig ≠ 0 ∧ (st.1 = 0 ∨ pktSigerr t.pkt) then s.millerAdd t.job sig (pktSigVal t.pkt) else s
        let id := if pktType t.pkt = 1 then t.q * 2 ^ 32 + t.ridx else t.ridx
        let cause := if st.1 = 4 ∨ st.1 = 9 then st.2 else s1.free 9504
        let s2 := if tells then (s1.addEvent 0x100 (eventRec 1 st.1 t.q (pktTag t.pkt) id cause)).draw else s1
        let s3 := s2.modMiller (fun m => { m with taken := m.taken.filter (fun o => o.n != n) })
        match t.node with
        | some i => releaseNode (s3.setStatus (s3.node i).taken st.1 st.2) i
        | none => s3

/-- PACKET_COMPLETE: a COPY comes to its end, and what has a status completes. -/
def packetComplete (s : State) (n : Nat) : State := completeTaken (endCopy s n) n

/-! ## Shootdowns (R325, R326) -/

/-- Whether a kind with its range covers `n` bytes from `va` of an address space, global or not. -/
def tlbiHits (kind asid va pages : Nat) (a : Nat) (global : Bool) (at_ n : Nat) : Bool :=
  let range := overlap at_ n va (pages * 65536)
  match kind with
  | 0 => true
  | 1 => a == asid && !global
  | 2 => a == asid && !global && range
  | _ => range

/-- Whether a kind with its range covers a page: a block of 512 MiB, when any of its pages lies in the range. -/
def tlbiPage (kind asid va pages : Nat) (a page level : Nat) (global : Bool) : Bool :=
  if level = 1 then tlbiHits kind asid va pages a global (page / 8192 * 2 ^ 29) (2 ^ 29)
  else tlbiHits kind asid va pages a global (page * 65536) 65536

/-- What the caches of the translations of a die keep: every table entry goes but for kind 2, which discards those of its ASID; walks
begin again (R326, 1). -/
def DieTables.shot (t : DieTables) (kind asid : Nat) (gone : TlbEntry → Bool) : DieTables :=
  { t with tables := if kind = 2 then t.tables.filter (fun e => e.1 != asid) else []
           tlbs := t.tlbs.map (fun l => (l.1, l.2.filter (fun e => !gone e))) }

/-- Whether a dirty line belongs to a load-block: one of its translations gives it an address of the block. -/
def Dirty.inBlock (e : Dirty) (b : LoadBlock) : Bool :=
  e.vias.any (fun v => v.asid == b.asid && overlap (v.page * 65536 + e.place % 65536) 128 b.va (128 * b.lines))

/-- A shootdown on every die (R326): the translations go, with what was fetched, pinned (R202) and loaded through them, dirty lines being
written back; what is in a fetch path may stay there (R57); then every write through one of them that has still to become visible performs. -/
def shootDown (s : State) (kind asid va pages : Nat) : State :=
  let page := tlbiPage kind asid va pages
  let via := fun (v : Via) => page v.asid v.page v.level v.glob
  let gone := fun (e : TlbEntry) => page e.asid e.page e.level (bitAt e.pte 10)
  let block := fun (b : LoadBlock) => tlbiHits kind asid va pages b.asid false b.va (128 * b.lines)
  let s1 := s.cores.foldl (fun t c => t.holdPaths c.1) s
  let t : State := { s1 with
    cores := s1.cores.map (fun c => (c.1, { c.2 with
      tlb := c.2.tlb.filter (fun e => !gone e)
      icache := c.2.icache.filter (fun e => !via e.2.via)
      dict := c.2.dict.map (fun e => if via e.2.via || via e.2.viab then (e.1, { e.2 with valid := false }) else e)
      blocks := c.2.blocks.filter (fun b => !block b) }))
    dies := s1.dies.map (fun d => (d.1, d.2.shot kind asid gone))
    mem := { s1.mem with
      locked := s1.mem.locked.filter (fun l => !via l.via)
      l1 := s1.mem.l1.filter (fun e => !(e.vias.any via || (s1.core e.core).blocks.any (fun b => block b && e.inBlock b))) } }
  t.showLoose (fun d => d.space != 1 && via d.via)

/-- TLBI. -/
def tlbiPacket (s : State) (q : Nat) : State :=
  if s.hasTurn q 6 then
    let p := s.headPacket q
    let f := pktField p
    let t := shootDown (s.takeHead q) (f 0x40 1) (f 0x42 2) (f 0x48 8) (f 0x44 4)
    t.enterTaken q (s.readIndex (s.queue q)) p none none (some ((s.addressStatus none p).getD 0, 0))
  else s

/-! ## The rows -/

/-- LAUNCH: a launch packet whose waits hold asks to bind a job. -/
def execLaunch (q : Nat) (s : State) : Host.Outcome State Fault Refusal := .next (launch s q)
/-- JOB_BIND: with enough free places the Miller loads the code objects and binds the job's contexts. -/
def execJobBind (j : Nat) (s : State) : Host.Outcome State Fault Refusal := .next (jobBind s j)
/-- WAIT: completes when its waits hold. -/
def execWait (q : Nat) (s : State) : Host.Outcome State Fault Refusal := .next (startPlain s q 2)
/-- SIGNAL: completes when it starts. -/
def execSignal (q : Nat) (s : State) : Host.Outcome State Fault Refusal := .next (startPlain s q 3)
/-- NODE: a node is accepted into the task graph. -/
def execNode (q : Nat) (s : State) : Host.Outcome State Fault Refusal := .next (acceptNode s q)
/-- NODE_RUN: a node whose count is zero has its work dispatched. -/
def execNodeRun (id : Nat) (s : State) : Host.Outcome State Fault Refusal := .next (nodeRun s id)
/-- COPY: the Miller's copy engine copies bytes. -/
def execCopy (q : Nat) (s : State) : Host.Outcome State Fault Refusal := .next (copyPacket s q)
/-- TLBI: shoots down translations. -/
def execTlbi (q : Nat) (s : State) : Host.Outcome State Fault Refusal := .next (tlbiPacket s q)
/-- PACKET_COMPLETE: a packet completes with a status. -/
def execPacketComplete (n : Nat) (s : State) : Host.Outcome State Fault Refusal := .next (packetComplete s n)
/-- JOB_COMPLETE: every context has ended and all work and children have completed. -/
def execJobComplete (j : Nat) (s : State) : Host.Outcome State Fault Refusal := .next (jobComplete s j)

end Sys2Proof.Machine
end

