-- ==== Sys2Proof/Machine/HostPort.lean ====
section
/-! DEFINITION. The host port and the leat ports (R275 to R277, R337 to R340, R352, R356 to R359, R363, R365): BAR0, queue control,
regions, attestation, and what the host and peers do to memory. -/

namespace Sys2Proof.Machine

/-! ## Regions (R239, R240, R365) -/

/-- Whether the descriptor at `a` meets the limits of Table 11.1. -/
def State.descOk (s : State) (a : Nat) : Bool :=
  let f := fun n len => s.readN .dram (a + n) len
  let hb := f 0x10 8
  let hs := f 0x18 8
  let tb := f 0x20 8
  let te := f 0x28 4
  decide (a + 128 ≤ dramEnd) && hb % 65536 == 0 && hs % 65536 == 0 && decide (2 ^ 20 ≤ hs) && tb % 65536 == 0 &&
    decide (4096 ≤ te) && decide (te ≤ 2 ^ 31) && te == 2 ^ Nat.log2 te && decide (8 ≤ f 0x2C 1 ∧ f 0x2C 1 ≤ 120) && f 0x2D 3 == 0 &&
    decide (hb + hs ≤ dramEnd) && decide (tb + 32 * te ≤ dramEnd) && !overlap hb hs tb (32 * te)

/-- Changes region `r`. -/
def State.modRegion (s : State) (r : Nat) (f : Region → Region) : State :=
  s.modMiller (fun m => { m with regions := put m.regions r (f (s.region r)) })

/-- The Miller installs region `r`, or refuses with event type 2; an uncorrectable error in its descriptor is counted (R374). -/
def installRegion (s0 : State) (r : Nat) : State :=
  let g := s0.region r
  let s := s0.meetBad .dram g.desc 128
  if s.descOk g.desc then
    let f := fun n len => s.readN .dram (g.desc + n) len
    (s.writeN .dram (g.desc + 0x30) 56 0).modRegion r (fun _ =>
      { Region.reset with desc := g.desc, req := true, inst := true, salt := f 0 16, hwidth := f 0x2C 1, tentries := f 0x28 4,
                          hsize := f 0x18 8, hbase := f 0x10 8, install := g.install + 1 })
  else s.openEvent (0x210 + r) 2 (some 4) (some 0xFF) none

/-- req := 1: installation is asked for; a region still installed stays so. -/
def regionInstall (s : State) (r : Nat) : State :=
  let s1 := s.modRegion r (fun g => { g with req := true })
  if (s.region r).inst ∨ s.boot.stage < 6 then s1 else installRegion s1 r

/-- req := 0: removal is asked for. -/
def regionRelease (s : State) (r : Nat) : State := s.modRegion r (fun g => { g with req := false })

/-- Whether a bound job holds region `r` in its rmask. -/
def State.regionHeld (s : State) (r : Nat) : Bool := s.jobList.any (fun j => (j.2.st == 1 || j.2.st == 2) && bitAt j.2.rmask r)

/-- The Miller removes region `r`: its lines and names cease to exist; its installations stay counted (R258). -/
def regionRemove (s : State) (r : Nat) : State :=
  let g := s.region r
  if g.inst ∧ !g.req ∧ !s.regionHeld r then s.modRegion r (fun g => { Region.reset with desc := g.desc, install := g.install }) else s

/-! ## Queue control (R340) -/

/-- The head LAUNCH of a queue stops asking. -/
def dropAsking (s : State) (q : Nat) : State :=
  s.modMiller (fun m => { m with jobs := m.jobs.filter (fun j => !(j.2.st == 0 && j.2.node.isNone && j.2.id / 2 ^ 32 == q)) })

/-- en := 1. -/
def queueEnable (s : State) (q : Nat) : State :=
  s.modQueue q (fun u => if u.st = 0 then { u with en := true, st := 1, valid := none } else { u with en := true })

/-- en := 0: a running queue is disabled, its head untaken. -/
def queueDisable (s : State) (q : Nat) : State :=
  if (s.queue q).st = 1 then (dropAsking s q).modQueue q (fun u => { u with en := false, st := 0, valid := none })
  else s.modQueue q (fun u => { u with en := false })

/-- rst := 1: disabled, the read index at the write index, every untaken packet discarded; identities of the queue are forgotten. -/
def queueReset (s : State) (q : Nat) : State :=
  let u := s.queue q
  let s1 := (dropAsking s q).writeN u.lineSpace (u.line + 64) 4 (s.writeIndex u)
  (s1.modQueue q (fun u => { u with en := false, st := 0, reason := 0, slot := 0, valid := none })).modMiller (fun m => { m with
    jobs := m.jobs.map (fun j => if j.2.id / 2 ^ 32 = q then (j.1, { j.2 with known := false }) else j) })

/-- A write of QCTL. -/
def qctlWrite (s : State) (q v : Nat) : State :=
  if bitAt v 1 then queueReset s q else if bitAt v 0 then queueEnable s q else queueDisable s q

/-! ## Events and attestation (R352, R363) -/

/-- EVRD takes a value: room is made, and records that wait are delivered. -/
def evrdWrite (s : State) (v : Nat) : State := (s.modEvents (fun e => { e with evrd := v % 2 ^ 64 })).deliverEvents

/-- A mailbox with bytes stored at an offset. -/
def mailPut (s : State) (a n v : Nat) : State := { s with boot := { s.boot with mailbox := memPutNat s.boot.mailbox a n v } }

/-- The attestation report over a nonce (R363). -/
def State.report (s : State) (nonce : List Nat) : List Nat :=
  let key := Config.identityKey 0
  let body := leBytes 4 (dieidWord 0) ++ nonce ++ beBytes 64 s.boot.fwDigest ++ sha512 s.boot.config ++
    (List.range 64).map (fun i => Config.millerCode i % 256) ++ ecdsaPublic key
  let digest := sha512 body
  body ++ ecdsaSign key (Config.signNonce (digestNat digest)) digest

/-- The device answers the nonce in the mailbox. -/
def attest (s : State) : State :=
  let r := s.report (leBytes 64 (memNat s.boot.mailbox 0 64))
  mailPut (mailPut s 0x40 r.length (leNat r)) 0x3F8 4 1

/-- The host writes a nonce and asks for a report. -/
def attestRequest (s : State) (nonce : List Nat) : State := attest (mailPut (mailPut s 0 64 (leNat (nonce.take 64))) 0x3FC 4 1)

/-! ## BAR0 (Table 20.1) -/

/-- Bits of storage handle register `n` that are stored (Table 20.11). -/
def handleMask : Nat → Nat
  | 0 => 2 ^ 52 - 2 ^ 6
  | 1 => 2 ^ 52 - 2 ^ 6
  | 2 => 2 ^ 63 + (2 ^ 49 - 2 ^ 16) + (2 ^ 12 - 1)
  | 3 => 2 ^ 64 - 1
  | 4 => 2 ^ 64 - 1
  | 5 => (2 ^ 52 - 2 ^ 20) + 127
  | 6 => 65535
  | _ => 0

/-- The 8-byte register at an offset that is a multiple of 8 (an LROUTE group of four entries; eight bytes of the mailbox). -/
def State.bar0Word (s : State) (off : Nat) : Nat :=
  if off = 0 then s.boot.stage + 256 * s.boot.err
  else if off = 0x100 then (if bitAt s.boot.ready 0 then 0xFFFFFFFF else 0) + (if bitAt s.boot.ready 1 then 0xFFFFFFFF * 2 ^ 32 else 0)
  else if off = 0x108 then (if bitAt s.boot.ready 2 then 0xFFFFFFFF else 0) + (if bitAt s.boot.ready 3 then 0xFFFFFFFF * 2 ^ 32 else 0)
  else if 0x800 ≤ off ∧ off < 0xC00 then memNat s.boot.mailbox (off - 0x800) 8
  else if off = 0x1000 then s.miller.events.evbase
  else if off = 0x1008 then s.miller.events.evcfg
  else if off = 0x1010 then s.miller.events.evidx
  else if off = 0x1018 then s.miller.events.evrd
  else if 0x2000 ≤ off ∧ off < 0x2080 then
    let g := s.region ((off - 0x2000) / 8)
    g.desc + 2 * g.inst.toNat + g.req.toNat
  else if 0x3000 ≤ off ∧ off < 0x3200 then
    (if off % 64 = 56 then 0 else s.handleReg ((off - 0x3000) / 64) (off % 64 / 8))
  else if off = 0x4000 then s.links.lexp
  else if 0x4010 ≤ off ∧ off < 0x6010 then
    let n := (off - 0x4010) / 2
    (List.range 4).foldl (fun v i => v + 2 ^ (16 * i) * look 0 s.links.lroute (n + i)) 0
  else if 0x10000 ≤ off ∧ off < 0x11000 then
    let u := s.queue ((off - 0x10000) / 64)
    match off % 64 / 8 with
    | 0 => u.qbase
    | 1 => u.qcfg
    | 2 => u.qidx
    | 3 => u.en.toNat + 256 * u.st
    | 4 => u.slot + 2 ^ 32 * u.reason
    | _ => 0
  else 0

/-- Whether a queue register write takes effect: only while DISABLED. -/
def disabledOnly (s : State) (q : Nat) (f : Queue → Queue) : State := if (s.queue q).st = 0 then s.modQueue q f else s

/-- A write of the mailbox: 1 at 0x3FC asks for a report. -/
def mailWrite (s : State) (a n v : Nat) : State :=
  let s1 := mailPut s a n v
  if a ≤ 0x3FC ∧ 0x3FC < a + n ∧ memNat s1.boot.mailbox 0x3FC 4 = 1 then attest s1 else s1

/-- The 8-byte register at `off` takes a value. -/
def bar0Put (s : State) (off v : Nat) : State :=
  if off = 0x1000 then s.modEvents (fun e => { e with evbase := fld v 6 46 * 64 })
  else if off = 0x1008 then (s.modEvents (fun e => { e with evcfg := v % 16 })).deliverEvents
  else if off = 0x1018 then evrdWrite s v
  else if 0x2000 ≤ off ∧ off < 0x2080 then
    let r := (off - 0x2000) / 8
    let s1 := if (s.region r).inst then s else s.modRegion r (fun g => { g with desc := fld v 7 45 * 128 })
    if bitAt v 0 then regionInstall s1 r else regionRelease s1 r
  else if 0x3000 ≤ off ∧ off < 0x3200 then
    let i := off % 64 / 8
    s.modLinks (fun l => { l with handles := setv 0 l.handles (8 * ((off - 0x3000) / 64) + i) (v &&& handleMask i) })
  else if off = 0x4000 then s.modLinks (fun l => { l with lexp := v &&& (2 ^ 64 - 2 ^ 30 + 255) })
  else if 0x4010 ≤ off ∧ off < 0x6010 then
    let n := (off - 0x4010) / 2
    s.modLinks (fun l => { l with lroute := (List.range 4).foldl (fun m i => setv 0 m (n + i) (fld v (16 * i) 16)) l.lroute })
  else if 0x10000 ≤ off ∧ off < 0x11000 then
    let q := (off - 0x10000) / 64
    match off % 64 / 8 with
    | 0 => disabledOnly s q (fun u => { u with qbase := v &&& (2 ^ 63 + (2 ^ 52 - 2 ^ 6)) })
    | 1 => disabledOnly s q (fun u => { u with qcfg := max 2 (v % 16) + (v &&& 0x710) })
    | 2 => disabledOnly s q (fun u => { u with qidx := v &&& (2 ^ 63 + (2 ^ 52 - 2 ^ 7)) })
    | 3 => qctlWrite s q v
    | _ => s
  else s

/-- A host write of `size` bytes at offset `off` of BAR0; the queue registers take 4 and 8 bytes (R338). -/
def bar0Write (s : State) (off size val : Nat) : State :=
  let inQueue := decide (0x10000 ≤ off ∧ off < 0x11000)
  if (size ≠ 1 ∧ size ≠ 2 ∧ size ≠ 4 ∧ size ≠ 8) ∨ off % size ≠ 0 ∨ 2 ^ 20 ≤ off ∨ (inQueue ∧ size < 4) then s
  else if 0x800 ≤ off ∧ off < 0xC00 then mailWrite s (off - 0x800) size val
  else
    let base := off / 8 * 8
    let sh := 8 * (off - base)
    let old := s.bar0Word base
    bar0Put s base (old - fld old sh (8 * size) * 2 ^ sh + val % 2 ^ (8 * size) * 2 ^ sh)

/-! ## Host and peer accesses (R275 to R277, R356 to R358) -/

/-- The bits of `ready` that stand for device memory: the four towers and their home agents on d3 (R11, Table 20.13). -/
def memoryBits : Nat := 15 * 2 ^ 29 + 15 * 2 ^ 25

/-- Whether the host uses device memory: the host port and the memory are ready (R364). -/
def State.hostReady (s : State) : Bool := bitAt s.boot.ready 33 && s.boot.ready &&& memoryBits == memoryBits

/-- Whether peers use it: a leat port and the memory are ready (R364). -/
def State.peerReady (s : State) : Bool := fld s.boot.ready 35 16 != 0 && s.boot.ready &&& memoryBits == memoryBits

/-- An outside agent reads device memory; the bytes are the answer, those of a piece in error as they are stored (R374). An access
before `up` does not perform, and is answered with nothing (R364; notes/assumptions/34.md). -/
def outsideLoad (s : State) (up : Bool) (a n : Nat) : State :=
  if up ∧ a + n ≤ dramEnd then { s.meetBad .dram a n with reply := leBytes n (s.readN .dram a n) } else { s with reply := [] }

/-- An outside agent writes device memory. -/
def outsideStore (s : State) (up : Bool) (a : Nat) (data : List Nat) : State :=
  if up ∧ a + data.length ≤ dramEnd then s.writeN .dram a data.length (leNat data) else s

/-- An outside agent's atomic of `n` bytes, with nothing between its read and its write (R272); its old value is the answer. -/
def outsideAtomic (s : State) (up : Bool) (f : AmoFn) (a n b c : Nat) : State :=
  if up ∧ a + n ≤ dramEnd ∧ a % n = 0 then
    let s1 := s.passLoose .dram a n
    let old := s1.readN .dram a n
    let s2 := { s1.meetBad .dram a n with reply := leBytes n old }
    match f (8 * n) old b c with
    | some v => s2.storeBy (fun _ => true) .dram a n v
    | none => s2
  else { s with reply := [] }

/-- A host AtomicOp: FetchAdd (0), Swap (1), CompareAndSwap (2) of value `a` against `b` (Table 20.10). -/
def hostAtomic (s : State) (kind addr size a b : Nat) : State :=
  match kind with
  | 0 => if size = 4 ∨ size = 8 then outsideAtomic s s.hostReady amoAdd addr size (a % 2 ^ (8 * size)) 0 else { s with reply := [] }
  | 1 => if size = 4 ∨ size = 8 then outsideAtomic s s.hostReady amoXchg addr size (a % 2 ^ (8 * size)) 0 else { s with reply := [] }
  | 2 =>
    if size = 4 ∨ size = 8 ∨ size = 16 then outsideAtomic s s.hostReady amoCas addr size (a % 2 ^ (8 * size)) (b % 2 ^ (8 * size))
    else { s with reply := [] }
  | _ => { s with reply := [] }

/-- The atomics of Table 9.9, as a peer access names them: opcode − 2, of 4 bytes (even) or 8 bytes (odd). -/
def peerAmo : Nat → Option AmoFn
  | 0 => some amoAdd
  | 1 => some amoMin
  | 2 => some amoMax
  | 3 => some amoMinc
  | 4 => some amoMaxc
  | 5 => some amoAnd
  | 6 => some amoOr
  | 7 => some amoXor
  | 8 => some amoXchg
  | 9 => some amoCas
  | 10 => some amoFadd
  | 11 => some amoIncw
  | 12 => some amoFaddh
  | _ => none

/-- A peer access within the window that LEXP exports (R357): kind 0 reads as many bytes as `data` has, kind 1 writes them, kind
2 + n performs atomic n of `peerAmo`, `data` holding its operand (and for the compare-and-swap the value compared after it).
Beyond the export it is refused, and nothing performs (R358). -/
def peerAccess (s : State) (kind addr : Nat) (data : List Nat) : State :=
  let a := fld s.links.lexp 30 22 * 2 ^ 30 + addr
  let n := data.length
  if addr + n ≤ s.links.lexp % 256 * 2 ^ 30 then
    match kind with
    | 0 => outsideLoad s s.peerReady a n
    | 1 => outsideStore s s.peerReady a data
    | k =>
      match peerAmo (k - 2) with
      | none => s
      | some f =>
        if k = 11 then outsideAtomic s s.peerReady f a (n / 2) (leNat (data.take (n / 2))) (leNat (data.drop (n / 2)))
        else outsideAtomic s s.peerReady f a n (leNat data) 0
  else { s with reply := [] }

/-- A CXL.cache request of the host for bytes of host memory: they take the values given (R276). -/
def hostSnoop (s : State) (addr : Nat) (data : List Nat) : State :=
  if data = [] ∨ 2 ^ 52 < addr + data.length then s else s.writeN .host addr data.length (leNat data)

/-! ## Leat ports (R357, R358, R364) -/

/-- Port `p`. -/
def State.port (s : State) (p : Nat) : Port := look ⟨0, 0, 0, 0⟩ s.links.ports p
/-- Changes port `p`. -/
def State.modPort (s : State) (p : Nat) (f : Port → Port) : State := s.modLinks (fun l => { l with ports := put l.ports p (f (s.port p)) })

/-- A number with bit `i` set or cleared. -/
def withBit (v i : Nat) (b : Bool) : Nat := if bitAt v i then (if b then v else v - 2 ^ i) else if b then v + 2 ^ i else v

/-- Byte `i` of the configuration block in force. -/
def State.cfg (s : State) (i : Nat) : Nat := s.boot.active.getD i 0

/-- A flit is received; one in error is retried at link level. -/
def flitReceive (s : State) (p : Nat) (err : Bool) : State :=
  if (s.port p).lanes = 0 then s
  else s.modPort p (fun q => if err then { q with retries := (q.retries + 1) % 2 ^ 16 } else { q with recv := (q.recv + 1) % 2 ^ 48 })

/-- A port goes down. -/
def portDown (s : State) (p : Nat) : State :=
  if (s.port p).lanes = 0 then s
  else (setReady (s.modPort p (fun q => { q with lanes := 0 })) (withBit s.boot.ready (35 + p) false)).linkEvent (srcLeat p) (some p)

/-- An enabled port trains. -/
def portTrained (s : State) (p lanes : Nat) : State :=
  if p < 16 ∧ 1 ≤ lanes ∧ lanes ≤ 8 ∧ bitAt (s.cfg 10 + 256 * s.cfg 11) p then
    setReady (s.modPort p (fun q => { q with lanes := lanes })) (withBit s.boot.ready (35 + p) true)
  else s

/-- R364: what the host does through BAR0 happens once the host port is ready; before, nothing does. -/
def State.byHost (s : State) (f : State → State) : State := if bitAt s.boot.ready 33 then f s else s

/-! ## The rows -/

/-- QUEUE_ENABLE: QCTL.en = 1 sets the queue RUNNING. -/
def execQueueEnable (q : Nat) (s : State) : Host.Outcome State Fault Refusal := .next (s.byHost (fun t => queueEnable t q))
/-- QUEUE_DISABLE: QCTL.en = 0 sets the queue DISABLED. -/
def execQueueDisable (q : Nat) (s : State) : Host.Outcome State Fault Refusal := .next (s.byHost (fun t => queueDisable t q))
/-- QUEUE_RESET: QCTL.rst = 1 disables the queue and discards untaken packets. -/
def execQueueReset (q : Nat) (s : State) : Host.Outcome State Fault Refusal := .next (s.byHost (fun t => queueReset t q))
/-- REGION_INSTALL_REQUEST: req = 1 asks the Miller to install a region. -/
def execRegionInstallRequest (r : Nat) (s : State) : Host.Outcome State Fault Refusal := .next (s.byHost (fun t => regionInstall t r))
/-- REGION_REMOVE_REQUEST: req = 0 asks for removal of a region. -/
def execRegionRemoveRequest (r : Nat) (s : State) : Host.Outcome State Fault Refusal := .next (s.byHost (fun t => regionRelease t r))
/-- REGION_REMOVE: the region is removed once no bound job holds it. -/
def execRegionRemove (r : Nat) (s : State) : Host.Outcome State Fault Refusal := .next (regionRemove s r)
/-- EVRD_WRITE: the host advances the event-ring read index. -/
def execEvrdWrite (v : Nat) (s : State) : Host.Outcome State Fault Refusal := .next (s.byHost (fun t => evrdWrite t v))
/-- ATTEST_REQUEST: the host writes a nonce and asks for a signed report. -/
def execAttestRequest (nonce : List Nat) (s : State) : Host.Outcome State Fault Refusal := .next (s.byHost (fun t => attestRequest t nonce))
/-- BAR0_WRITE: a host write to BAR0. -/
def execBar0Write (off size val : Nat) (s : State) : Host.Outcome State Fault Refusal := .next (s.byHost (fun t => bar0Write t off size val))
/-- HOST_POSTED_WRITE: a host write to device memory performs at the home agent; the outside gives the order in which its writes
perform, so the attribute adds nothing here. -/
def execHostPostedWrite (addr : Nat) (data : List Nat) (_ro : Bool) (s : State) : Host.Outcome State Fault Refusal :=
  .next (outsideStore s s.hostReady addr data)
/-- HOST_READ: a host read of device memory is served at the home agent. -/
def execHostRead (addr n : Nat) (s : State) : Host.Outcome State Fault Refusal := .next (outsideLoad s s.hostReady addr n)
/-- HOST_ATOMICOP: a host AtomicOp is completed at the home agent. -/
def execHostAtomicop (kind addr size a b : Nat) (s : State) : Host.Outcome State Fault Refusal := .next (hostAtomic s kind addr size a b)
/-- PEER_ACCESS: a peer access arrives over leat. -/
def execPeerAccess (kind addr : Nat) (data : List Nat) (s : State) : Host.Outcome State Fault Refusal := .next (peerAccess s kind addr data)
/-- FLIT_RECEIVE: a leat flit is received, or retried. -/
def execFlitReceive (p : Nat) (err : Bool) (s : State) : Host.Outcome State Fault Refusal := .next (flitReceive s p err)
/-- CXL_CACHE_SNOOP: a CXL.cache request of the host invalidates or recalls a line of host memory. -/
def execCxlCacheSnoop (addr : Nat) (data : List Nat) (s : State) : Host.Outcome State Fault Refusal := .next (hostSnoop s addr data)
/-- LEAT_PORT_DOWN: a leat port goes down. -/
def execLeatPortDown (p : Nat) (s : State) : Host.Outcome State Fault Refusal := .next (portDown s p)
/-- LEAT_PORT_TRAINED: a leat port trains its lanes. -/
def execLeatPortTrained (p lanes : Nat) (s : State) : Host.Outcome State Fault Refusal := .next (portTrained s p lanes)
/-- AER_UNCORRECTABLE_ERROR: an uncorrectable error on the host port. -/
def execAerUncorrectableError (_info : Nat) (s : State) : Host.Outcome State Fault Refusal := .next (s.linkEvent srcHostPort none)

end Sys2Proof.Machine
end

