-- ==== Sys2Proof/Machine/Snap.lean ====
section
/-! DEFINITION. Recovery points (R349, R368 to R373), the completions of storage commands (R360), and QUERY (R349, R350, R375). -/

namespace Sys2Proof.Machine

/-! ## The image of a full point (R370) -/

/-- Bytes of a full image. -/
def fullBytes : Nat := 2 ^ 20 + dramEnd

/-- The 8-byte BAR0 registers from an offset. -/
def State.barBytes (s : State) (off n : Nat) : List Nat := (List.range n).flatMap (fun i => leBytes 8 (s.bar0Word (off + 8 * i)))

/-- The state block: regions, handles, LEXP, LROUTE, queues, one after another, before its padding. -/
def State.stateBlock (s : State) : List Nat :=
  s.barBytes 0x2000 16 ++ s.barBytes 0x3000 64 ++ s.barBytes 0x4000 1 ++ s.barBytes 0x4010 1024 ++ s.barBytes 0x10000 512

/-- Device DRAM as the image of a SNAP finds it: pieces that were written while it runs as they were or as they are (R368). -/
def State.imageDram (s : State) (p : Snap) : Memory := p.kept.foldl (fun m q => memPutNat m q.1 16 q.2.1) s.mem.dram

/-- The state block with its padding. -/
def State.paddedBlock (s : State) : List Nat := (let b := s.stateBlock; b ++ List.replicate (2 ^ 20 - b.length) 0)

/-- `n` bytes of the image of a SNAP from offset `a`: of a full one, the state block and DRAM as stored; `a` and `n` cut neither. -/
def State.imageBytes (s : State) (p : Snap) (a n : Nat) : List Nat :=
  if p.kind = 0 ∧ 2 ^ 20 ≤ a then leBytes n (memNat (s.imageDram p) (a - 2 ^ 20) n) else (p.image.drop a).take n

/-- The listed bytes of the first `share` bytes of an image, by offset; DRAM follows the state block. -/
def State.imageCells (s : State) (p : Snap) (share : Nat) : Memory :=
  (((p.image.take (if p.kind = 0 then min share (2 ^ 20) else share)).zipIdx.filter (fun q => q.1 % 256 != 0)).map (fun q => (q.2, BitVec.ofNat 8 q.1))) ++
    (if p.kind = 0 then ((s.imageDram p).filter (fun q => decide (q.1 + 2 ^ 20 < share))).map (fun q => (q.1 + 2 ^ 20, q.2)) else [])

/-- The first `share` bytes of an image go to the host window at `w`. -/
def hostShare (s : State) (w share : Nat) (cells : Memory) : State :=
  let join := fun (h : Memory) =>
    h.filter (fun p => decide (p.1 < w)) ++ cells.map (fun p => (w + p.1, p.2)) ++ h.filter (fun p => decide (w + share ≤ p.1))
  s.modMem (fun m => { m with host := join m.host })

/-! ## Naming the lines of an incremental point (R372) -/

/-- The lines of the ranges of a manifest. -/
def State.rangeLines (s : State) (p : Snap) : List Nat :=
  let m := p.manifest
  (List.range (s.readN .dram (m + 0x14) 4)).flatMap (fun i =>
    let b := s.readN .dram (m + 0x80 + 16 * i) 8
    (List.range (s.readN .dram (m + 0x88 + 16 * i) 8 / 128)).map (fun k => memNat (s.imageDram p) (b + 128 * k) 128))

/-- The uncorrectable pieces of [a, a + n) of DRAM as the image of a SNAP finds it: of a piece whose earlier value it holds, as it then was
(R370). -/
def State.badFound (s : State) (p : Snap) (a n : Nat) : List Nat :=
  (s.badIn .dram a n).filter (fun b => !p.kept.any (fun q => q.1 == b)) ++
    (p.kept.filter (fun q => q.2.2 && overlap q.1 16 a n)).map (·.1)

/-- The uncorrectable pieces met in the ranges of a manifest. -/
def State.rangeBad (s : State) (p : Snap) : List Nat :=
  let m := p.manifest
  (List.range (s.readN .dram (m + 0x14) 4)).flatMap (fun i =>
    s.badFound p (s.readN .dram (m + 0x80 + 16 * i) 8) (s.readN .dram (m + 0x88 + 16 * i) 8))

/-! ## The run of a SNAP (R368) -/

/-- Stripes of an image that go to storage. -/
def Snap.stripes (p : Snap) : Nat := (p.total - p.share + 2 ^ 20 - 1) / 2 ^ 20
/-- The handles of a mask, ascending. -/
def Snap.handleList (p : Snap) : List Nat := (List.range 8).filter (fun h => bitAt p.handles h)

/-- Changes the SNAP under way. -/
def State.modSnap (s : State) (f : Snap → Snap) : State := s.modMiller (fun m => { m with snap := m.snap.map f })

/-- Reading DRAM for the image meets uncorrectable pieces: each is counted, and each line that has one counts in `ue` (R370, R374). -/
def State.meetUe (s : State) (l : List Nat) : State :=
  (l.foldl State.countUe s).modSnap (fun p => { p with ue := (p.ue + (l.map (· / 128)).eraseDups.length) % 2 ^ 32 })

/-- The uncorrectable pieces in the bytes [a, a + n) of an image. -/
def State.imageBad (s : State) (p : Snap) (a n : Nat) : List Nat :=
  if p.kind = 0 then s.badFound p (a - 2 ^ 20) (a + n - 2 ^ 20 - (a - 2 ^ 20)) else []

/-- Step 1 and the beginning of step 2 (R368): dirty lines are written back, and the state block is read, or the lines of an incremental
point are read and named (R372). -/
def snapRead (s : State) (p : Snap) : State :=
  let s0 := s.modMem (fun m => { m with l1 := [] })
  if p.kind = 0 then
    s0.modSnap (fun p => { p with stage := 1, image := s.paddedBlock, total := fullBytes, share := min p.share fullBytes })
  else
    let lines := s0.rangeLines p
    let d := treeDepth lines.length 11 1
    let g := nameTree (s0.region p.region) lines d
    let image := if g.fail.isNone then g.recs.flatMap (fun e => leBytes 16 e.1 ++ leBytes 128 e.2) else []
    ((s0.putRegion p.region g.reg).meetUe (s0.rangeBad p)).modSnap (fun p => { p with
      stage := 1, image := image, total := image.length, share := min p.share image.length, depth := d, root := g.root
      status := if g.fail.isSome then 3 else 0 })

/-- The host window of the body of the SNAP's packet. -/
def State.snapWindow (s : State) (p : Snap) : Nat := (s.takenOf p.taken).elim 0 (fun t => pktField t.pkt 0x48 8)

/-- The host share goes to the host window; a window that leaves host memory ends the point with status 2. -/
def snapShare (s : State) (p : Snap) : State :=
  if 2 ^ 52 < s.snapWindow p + p.share then
    s.modSnap (fun p => { p with stage := 2, total := p.share, status := if p.status = 0 then 2 else p.status })
  else
    ((hostShare s (s.snapWindow p) p.share (s.imageCells p p.share)).meetUe (s.imageBad p 0 p.share)).modSnap (fun p => { p with
      stage := 2, wrote := p.share })

/-- The bytes of stripe `k`, a partial last block of them filled up with open bytes. -/
def State.stripe (s : State) (p : Snap) (k bs : Nat) : List Nat :=
  let a := p.share + k * 2 ^ 20
  let l := s.imageBytes p a (min (2 ^ 20) (p.total - a))
  l ++ (List.range ((bs - l.length % bs) % bs)).map (fun i => s.free (9600 + i) % 256)

/-- The next stripe is read and submitted, where the handle whose turn it is has a free slice; a handle that is not configured ends the
point with status 1. -/
def snapStripe (s : State) (p : Snap) : State :=
  let hs := p.handleList
  match hs[p.next % hs.length]? with
  | none => s.modSnap (fun p => { p with status := 1, next := p.stripes })
  | some h =>
    if !s.handleValid h then s.modSnap (fun p => { p with status := 1, next := p.stripes })
    else
      match s.freeSlice h with
      | none => s
      | some _ =>
        let bs := s.blockSize h
        let data := s.stripe p p.next bs
        let s1 := addNvme s 512 p.taken h 1 [(p.lba0 + 2 ^ 20 / bs * (p.next / hs.length), data.length / bs, data)]
        ((s1.meetUe (s.imageBad p (p.share + p.next * 2 ^ 20) (min (2 ^ 20) (p.total - (p.share + p.next * 2 ^ 20))))).modSnap (fun p =>
          { p with next := p.next + 1, open_ := p.open_ + 1 })).draw

/-- The end of a SNAP: its fields, status last, and the completion of its packet. -/
def endSnap (s : State) : State :=
  match s.miller.snap with
  | none => s
  | some p =>
    if p.next < p.stripes ∨ p.open_ ≠ 0 then s
    else
      let m := p.manifest
      let w := fun (t : State) (off n v : Nat) => t.writeN .dram (m + off) n v
      let s1 := w (w (w (w (w s 0x07 1 p.depth) 0x20 16 p.root) 0x40 8 p.wrote) 0x48 4 p.ue) 0x50 8 (s.clock - p.start)
      let s2 := w s1 0x06 1 p.status
      let g := s2.region p.region
      let s3 := if p.kind = 1 ∧ p.status = 0 ∧ g.known p.drop then s2.putRegion p.region (g.dec p.drop) else s2
      ((s3.modMiller (fun q => { q with snap := none })).setStatus p.taken (if p.status = 0 then 0 else 8) 0)

/-- The next thing that a SNAP under way does: it reads, sends the host share, submits a stripe, or ends. Nothing where it waits for
storage. -/
def snapWork (s : State) : State :=
  match s.miller.snap with
  | none => s
  | some p =>
    match p.stage with
    | 0 => snapRead s p
    | 1 => snapShare s p
    | _ => if p.next < p.stripes then snapStripe s p else endSnap s

/-- SNAP starts, its packet taken under number `n`; an uncorrectable error in its manifest is counted (R374); what follows is `snapWork`. -/
def startSnap (s0 : State) (n p : Nat) : State :=
  let f := pktField p
  let m := f 0x50 8
  let s := s0.meetBad .dram m 128
  let r := f 0x42 1
  if s.jobList.any (fun j => j.2.st == 2) then (s.writeN .dram (m + 6) 1 4).setStatus n 8 0
  else if f 0x40 1 = 1 ∧ !(s.region r).inst then s.setStatus n 7 0
  else
    let start : Snap :=
      { taken := n, kind := f 0x40 1, handles := f 0x41 1, lba0 := s.readN .dram (m + 0x18) 8, manifest := m, start := s.clock
        share := s.readN .dram (m + 0x10) 4 * 2 ^ 30, total := 0, next := 0, open_ := 0, image := [], kept := [], stage := 0
        status := 0, depth := 0, root := 0, ue := 0, wrote := 0, region := r, drop := s.readN .dram (m + 0x30) 16 }
    s.modMiller (fun q => { q with snap := some start })

/-- SNAP. -/
def snapPacket (s : State) (q : Nat) : State :=
  if s.hasTurn q 8 then
    let p := s.headPacket q
    let ridx := s.readIndex (s.queue q)
    let t := s.takeHead q
    match s.addressStatus none p with
    | some e => t.enterTaken q ridx p none none (some (e, 0))
    | none => (let u := t.enterTaken q ridx p none none none; (startSnap u u.miller.count p).draw)
  else s

/-! ## Storage commands (R360) -/

/-- A command of the SNAP under way ends: with a failure the rest is not submitted. -/
def snapEnded (s : State) (ok : Bool) (bytes : Nat) : State :=
  s.modSnap (fun p =>
    { p with open_ := p.open_ - 1, wrote := if ok then p.wrote + bytes else p.wrote,
             status := if ok then p.status else 1, next := if ok then p.next else p.stripes })

/-- The bytes of the image in the stripe that a command of the SNAP writes (R369, R371): its number comes from its handle and its block. -/
def State.stripeBytes (s : State) (p : Snap) (c : Nvme) : Nat :=
  let hs := p.handleList
  let row := (c.lba - p.lba0) / (2 ^ 20 / s.blockSize c.handle)
  let k := row * hs.length + (hs.idxOf c.handle)
  min (2 ^ 20) (p.total - (p.share + k * 2 ^ 20))

/-- NVME_COMPLETION: command `n` completes. -/
def nvmeEnd (s : State) (n status : Nat) (data : List Nat) : State :=
  match s.links.nvme.find? (fun c => c.n == n && c.sent.isSome && !c.done) with
  | none => s
  | some c =>
    let t := completeNvme s n status data
    match s.miller.snap with
    | some p => if c.core = 512 ∧ p.taken = c.seq then snapEnded t (status % 2048 == 0) (s.stripeBytes p c) else t
    | none => t

/-- STORAGE_TIMEOUT: command `n` has outlived its handle's limit. -/
def nvmeLate (s : State) (n : Nat) : State :=
  match s.links.nvme.find? (fun c => c.n == n && !c.done) with
  | none => s
  | some c =>
    if c.core = 512 ∧ s.miller.snap.any (fun p => p.taken == c.seq) ∧ c.sent.any (fun t => decide (t + s.handleLimit c.handle ≤ s.clock)) then
      snapEnded (s.modLinks (fun l => { l with nvme := l.nvme.map (fun d => if d.n = n then { d with seq := 2 ^ 64 } else d) })) false 0
    else timeoutNvme s n

/-! ## QUERY (R349, R350, R375) -/

/-- Values of given widths, packed little-endian. -/
def packWidths : List (Nat × Nat) → Nat
  | [] => 0
  | (n, v) :: r => v % 2 ^ (8 * n) + 2 ^ (8 * n) * packWidths r

/-- Block 0 (Table 21.4). -/
def State.block0 (s : State) : Nat :=
  packWidths [(4, dieidWord 0), (4, s.boot.stage + 256 * s.boot.err), (8, s.roleWord), (8, s.boot.ready), (8, s.tele.pcapms),
    (8, packWidths ((List.range 4).map (fun d => (2, look 0 s.tele.therm d)))), (8, s.tele.pinfb), (4, s.tele.ce), (4, s.tele.ue), (8, s.tele.ueaddr)]

/-- Block 1: erratum statuses. -/
def block1 : Nat := (List.range 64).foldl (fun v e => v + 4 ^ e * (Config.erratum e % 4)) 0

/-- The LAUNCH that waits in its ring under an identity, whatever the state of the queue. -/
def State.ringLaunch (s : State) (id : Nat) : Option Nat :=
  let u := s.queue (id / 2 ^ 32)
  if 64 ≤ id / 2 ^ 32 then none
  else ((s.ringPackets u (s.held u) (s.readIndex u) (min u.slots (s.held u))).find? (fun p => p.1 == id % 2 ^ 32 && pktType p.2 == 1)).map (·.2)

/-- The fault log of a LAUNCH that waits in its ring: a child's is its parent's (R346). -/
def State.ringLog (s : State) (id p : Nat) : Nat :=
  let u := s.queue (id / 2 ^ 32)
  if bitAt u.qcfg 4 then (s.job (look 0 u.pushers (id % 2 ^ 32 % u.slots))).elim 0 (·.log) else pktField p 0x58 8

/-- Written count of the fault log at a physical address. -/
def State.logWritten (s : State) (a : Nat) : Nat := s.readN (physSpace a) (physAddr a) 8

/-- Block 2: a job (Table 20.14); what the spec gives no value is open. -/
def State.block2 (s : State) (id : Nat) : Nat :=
  let row := fun st prio live compat written => packWidths [(8, id), (1, st), (1, prio), (2, live), (4, 0), (8, compat), (8, written)]
  match s.jobList.find? (fun j => j.2.id == id && j.2.known) with
  | some (j, b) =>
    let st := if b.st = 0 ∧ !s.shapeFits (s.loaded j).dies then 4 else b.st
    let live := (List.range (s.loaded j).places.length).filter (fun i => (s.ctxAt j i).any (fun x => x.seq.run == .resident))
    row st b.prio (if b.st = 1 ∨ b.st = 2 then live.length else 0) (if b.st = 0 then s.free 9700 else b.compat) (s.logWritten b.log)
  | none =>
    match s.ringLaunch id with
    | some p => row 0 (pktPrio p) 0 (s.free 9700) (s.logWritten (s.ringLog id p))
    | none => row 5 (s.free 9701) 0 (s.free 9700) (s.free 9702)

/-- Block 3: vertical interfaces. -/
def State.block3 (s : State) : Nat :=
  packWidths ((s.links.vlinks.take 3).flatMap (fun v => [(4, v.nRetrain), (4, v.nDeferred), (2, v.nForced), (2, v.nFail), (4, v.pause)]))

/-- Block 4: leat ports. -/
def State.block4 (s : State) : Nat :=
  packWidths ((List.range 16).flatMap (fun p => (let q := s.port p; [(1, q.lanes), (1, 0), (2, q.retries), (6, q.sent), (6, q.recv)])))

/-- The flits sent since the last look are counted: how many an access takes is open. -/
def countSent (s : State) : State :=
  (List.range 16).foldl (fun t p => if (t.port p).lanes = 0 then t else t.modPort p (fun q => { q with sent := (q.sent + s.free (9710 + p)) % 2 ^ 48 })) s

/-- The blocks of a mask from `i` on: value and bytes. -/
def State.queryBlocks (s : State) (mask id : Nat) : List (Nat × Nat) :=
  (if bitAt mask 0 then [(s.block0, 64)] else []) ++ (if bitAt mask 1 then [(block1, 64)] else []) ++
    (if bitAt mask 2 then [(s.block2 id, 64)] else []) ++ (if bitAt mask 3 then [(s.block3, 64)] else []) ++
    (if bitAt mask 4 then [(s.block4, 256)] else [])

/-- Writes blocks one after another. -/
def putBlocks (s : State) (w : Space) (a : Nat) : List (Nat × Nat) → State
  | [] => s
  | (v, n) :: r => putBlocks (s.writeN w a n v) w (a + n) r

/-- The work of a QUERY: its blocks, and the latch of block 0 freed. -/
def runQuery (s : State) (p : Nat) : State × Nat :=
  let f := pktField p
  let mask := f 0x40 1
  let s1 := if bitAt mask 4 then countSent s else s
  let l := s1.queryBlocks mask (f 0x50 8)
  let n := (l.map (·.2)).sum
  match s1.millerHit none (f 0x48 8) .store, s1.millerHit none (f 0x48 8 + (n - 1)) .store with
  | .ok w b _, .ok _ _ _ =>
    let s2 := putBlocks s1 w b l
    (if bitAt mask 0 then { s2 with tele := { s2.tele with ueaddr := s2.tele.ueaddr % 2 ^ 63 } } else s2, 0)
  | _, _ => (s, 3)

/-- QUERY. -/
def queryPacket (s : State) (q : Nat) : State :=
  if s.hasTurn q 9 then
    let p := s.headPacket q
    let ridx := s.readIndex (s.queue q)
    let t := s.takeHead q
    match s.addressStatus none p with
    | some e => t.enterTaken q ridx p none none (some (e, 0))
    | none => (let r := runQuery t p; (r.1.enterTaken q ridx p none none (some (r.2, 0))).draw)
  else s

/-! ## The rows -/

/-- SNAP: writes a full or incremental recovery point. -/
def execSnap (q : Nat) (s : State) : Host.Outcome State Fault Refusal := .next (snapPacket s q)
/-- QUERY: writes the blocks asked for. -/
def execQuery (q : Nat) (s : State) : Host.Outcome State Fault Refusal := .next (queryPacket s q)
/-- NVME_COMPLETION: a storage command completes. -/
def execNvmeCompletion (n status : Nat) (data : List Nat) (s : State) : Host.Outcome State Fault Refusal := .next (nvmeEnd s n status data).draw
/-- STORAGE_TIMEOUT: a command with no completion within SLIM ends its copy with cause 0x58. -/
def execStorageTimeout (n : Nat) (s : State) : Host.Outcome State Fault Refusal := .next (nvmeLate s n)

end Sys2Proof.Machine
end

