-- ==== Sys2Proof/Machine/Stack.lean ====
section
/-! DEFINITION. The die stack and the device as a whole: role changes (R329 to R332), reset and boot (R361, R362, R364), the
vertical links (R333 to R336), counters and the scrubber (R367, R374, R375). -/

namespace Sys2Proof.Machine

/-! ## Partitions (Table 1.1) -/

/-- The profile of a set of compute dies; none for a set that is not a partition. -/
def profileOf : Nat → Option Nat
  | 0b1000 => some 0
  | 0b1100 => some 1
  | 0b1110 => some 2
  | _ => none

/-- Whether the configuration block declares the cooling of the extended profile (R14). -/
def State.coolOk (s : State) : Bool := s.cfg 7 == 1 && decide (s.cfg 8 ≤ 25)

/-- The dies whose bit differs between two sets. -/
def diesBetween (a b : Nat) : List Nat := (List.range 4).filter (fun d => bitAt a d != bitAt b d)

/-- The set of a list of dies. -/
def dieSet (l : List Nat) : Nat := (l.map (fun d => 2 ^ d)).sum

/-! ## Changing roles (R330 to R332) -/

/-- Changes the boot state. -/
def State.modBoot (s : State) (f : Boot → Boot) : State := { s with boot := f s.boot }

/-- The code of Table 19.8 that a request ends with at once; none where a change starts. -/
def State.roleCode (s : State) (cmask : Nat) : Option Nat :=
  if cmask = s.boot.cmask then some 1
  else
    match profileOf cmask with
    | none => some 2
    | some p => if p = 2 ∧ !s.coolOk then some 3 else none

/-- A ROLE packet that has been taken as `n`. -/
def startRole (s : State) (n p : Nat) : State :=
  let f := pktField p
  let cmask := f 0x40 1
  let word := f 0x48 8
  if dramEnd < word + 8 then s.setStatus n 3 0
  else
    match s.roleCode cmask with
    | some c => (s.writeN .dram word 8 c).setStatus n (if c = 1 then 0 else 6) 0
    | none =>
      let s1 := s.modBoot (fun b => { b with chg := some ⟨cmask, f 0x41 1, f 0x44 4, word, s.clock, if f 0x41 1 = 1 then 0 else 1, n⟩ })
      let gone := coreBits (dieSet (diesBetween cmask s.boot.cmask))
      setReady s1 (s.boot.ready - (s.boot.ready &&& gone))

/-- ROLE. -/
def rolePacket (s : State) (q : Nat) : State :=
  if s.hasTurn q 7 then
    let p := s.headPacket q
    let ridx := s.readIndex (s.queue q)
    let t := s.takeHead q
    match s.addressStatus none p with
    | some e => t.enterTaken q ridx p none none (some (e, 0))
    | none => (let u := t.enterTaken q ridx p none none none; startRole u u.miller.count p)
  else s

/-- Policy 1: grace has passed, and every context still on an affected die is asked to leave. -/
def roleGrace (s : State) : State :=
  match s.boot.chg with
  | some g =>
    if g.phase = 0 ∧ g.since + g.grace ≤ s.clock then
      let s1 := s.modBoot (fun b => { b with chg := some { g with phase := 1 } })
      ((s1.ctxs.filter (fun p => s1.dieLeaving (dieOf (coreOf p.1)))).map (·.1)).foldl requestPreempt s1
    else s
  | none => s

/-- Whether the affected dies hold no bound context and no engine instruction. -/
def State.drained (s : State) : Bool :=
  s.ctxs.all (fun p => !p.2.bound || !s.dieLeaving (dieOf (coreOf p.1))) &&
    s.engines.all (fun e => !s.dieLeaving (dieOf e.1) || (e.2.mxq.isEmpty && e.2.cpq.isEmpty))

/-- The ways that saved contexts kept on core `k` are saved with them, what copies have still to bring there having come, and return to the
cache state. -/
def saveKept (s0 : State) (k : Nat) : State :=
  let s := ((List.range 16).filter (fun w => s0.way k w != .cache)).foldl (fun t w => settleWay t k w) s0
  let keep := fun (j : Nat) (v : Saved) =>
    if v.core = k then
      let own := (List.range 16).filter (fun w =>
        bitAt v.ctx.win.ways w && (match (s.loaded j).places[v.place]? with | some p => s.way k w == .owned j p.bound | none => false))
      { v with ways := v.ways ++ own.map (fun w => (w, s.wayBytes k w)), fresh := v.fresh ++ s.freshOf k own }
    else v
  let s1 := saveMatrix s k (s.miller.count + 1)
  let s2 := s1.modMiller (fun m => { m with loads := m.loads.map (fun l => (l.1, { l.2 with saved := l.2.saved.map (keep l.1) })) })
  forWays (fun t w => match t.way k w with | .cache => t | _ => dropWay t k w) 65535 16 0 s2

/-- The drain has ended, and the flush runs: kept ways are saved, the caches of the affected dies are written back, their pinned lines
unlocked, load-blocks gone. -/
def roleDrained (s : State) : State :=
  match s.boot.chg with
  | some g =>
    if g.phase = 1 ∧ s.drained then
      let left := fun k => s.dieLeaving (dieOf k)
      let s1 := ((s.cores.map (·.1)).filter left).foldl saveKept s
      let s2 : State := { s1 with cores := s1.cores.map (fun c => if left c.1 then (c.1, { c.2 with blocks := [] }) else c) }
      (s2.modMem (fun m => { m with
        locked := m.locked.filter (fun l => !(decide (l.core < 512) && left l.core))
        l1 := m.l1.filter (fun e => !left e.core) })).modBoot
        (fun b => { b with chg := some { g with phase := 2 } })
    else s
  | none => s

/-- The flush has ended: the new roles are in force, the affected dies' cores start empty or are gated. -/
def roleFlushed (s : State) : State :=
  match s.boot.chg with
  | some g =>
    if g.phase = 2 then
      let aff := diesBetween g.cmask s.boot.cmask
      let stay := fun k => !aff.contains (dieOf k)
      let s1 := { s with
        cores := s.cores.filter (fun c => stay c.1)
        engines := s.engines.filter (fun c => stay c.1)
        fetches := s.fetches.filter (fun c => stay c.1)
        dies := s.dies.filter (fun d => !aff.contains d.1) }
      let s2 := s1.modBoot (fun b => { b with cmask := g.cmask, prof := (profileOf g.cmask).getD 0, chg := none })
      let s3 := setReady s2 (s2.boot.ready ||| coreBits (dieSet (aff.filter (fun d => bitAt g.cmask d))))
      (s3.writeN .dram g.status 8 0).setStatus g.taken 0 0
    else s
  | none => s

/-! ## Reset and boot (R361, R362) -/

/-- Device reset: every register at its reset value, nothing bound; the boot flash and the contents of memory stay
(notes/assumptions/5.md, 22.md). -/
def deviceReset (s : State) : State :=
  { State.reset with
    mem := { State.reset.mem with dram := s.mem.dram, host := s.mem.host, peer := s.mem.peer, bad := s.mem.bad }
    boot := { State.reset.boot with fwImage := s.boot.fwImage, fwSig := s.boot.fwSig, operKey := s.boot.operKey, config := s.boot.config }
    inputs := s.inputs
    tick := s.tick
    reply := s.reply }

/-- Whether a configuration block meets Table 20.12 and is signed under the operator key (R361, R362). -/
def configOk (key c : List Nat) : Bool :=
  let at_ := fun n len => leNat ((c.drop n).take len)
  c.length == 916 && at_ 0 4 == 0x4746434B && at_ 4 2 == 1 && decide (at_ 7 1 < 2) && decide (at_ 9 1 < 2) &&
    decide (1000 ≤ at_ 12 2 ∧ at_ 12 2 ≤ 2000) && decide (at_ 14 1 ≤ 4) && at_ 15 1 == 0 && ((c.drop 0x224).take 220).all (· == 0) &&
    signedBy [key] (c.drop 0x300) (c.take 0x300)

/-- The Neldan root key (R361). -/
def rootKey : List Nat := (List.range 133).map (fun i => Config.rootKey i % 256)

/-- Boot stage 2 reads the firmware image and checks its signature, r and s of 66 bytes each, under the root key (R361). -/
def readFirmware (s : State) : State :=
  s.modBoot (fun b => { b with
    fwDigest := beNat (sha512 b.fwImage)
    fwValid := ecdsaVerify rootKey (sha512 b.fwImage) (beNat (b.fwSig.take 66)) (beNat ((b.fwSig.drop 66).take 66)) })

/-- A refused set leaves the device in the single profile, and is reported (R14; notes/assumptions/63.md). -/
def refuseRoles (s : State) : State := s.modBoot (fun b => { b with cmask := 8, prof := 0, refused := some (b.active.getD 6 0) })

/-- Roles are assigned: the configured set, or the single profile on refusal (R14). -/
def assignRoles (s : State) : State :=
  match profileOf (s.cfg 6) with
  | some p => if p = 2 ∧ !s.coolOk then refuseRoles s else s.modBoot (fun b => { b with cmask := s.cfg 6, prof := p })
  | none => refuseRoles s

/-- Cycles between the end of a retraining, or of boot training, and the next: 250 ms (R333). -/
def retrainPeriod : Nat := 150000000

/-- What becomes usable at stage 6: hash engines, Flumes and cores of the compute dies, storage, towers, home agents, L2 slices. -/
def stage6Bits (cmask : Nat) : Nat := 15 * 2 ^ 55 + coreBits cmask + 2 ^ 34 + 15 * 2 ^ 29 + 15 * 2 ^ 25 + 15 * 2 ^ 18

/-- BOOT_STAGE: the boot engine completes its next stage, or stops with an error code. -/
def bootStage (s : State) : State :=
  let b := s.boot
  let go := fun (t : State) => t.modBoot (fun b => { b with stage := b.stage + 1 })
  if b.err ≠ 0 then s
  else
    match b.stage with
    | 0 => setReady (go s) (b.ready ||| 2 ^ 33)
    | 1 =>
      let s1 := readFirmware (go s)
      if s1.boot.fwValid then s1 else s1.modBoot (fun b => { b with err := 1 })
    | 2 =>
      if configOk b.operKey b.config then (go s).modBoot (fun b => { b with active := b.config })
      else (go s).modBoot (fun b => { b with err := 2 })
    | 3 =>
      let s1 := (go s).modLinks (fun l => { l with vlinks := l.vlinks.map (fun v => { v with due := s.clock + retrainPeriod }) })
      setReady s1 (b.ready ||| 7 * 2 ^ 22)
    | 4 => assignRoles (go s)
    | 5 =>
      let s1 := go s
      let s2 := setReady s1 (b.ready ||| stage6Bits b.cmask)
      ((List.range 16).filter (fun r => (s2.region r).req)).foldl installRegion s2
    | _ => s

/-! ## Vertical links (R333 to R336) -/

/-- Interface `i`: 0 is d0–d1. -/
def State.vlink (s : State) (i : Nat) : VLink := s.links.vlinks.getD i VLink.reset
/-- Changes interface `i`. -/
def State.modVlink (s : State) (i : Nat) (f : VLink → VLink) : State := s.modLinks (fun l => { l with vlinks := l.vlinks.set i (f (s.vlink i)) })

/-- Whether any context waits at a weir barrier or in `drain`. -/
def State.holdsRetrain (s : State) : Bool := s.ctxs.any (fun p => p.2.resident && (p.2.weir.isSome || p.2.seq.wait == some .drain))

/-- Whether interface `i` waits for its retraining at cycle `t` after it was due. -/
def State.linkDue (s : State) (i t : Nat) : Bool := !(s.vlink i).busy && decide ((s.vlink i).due + t ≤ s.clock)

/-- Whether interface `i` may retrain, as far as the others go: none retrains, and no lower one is due `t` cycles late. -/
def State.linkTurn (s : State) (i t : Nat) : Bool :=
  s.links.vlinks.all (fun v => !v.busy) && (List.range i).all (fun j => !s.linkDue j t)

/-- A retraining starts; `due` holds its start while it runs. -/
def startRetrain (s : State) (i : Nat) (forced : Bool) : State :=
  s.modVlink i (fun v => { v with
    due := s.clock, busy := true, deferred := false
    nDeferred := (v.nDeferred + v.deferred.toNat) % 2 ^ 32
    nForced := (v.nForced + forced.toNat) % 2 ^ 16 })

/-- RETRAIN_DUE: the interval has expired, and retraining starts or is deferred. -/
def retrainDue (s : State) (i : Nat) : State :=
  if i < 3 ∧ 4 ≤ s.boot.stage ∧ s.linkDue i 0 then
    if s.holdsRetrain then s.modVlink i (fun v => { v with deferred := true })
    else if s.linkTurn i 0 then startRetrain s i false
    else s
  else s

/-- RETRAIN_FORCED: a deferral has reached 2 ms. -/
def retrainForced (s : State) (i : Nat) : State :=
  if i < 3 ∧ 4 ≤ s.boot.stage ∧ (s.vlink i).deferred ∧ s.linkDue i 1200000 ∧ s.linkTurn i 1200000 then startRetrain s i true else s

/-- RETRAIN_END: a pause ends; every fourth failure in a row is a link error. -/
def retrainEnd (s : State) (i pause : Nat) (fail : Bool) : State :=
  if i < 3 ∧ (s.vlink i).busy then
    let run := if fail then (s.vlink i).failRun + 1 else 0
    let s1 := s.modVlink i (fun v => { v with
      due := s.clock + retrainPeriod, busy := false
      nRetrain := (v.nRetrain + 1) % 2 ^ 32
      nFail := (v.nFail + fail.toNat) % 2 ^ 16
      failRun := if run = 4 then 0 else run
      pause := max v.pause (min pause 36000) })
    if run = 4 then s1.linkEvent (srcVertical i) (some i) else s1
  else s

/-! ## Counters and the scrubber (R367, R374, R375) -/

/-- Changes the telemetry. -/
def State.modTele (s : State) (f : Telemetry → Telemetry) : State := { s with tele := f s.tele }

/-- An uncorrectable upset in a region's heap: a present line that lies there, if one does, by a free value, is in error (R258, R374). -/
def Region.upset (g : Region) (a v : Nat) : Region :=
  if g.inst && decide (g.hbase ≤ a ∧ a < g.hbase + g.hsize) then
    (let i := v % (g.lines.length + 1); { g with lines := g.lines.zipIdx.map (fun l => if l.2 = i then { l.1 with bad := true } else l.1) })
  else g

/-- An uncorrectable upset of the piece at `b` of a store: its bits are open. -/
def Mem.upset (m : Mem) (w : Space) (b v : Nat) : Mem :=
  let m1 := m.setStore w (memPutNat (m.store w) b 16 v)
  if w = .dram then { m1 with bad := b :: m1.bad } else { m1 with badSp := b :: m1.badSp }

/-- A tile whose 16-byte piece `i` is `v`. -/
def tilePiece (t : Tile) (i v : Nat) : Tile := tileOf (fun e => if e / 8 = i then v / 2 ^ (16 * (e % 8)) % 65536 else elemAt t e)

/-- The arrays that the scrubber visits (R11, R374). -/
inductive Array16 where
  /-- device DRAM, and what the L2 slices hold of it -/
  | memory
  | scratchpad
  /-- vector register files: core · 2^24 + tile · 2048 + offset -/
  | tiles
  /-- dictionary stores: core · 2^20 + entry · 48 + offset -/
  | dictionary
  deriving DecidableEq, Repr

/-- The array that a number names, and the end of its numbers. -/
def arrayOf (a : Nat) : Option (Array16 × Nat) :=
  match a / 2 ^ 52 with
  | 0 => some (.memory, dramEnd)
  | 1 => some (.scratchpad, 512 * 2 ^ 24)
  | 2 => some (.tiles, 512 * 2 ^ 24)
  | 3 => some (.dictionary, 512 * 2 ^ 20)
  | _ => none

/-- An uncorrectable upset of the piece at `b` of an array: its bits are open. -/
def State.upset (s : State) (w : Array16) (b v : Nat) : State :=
  match w with
  | .memory =>
    let s1 := if (s.badIn .dram b 16).isEmpty then s.modMem (fun m => m.upset .dram b v) else s
    s1.modMiller (fun m => { m with regions := m.regions.map (fun g => (g.1, g.2.upset b (s.free 9802))) })
  | .scratchpad => if (s.badIn .sp b 16).isEmpty then s.modMem (fun m => m.upset .sp b v) else s
  | .tiles =>
    let k := b / 2 ^ 24
    let n := b % 2 ^ 24 / 2048
    if n < 768 then s.setTile k n (tilePiece (look 0 (s.core k).tiles n) (b % 2048 / 16) v) else s
  | .dictionary =>
    let k := b / 2 ^ 20
    s.modCore k (fun c => { c with dict := c.dict.map (fun e =>
      if e.1 = b % 2 ^ 20 / 48 then
        (let sh := 2 ^ (8 * (b % 2 ^ 20 % 48)); (e.1, { e.2 with bundle := e.2.bundle - e.2.bundle / sh % 2 ^ 128 * sh + v % 2 ^ 128 * sh }))
      else e) })

/-- The scrubber visits the piece at `a`: clean (0), corrected (1), or uncorrectable (2). An address of device DRAM, and of the L2 line that
holds it, is its physical one; the numbers of pieces of the other arrays are the model's own, array · 2^52 + place
(notes/assumptions/15.md). -/
def scrubVisit (s : State) (a kind : Nat) : State :=
  match kind, arrayOf a with
  | 1, _ => s.modTele (fun t => { t with ce := (t.ce + 1) % 2 ^ 32 })
  | 2, some w =>
    let b := a % 2 ^ 52 / 16 * 16
    if b + 16 ≤ w.2 then ((s.upset w.1 b (s.free 9800)).countUe (if w.1 = .memory then b else s.free 9801 % 2 ^ 52)).draw else s
  | _, _ => s

/-- R329, R367: for 1 ms, 600,000 cycles, issue on a die is limited; in which cycles a core then does not issue is open
(notes/assumptions/64.md). -/
def limitDie (s : State) (d : Nat) : State := s.modTele (fun t => { t with limit := put t.limit d (s.clock + 600000) })

/-! ## The rows -/

/-- ROLE: asks for a change of die roles. -/
def execRole (q : Nat) (s : State) : Host.Outcome State Fault Refusal := .next (rolePacket s q)
/-- ROLE_GRACE_EXPIRE: the grace period ends and the contexts still there are asked to leave. -/
def execRoleGraceExpire (s : State) : Host.Outcome State Fault Refusal := .next (roleGrace s)
/-- ROLE_DRAIN_END: the affected dies hold no context and no engine work, and the flush runs. -/
def execRoleDrainEnd (s : State) : Host.Outcome State Fault Refusal := .next (roleDrained s)
/-- ROLE_FLUSH_END: the flush ends and the dies are re-enumerated with the new roles. -/
def execRoleFlushEnd (s : State) : Host.Outcome State Fault Refusal := .next (roleFlushed s)
/-- DEVICE_RESET: reset starts the d0 boot engine. -/
def execDeviceReset (s : State) : Host.Outcome State Fault Refusal := .next (deviceReset s)
/-- BOOT_STAGE: the boot engine completes a stage, or stops with an error code. -/
def execBootStage (s : State) : Host.Outcome State Fault Refusal := .next (bootStage s)
/-- RETRAIN_DUE: an interface's interval expires. -/
def execRetrainDue (i : Nat) (s : State) : Host.Outcome State Fault Refusal := .next (retrainDue s i)
/-- RETRAIN_FORCED: a deferral reaches 2 ms and the retraining runs. -/
def execRetrainForced (i : Nat) (s : State) : Host.Outcome State Fault Refusal := .next (retrainForced s i)
/-- RETRAIN_END: a retraining pause ends. -/
def execRetrainEnd (i pause : Nat) (fail : Bool) (s : State) : Host.Outcome State Fault Refusal := .next (retrainEnd s i pause fail)
/-- POWER_LIMIT_INTERVAL: a 1 ms interval in which the power limit acts on every die is counted. -/
def execPowerLimitInterval (s : State) : Host.Outcome State Fault Refusal :=
  .next ([0, 1, 2, 3].foldl limitDie (s.modTele (fun t => { t with pcapms := (t.pcapms + 1) % 2 ^ 64 })))
/-- THERMAL_LIMIT_INTERVAL: a 1 ms interval in which the junction limit acts on a die is counted. -/
def execThermalLimitInterval (d : Nat) (s : State) : Host.Outcome State Fault Refusal :=
  .next (limitDie (s.modTele (fun t => { t with therm := setv 0 t.therm d ((look 0 t.therm d + 1) % 2 ^ 16) })) d)
/-- SCRUB_VISIT: the scrubber visits a line. -/
def execScrubVisit (line kind : Nat) (s : State) : Host.Outcome State Fault Refusal := .next (scrubVisit s line kind)

end Sys2Proof.Machine
end

