-- ==== Sys2Proof/Machine/Dispatch.lean ====
section
/-! DEFINITION. One arm per constructor of Instr: the meaning of each. -/

namespace Sys2Proof.Machine

def exec (i : Instr) (s : State) : Host.Outcome State Fault Refusal :=
  match i with
  | .bundleIssue c => Sys2Proof.Machine.execBundleIssue c s
  | .copyMove dst src => Sys2Proof.Machine.execCopyMove dst src s
  | .immediateMove dst imm => Sys2Proof.Machine.execImmediateMove dst imm s
  | .saAdd o => Sys2Proof.Machine.execSaAdd o s
  | .saSub o => Sys2Proof.Machine.execSaSub o s
  | .saMul o => Sys2Proof.Machine.execSaMul o s
  | .saMulh o => Sys2Proof.Machine.execSaMulh o s
  | .saMulhc o => Sys2Proof.Machine.execSaMulhc o s
  | .saDiv o => Sys2Proof.Machine.execSaDiv o s
  | .saDivc o => Sys2Proof.Machine.execSaDivc o s
  | .saRem o => Sys2Proof.Machine.execSaRem o s
  | .saRemc o => Sys2Proof.Machine.execSaRemc o s
  | .saAnd o => Sys2Proof.Machine.execSaAnd o s
  | .saOr o => Sys2Proof.Machine.execSaOr o s
  | .saXor o => Sys2Proof.Machine.execSaXor o s
  | .saAndn o => Sys2Proof.Machine.execSaAndn o s
  | .saShl o => Sys2Proof.Machine.execSaShl o s
  | .saShr o => Sys2Proof.Machine.execSaShr o s
  | .saSra o => Sys2Proof.Machine.execSaSra o s
  | .saRotl o => Sys2Proof.Machine.execSaRotl o s
  | .saMin o => Sys2Proof.Machine.execSaMin o s
  | .saMax o => Sys2Proof.Machine.execSaMax o s
  | .saMinc o => Sys2Proof.Machine.execSaMinc o s
  | .saMaxc o => Sys2Proof.Machine.execSaMaxc o s
  | .saCmpeq o => Sys2Proof.Machine.execSaCmpeq o s
  | .saCmpne o => Sys2Proof.Machine.execSaCmpne o s
  | .saCmplt o => Sys2Proof.Machine.execSaCmplt o s
  | .saCmple o => Sys2Proof.Machine.execSaCmple o s
  | .saCmpltc o => Sys2Proof.Machine.execSaCmpltc o s
  | .saCmplec o => Sys2Proof.Machine.execSaCmplec o s
  | .saSel o => Sys2Proof.Machine.execSaSel o s
  | .saClz o => Sys2Proof.Machine.execSaClz o s
  | .saCtz o => Sys2Proof.Machine.execSaCtz o s
  | .saPopc o => Sys2Proof.Machine.execSaPopc o s
  | .saBext o => Sys2Proof.Machine.execSaBext o s
  | .saBins o => Sys2Proof.Machine.execSaBins o s
  | .saSext o => Sys2Proof.Machine.execSaSext o s
  | .saZext o => Sys2Proof.Machine.execSaZext o s
  | .saMov o => Sys2Proof.Machine.execSaMov o s
  | .saFadd o => Sys2Proof.Machine.execSaFadd o s
  | .saFmul o => Sys2Proof.Machine.execSaFmul o s
  | .saFdiv o => Sys2Proof.Machine.execSaFdiv o s
  | .saFcvt o => Sys2Proof.Machine.execSaFcvt o s
  | .saFcmp o => Sys2Proof.Machine.execSaFcmp o s
  | .agLea o => Sys2Proof.Machine.execAgLea o s
  | .agAff o => Sys2Proof.Machine.execAgAff o s
  | .agBound o => Sys2Proof.Machine.execAgBound o s
  | .agSpa o => Sys2Proof.Machine.execAgSpa o s
  | .agGva o => Sys2Proof.Machine.execAgGva o s
  | .agAdds o => Sys2Proof.Machine.execAgAdds o s
  | .ldB o => Sys2Proof.Machine.execLdB o s
  | .ldH o => Sys2Proof.Machine.execLdH o s
  | .ldW o => Sys2Proof.Machine.execLdW o s
  | .ldD o => Sys2Proof.Machine.execLdD o s
  | .ldQ o => Sys2Proof.Machine.execLdQ o s
  | .ldsB o => Sys2Proof.Machine.execLdsB o s
  | .ldsH o => Sys2Proof.Machine.execLdsH o s
  | .ldsW o => Sys2Proof.Machine.execLdsW o s
  | .stB o => Sys2Proof.Machine.execStB o s
  | .stH o => Sys2Proof.Machine.execStH o s
  | .stW o => Sys2Proof.Machine.execStW o s
  | .stD o => Sys2Proof.Machine.execStD o s
  | .stQ o => Sys2Proof.Machine.execStQ o s
  | .vld o => Sys2Proof.Machine.execVld o s
  | .vst o => Sys2Proof.Machine.execVst o s
  | .vldg o => Sys2Proof.Machine.execVldg o s
  | .vstg o => Sys2Proof.Machine.execVstg o s
  | .vldx o => Sys2Proof.Machine.execVldx o s
  | .vstx o => Sys2Proof.Machine.execVstx o s
  | .amoAddW o => Sys2Proof.Machine.execAmoAddW o s
  | .amoMinW o => Sys2Proof.Machine.execAmoMinW o s
  | .amoMaxW o => Sys2Proof.Machine.execAmoMaxW o s
  | .amoMincW o => Sys2Proof.Machine.execAmoMincW o s
  | .amoMaxcW o => Sys2Proof.Machine.execAmoMaxcW o s
  | .amoAndW o => Sys2Proof.Machine.execAmoAndW o s
  | .amoOrW o => Sys2Proof.Machine.execAmoOrW o s
  | .amoXorW o => Sys2Proof.Machine.execAmoXorW o s
  | .amoXchgW o => Sys2Proof.Machine.execAmoXchgW o s
  | .amoCasW o => Sys2Proof.Machine.execAmoCasW o s
  | .amoFaddW o => Sys2Proof.Machine.execAmoFaddW o s
  | .amoIncwW o => Sys2Proof.Machine.execAmoIncwW o s
  | .amoAddD o => Sys2Proof.Machine.execAmoAddD o s
  | .amoMinD o => Sys2Proof.Machine.execAmoMinD o s
  | .amoMaxD o => Sys2Proof.Machine.execAmoMaxD o s
  | .amoMincD o => Sys2Proof.Machine.execAmoMincD o s
  | .amoMaxcD o => Sys2Proof.Machine.execAmoMaxcD o s
  | .amoAndD o => Sys2Proof.Machine.execAmoAndD o s
  | .amoOrD o => Sys2Proof.Machine.execAmoOrD o s
  | .amoXorD o => Sys2Proof.Machine.execAmoXorD o s
  | .amoXchgD o => Sys2Proof.Machine.execAmoXchgD o s
  | .amoCasD o => Sys2Proof.Machine.execAmoCasD o s
  | .amoFaddD o => Sys2Proof.Machine.execAmoFaddD o s
  | .amoIncwD o => Sys2Proof.Machine.execAmoIncwD o s
  | .amoCasQ o => Sys2Proof.Machine.execAmoCasQ o s
  | .redAdd o => Sys2Proof.Machine.execRedAdd o s
  | .redMin o => Sys2Proof.Machine.execRedMin o s
  | .redMax o => Sys2Proof.Machine.execRedMax o s
  | .redAnd o => Sys2Proof.Machine.execRedAnd o s
  | .redOr o => Sys2Proof.Machine.execRedOr o s
  | .redXor o => Sys2Proof.Machine.execRedXor o s
  | .redFadd o => Sys2Proof.Machine.execRedFadd o s
  | .redFaddh o => Sys2Proof.Machine.execRedFaddh o s
  | .vaAdd o => Sys2Proof.Machine.execVaAdd o s
  | .vaSub o => Sys2Proof.Machine.execVaSub o s
  | .vaMul o => Sys2Proof.Machine.execVaMul o s
  | .vaMulh o => Sys2Proof.Machine.execVaMulh o s
  | .vaMulhr o => Sys2Proof.Machine.execVaMulhr o s
  | .vaMad o => Sys2Proof.Machine.execVaMad o s
  | .vaAbs o => Sys2Proof.Machine.execVaAbs o s
  | .vaNeg o => Sys2Proof.Machine.execVaNeg o s
  | .vaMin o => Sys2Proof.Machine.execVaMin o s
  | .vaMax o => Sys2Proof.Machine.execVaMax o s
  | .vaAvg o => Sys2Proof.Machine.execVaAvg o s
  | .vaAbsd o => Sys2Proof.Machine.execVaAbsd o s
  | .vaAnd o => Sys2Proof.Machine.execVaAnd o s
  | .vaOr o => Sys2Proof.Machine.execVaOr o s
  | .vaXor o => Sys2Proof.Machine.execVaXor o s
  | .vaNot o => Sys2Proof.Machine.execVaNot o s
  | .vaLut3 o => Sys2Proof.Machine.execVaLut3 o s
  | .vaShl o => Sys2Proof.Machine.execVaShl o s
  | .vaShr o => Sys2Proof.Machine.execVaShr o s
  | .vaSra o => Sys2Proof.Machine.execVaSra o s
  | .vaShlr o => Sys2Proof.Machine.execVaShlr o s
  | .vaFshl o => Sys2Proof.Machine.execVaFshl o s
  | .vaFshlImm o => Sys2Proof.Machine.execVaFshlImm o s
  | .vaFshr o => Sys2Proof.Machine.execVaFshr o s
  | .vaFshrImm o => Sys2Proof.Machine.execVaFshrImm o s
  | .vaCmpeq o => Sys2Proof.Machine.execVaCmpeq o s
  | .vaCmpne o => Sys2Proof.Machine.execVaCmpne o s
  | .vaCmplt o => Sys2Proof.Machine.execVaCmplt o s
  | .vaCmple o => Sys2Proof.Machine.execVaCmple o s
  | .vaSel o => Sys2Proof.Machine.execVaSel o s
  | .vaClamp o => Sys2Proof.Machine.execVaClamp o s
  | .vaPopc o => Sys2Proof.Machine.execVaPopc o s
  | .vaClz o => Sys2Proof.Machine.execVaClz o s
  | .vaMov o => Sys2Proof.Machine.execVaMov o s
  | .vaFadd o => Sys2Proof.Machine.execVaFadd o s
  | .vaFsub o => Sys2Proof.Machine.execVaFsub o s
  | .vaFmul o => Sys2Proof.Machine.execVaFmul o s
  | .vaFma o => Sys2Proof.Machine.execVaFma o s
  | .vaFmin o => Sys2Proof.Machine.execVaFmin o s
  | .vaFmax o => Sys2Proof.Machine.execVaFmax o s
  | .vaMulsh o => Sys2Proof.Machine.execVaMulsh o s
  | .vpRotr o => Sys2Proof.Machine.execVpRotr o s
  | .vpRotc o => Sys2Proof.Machine.execVpRotc o s
  | .vpBcrow o => Sys2Proof.Machine.execVpBcrow o s
  | .vpBccol o => Sys2Proof.Machine.execVpBccol o s
  | .vpRedrAdd o => Sys2Proof.Machine.execVpRedrAdd o s
  | .vpRedrMax o => Sys2Proof.Machine.execVpRedrMax o s
  | .vpRedrMin o => Sys2Proof.Machine.execVpRedrMin o s
  | .vpRedcAdd o => Sys2Proof.Machine.execVpRedcAdd o s
  | .vpRedcMax o => Sys2Proof.Machine.execVpRedcMax o s
  | .vpRedcMin o => Sys2Proof.Machine.execVpRedcMin o s
  | .vpTrn o => Sys2Proof.Machine.execVpTrn o s
  | .vpPerm o => Sys2Proof.Machine.execVpPerm o s
  | .vpPermImm o => Sys2Proof.Machine.execVpPermImm o s
  | .vpZip o => Sys2Proof.Machine.execVpZip o s
  | .vpUnzip o => Sys2Proof.Machine.execVpUnzip o s
  | .vpShiftr o => Sys2Proof.Machine.execVpShiftr o s
  | .vpShiftc o => Sys2Proof.Machine.execVpShiftc o s
  | .vpScanrAdd o => Sys2Proof.Machine.execVpScanrAdd o s
  | .vpScancAdd o => Sys2Proof.Machine.execVpScancAdd o s
  | .vfExp2 o => Sys2Proof.Machine.execVfExp2 o s
  | .vfLog2 o => Sys2Proof.Machine.execVfLog2 o s
  | .vfRcp o => Sys2Proof.Machine.execVfRcp o s
  | .vfRsqrt o => Sys2Proof.Machine.execVfRsqrt o s
  | .vfSqrt o => Sys2Proof.Machine.execVfSqrt o s
  | .vfSinpi o => Sys2Proof.Machine.execVfSinpi o s
  | .vfCospi o => Sys2Proof.Machine.execVfCospi o s
  | .vfTanh o => Sys2Proof.Machine.execVfTanh o s
  | .vfSigm o => Sys2Proof.Machine.execVfSigm o s
  | .vfFdiv o => Sys2Proof.Machine.execVfFdiv o s
  | .vcCvt o => Sys2Proof.Machine.execVcCvt o s
  | .vcCvts o => Sys2Proof.Machine.execVcCvts o s
  | .vcQblk o => Sys2Proof.Machine.execVcQblk o s
  | .vcDqblk o => Sys2Proof.Machine.execVcDqblk o s
  | .vcQts8 o => Sys2Proof.Machine.execVcQts8 o s
  | .vcDqts8 o => Sys2Proof.Machine.execVcDqts8 o s
  | .vcUnpk10 o => Sys2Proof.Machine.execVcUnpk10 o s
  | .vcUnpk12 o => Sys2Proof.Machine.execVcUnpk12 o s
  | .vcUnpk14 o => Sys2Proof.Machine.execVcUnpk14 o s
  | .vcPk10 o => Sys2Proof.Machine.execVcPk10 o s
  | .vcPk12 o => Sys2Proof.Machine.execVcPk12 o s
  | .vcPk14 o => Sys2Proof.Machine.execVcPk14 o s
  | .vcSwap16 o => Sys2Proof.Machine.execVcSwap16 o s
  | .mstep o => Sys2Proof.Machine.execMstep o s
  | .mstepG o => Sys2Proof.Machine.execMstepG o s
  | .mpre o => Sys2Proof.Machine.execMpre o s
  | .mstepWs o => Sys2Proof.Machine.execMstepWs o s
  | .mfin o => Sys2Proof.Machine.execMfin o s
  | .mzero o => Sys2Proof.Machine.execMzero o s
  | .mcorr o => Sys2Proof.Machine.execMcorr o s
  | .mcld o => Sys2Proof.Machine.execMcld o s
  | .mcinv o => Sys2Proof.Machine.execMcinv o s
  | .mscl o => Sys2Proof.Machine.execMscl o s
  | .cpy o => Sys2Proof.Machine.execCpy o s
  | .cpyf o => Sys2Proof.Machine.execCpyf o s
  | .cpyt o => Sys2Proof.Machine.execCpyt o s
  | .lblk o => Sys2Proof.Machine.execLblk o s
  | .eblk o => Sys2Proof.Machine.execEblk o s
  | .put o => Sys2Proof.Machine.execPut o s
  | .sread o => Sys2Proof.Machine.execSread o s
  | .swrite o => Sys2Proof.Machine.execSwrite o s
  | .cfill o => Sys2Proof.Machine.execCfill o s
  | .xcpy o => Sys2Proof.Machine.execXcpy o s
  | .nput o => Sys2Proof.Machine.execNput o s
  | .nget o => Sys2Proof.Machine.execNget o s
  | .nref o => Sys2Proof.Machine.execNref o s
  | .nrel o => Sys2Proof.Machine.execNrel o s
  | .nswap o => Sys2Proof.Machine.execNswap o s
  | .nout o => Sys2Proof.Machine.execNout o s
  | .nstat o => Sys2Proof.Machine.execNstat o s
  | .br off => Sys2Proof.Machine.execBr off s
  | .brk off k sense => Sys2Proof.Machine.execBrk off k sense s
  | .call off => Sys2Proof.Machine.execCall off s
  | .jmp src link => Sys2Proof.Machine.execJmp src link s
  | .loop cnt off imm => Sys2Proof.Machine.execLoop cnt off imm s
  | .lbrk n cond sense k => Sys2Proof.Machine.execLbrk n cond sense k s
  | .twait src soft => Sys2Proof.Machine.execTwait src soft s
  | .cwait a sreg scope => Sys2Proof.Machine.execCwait a sreg scope s
  | .fence kind scope => Sys2Proof.Machine.execFence kind scope s
  | .fmtw reg src => Sys2Proof.Machine.execFmtw reg src s
  | .sget dst sys => Sys2Proof.Machine.execSget dst sys s
  | .sgetFpstat dst => Sys2Proof.Machine.execSgetFpstat dst s
  | .sset src sys => Sys2Proof.Machine.execSset src sys s
  | .ssetSplit src => Sys2Proof.Machine.execSsetSplit src s
  | .ssetDict src => Sys2Proof.Machine.execSsetDict src s
  | .ssetVwin src => Sys2Proof.Machine.execSsetVwin src s
  | .ssetNreg src => Sys2Proof.Machine.execSsetNreg src s
  | .ssetLdepth src => Sys2Proof.Machine.execSsetLdepth src s
  | .fpstatClear src => Sys2Proof.Machine.execFpstatClear src s
  | .gmset g n => Sys2Proof.Machine.execGmset g n s
  | .bacq mask => Sys2Proof.Machine.execBacq mask s
  | .brel mask => Sys2Proof.Machine.execBrel mask s
  | .qpush a sreg nb => Sys2Proof.Machine.execQpush a sreg nb s
  | .trap code => Sys2Proof.Machine.execTrap code s
  | .cwb a sreg => Sys2Proof.Machine.execCwb a sreg s
  | .iinv a sreg => Sys2Proof.Machine.execIinv a sreg s
  | .brkp code => Sys2Proof.Machine.execBrkp code s
  | .tokc src => Sys2Proof.Machine.execTokc src s
  | .mxNop => Sys2Proof.Machine.execMxNop s
  | .cpNop => Sys2Proof.Machine.execCpNop s
  | .ctNop => Sys2Proof.Machine.execCtNop s
  | .ret => Sys2Proof.Machine.execRet s
  | .drain => Sys2Proof.Machine.execDrain s
  | .xfence => Sys2Proof.Machine.execXfence s
  | .halt => Sys2Proof.Machine.execHalt s
  | .tret => Sys2Proof.Machine.execTret s
  | .ppt => Sys2Proof.Machine.execPpt s
  | .fsync => Sys2Proof.Machine.execFsync s
  | .ewait => Sys2Proof.Machine.execEwait s
  | .yield => Sys2Proof.Machine.execYield s
  | .fuResultLand c n => Sys2Proof.Machine.execFuResultLand c n s
  | .landingDue c n => Sys2Proof.Machine.execLandingDue c n s
  | .landingDataArrival c n err => Sys2Proof.Machine.execLandingDataArrival c n err s
  | .slackExpire c => Sys2Proof.Machine.execSlackExpire c s
  | .starvationIssue c => Sys2Proof.Machine.execStarvationIssue c s
  | .yieldExpire c => Sys2Proof.Machine.execYieldExpire c s
  | .formatShadowEnd c => Sys2Proof.Machine.execFormatShadowEnd c s
  | .dictRefillComplete core n => Sys2Proof.Machine.execDictRefillComplete core n s
  | .pageWalkComplete core n => Sys2Proof.Machine.execPageWalkComplete core n s
  | .matrixEngineStart core n => Sys2Proof.Machine.execMatrixEngineStart core n s
  | .matrixComplete core n => Sys2Proof.Machine.execMatrixComplete core n s
  | .copyEngineStart core n => Sys2Proof.Machine.execCopyEngineStart core n s
  | .flumeBlock core n => Sys2Proof.Machine.execFlumeBlock core n s
  | .copyComplete core n => Sys2Proof.Machine.execCopyComplete core n s
  | .reclaimDecrement r n => Sys2Proof.Machine.execReclaimDecrement r n s
  | .ordinalRelease r n => Sys2Proof.Machine.execOrdinalRelease r n s
  | .nvmeCompletion n status data => Sys2Proof.Machine.execNvmeCompletion n status data s
  | .storageTimeout n => Sys2Proof.Machine.execStorageTimeout n s
  | .twaitComplete c => Sys2Proof.Machine.execTwaitComplete c s
  | .cwaitComplete c => Sys2Proof.Machine.execCwaitComplete c s
  | .drainComplete c => Sys2Proof.Machine.execDrainComplete c s
  | .xfenceComplete c => Sys2Proof.Machine.execXfenceComplete c s
  | .splitConvert c => Sys2Proof.Machine.execSplitConvert c s
  | .bacqGrant c => Sys2Proof.Machine.execBacqGrant c s
  | .qpushSlotFree c => Sys2Proof.Machine.execQpushSlotFree c s
  | .fsyncComplete c => Sys2Proof.Machine.execFsyncComplete c s
  | .ewaitComplete c => Sys2Proof.Machine.execEwaitComplete c s
  | .weirArrive c => Sys2Proof.Machine.execWeirArrive c s
  | .weirRelease c => Sys2Proof.Machine.execWeirRelease c s
  | .superstepRelease c => Sys2Proof.Machine.execSuperstepRelease c s
  | .trapEntry c => Sys2Proof.Machine.execTrapEntry c s
  | .preemptSave c => Sys2Proof.Machine.execPreemptSave c s
  | .preemptDeadline c => Sys2Proof.Machine.execPreemptDeadline c s
  | .jobResume j => Sys2Proof.Machine.execJobResume j s
  | .queueEnable q => Sys2Proof.Machine.execQueueEnable q s
  | .queueDisable q => Sys2Proof.Machine.execQueueDisable q s
  | .queueReset q => Sys2Proof.Machine.execQueueReset q s
  | .regionInstallRequest r => Sys2Proof.Machine.execRegionInstallRequest r s
  | .regionRemoveRequest r => Sys2Proof.Machine.execRegionRemoveRequest r s
  | .regionRemove r => Sys2Proof.Machine.execRegionRemove r s
  | .evrdWrite v => Sys2Proof.Machine.execEvrdWrite v s
  | .attestRequest nonce => Sys2Proof.Machine.execAttestRequest nonce s
  | .bar0Write off size val => Sys2Proof.Machine.execBar0Write off size val s
  | .packetValidate q => Sys2Proof.Machine.execPacketValidate q s
  | .launch q => Sys2Proof.Machine.execLaunch q s
  | .jobBind j => Sys2Proof.Machine.execJobBind j s
  | .wait q => Sys2Proof.Machine.execWait q s
  | .signal q => Sys2Proof.Machine.execSignal q s
  | .node q => Sys2Proof.Machine.execNode q s
  | .nodeRun id => Sys2Proof.Machine.execNodeRun id s
  | .copy q => Sys2Proof.Machine.execCopy q s
  | .tlbi q => Sys2Proof.Machine.execTlbi q s
  | .role q => Sys2Proof.Machine.execRole q s
  | .roleGraceExpire => Sys2Proof.Machine.execRoleGraceExpire s
  | .roleDrainEnd => Sys2Proof.Machine.execRoleDrainEnd s
  | .roleFlushEnd => Sys2Proof.Machine.execRoleFlushEnd s
  | .snap q => Sys2Proof.Machine.execSnap q s
  | .query q => Sys2Proof.Machine.execQuery q s
  | .packetComplete n => Sys2Proof.Machine.execPacketComplete n s
  | .jobComplete j => Sys2Proof.Machine.execJobComplete j s
  | .deviceReset => Sys2Proof.Machine.execDeviceReset s
  | .bootStage => Sys2Proof.Machine.execBootStage s
  | .retrainDue n => Sys2Proof.Machine.execRetrainDue n s
  | .retrainForced n => Sys2Proof.Machine.execRetrainForced n s
  | .retrainEnd n pause fail => Sys2Proof.Machine.execRetrainEnd n pause fail s
  | .hostPostedWrite addr data ro => Sys2Proof.Machine.execHostPostedWrite addr data ro s
  | .hostRead addr n => Sys2Proof.Machine.execHostRead addr n s
  | .hostAtomicop kind addr size a b => Sys2Proof.Machine.execHostAtomicop kind addr size a b s
  | .peerAccess kind addr data => Sys2Proof.Machine.execPeerAccess kind addr data s
  | .flitReceive p err => Sys2Proof.Machine.execFlitReceive p err s
  | .powerLimitInterval => Sys2Proof.Machine.execPowerLimitInterval s
  | .thermalLimitInterval d => Sys2Proof.Machine.execThermalLimitInterval d s
  | .scrubVisit line kind => Sys2Proof.Machine.execScrubVisit line kind s
  | .indexWordFetchComplete c => Sys2Proof.Machine.execIndexWordFetchComplete c s
  | .landingStoreAccepted c n => Sys2Proof.Machine.execLandingStoreAccepted c n s
  | .cxlCacheSnoop addr data => Sys2Proof.Machine.execCxlCacheSnoop addr data s
  | .leatPortDown p => Sys2Proof.Machine.execLeatPortDown p s
  | .leatPortTrained p lanes => Sys2Proof.Machine.execLeatPortTrained p lanes s
  | .aerUncorrectableError info => Sys2Proof.Machine.execAerUncorrectableError info s

end Sys2Proof.Machine
end

