-- ==== Sys2Proof/Machine/Select.lean ====
section
/-! DEFINITION. What the machine does next when the outside supplies nothing (notes/assumptions/1.md): what time forces, the
selector of every core (R86, R131), then the events that nothing holds back, then a cycle of the clock; and what goes on beside
every step. -/

namespace Sys2Proof.Machine

/-! ## What time forces -/

/-- The first context that satisfies `p`. -/
def State.someCtx (s : State) (p : Nat → Ctx → Bool) : Option Nat := (s.ctxs.find? (fun q => p q.1 q.2)).map (·.1)

/-- A context whose pre-emption deadline has passed (R306). -/
def State.lateSave (s : State) : Option Nat :=
  s.someCtx (fun _ x => x.resident && x.sched.preempt.any (fun r => decide (r.2 < s.clock)))

/-- A storage command of a copy, or of the SNAP, that has outlived its limit. -/
def State.lateNvme (s : State) : Option Nat :=
  (s.links.nvme.find? (fun c => !c.done && c.sent.any (fun t => decide (t + s.handleLimit c.handle ≤ s.clock)) &&
    ((s.eng c.core).cpq.any (fun r => r.iss.seq == c.seq && r.fault.isNone) ||
      (c.core == 512 && s.miller.snap.any (fun p => p.taken == c.seq))))).map (·.n)

/-- Whether interface `i` has something due: its retraining, or its deferral. -/
def State.linkActs (s : State) (i : Nat) : Bool :=
  decide (4 ≤ s.boot.stage) && s.linkDue i 0 && (if s.holdsRetrain then !(s.vlink i).deferred else s.linkTurn i 0)

/-- What time forces now; none where nothing is due. -/
def State.forced (s : State) : Option State :=
  match s.lateSave with
  | some c => some (preemptDeadline s c)
  | none =>
    match (List.range 3).find? (fun i => (s.vlink i).busy && decide ((s.vlink i).due + 18000 ≤ s.clock)) with
    | some i => some (retrainEnd s i (2 * (s.clock - (s.vlink i).due)) false)
    | none =>
      match (List.range 3).find? (fun i => decide (4 ≤ s.boot.stage) && (s.vlink i).deferred && s.linkDue i 1200000 && s.linkTurn i 1200000) with
      | some i => some (retrainForced s i)
      | none =>
        match (List.range 3).find? s.linkActs with
        | some i => some (retrainDue s i)
        | none =>
          match s.lateNvme with
          | some n => some (nvmeLate s n)
          | none =>
            match s.boot.chg with
            | some g => if g.phase = 0 ∧ g.since + g.grace ≤ s.clock then some (roleGrace s) else none
            | none => none

/-! ## The selector (R83, R86, R131) -/

/-- What a core's selector does. -/
inductive Pick where
  /-- a stalled context is ready again, or needs another walk or refill -/
  | ready (c : Nat)
  | slack (c : Nat)
  | yieldEnd (c : Nat)
  | starved (c : Nat)
  | issue (c : Nat)
  deriving DecidableEq, Repr

/-- The state in which a stalled context's bundle is tried again. -/
def State.retry (s : State) (c : Nat) : State := issueBundle (s.modCtx c (fun x => x.restart s.clock)) c

/-- A stalled context whose bundle would now issue or trap, or would start another walk or refill. -/
def State.clears (s : State) (c : Nat) : Bool :=
  let x := s.ctx c
  x.resident && x.sched.stall.isSome && x.seq.wait.isNone &&
    (let t := s.retry c; (t.ctx c).sched.stall.isNone || t.fetches != s.fetches)

/-- Whether context `c` holds the issue. -/
def State.holds (s : State) (c : Nat) : Bool := (s.ctx c).resident && (s.ctx c).sched.stall.isSome && !(s.ctx c).sched.yielded

/-- The contexts of core `k` in turn after context `last`. -/
def turnOrder (k last : Nat) : List Nat := (List.range 4).map (fun i => 4 * k + (last + 1 + i) % 4)

/-- R86 steps 3 and 4, with R131: the ready context that issues. -/
def State.byTurn (s : State) (k : Nat) : Option Nat :=
  let l := (ctxsOf k).filter s.ready
  let top := l.foldl (fun m c => max m (s.prio c)) 0
  let best := l.filter (fun c => s.prio c == top)
  let free := best.filter (fun c => (s.ctx c).sched.yieldAt.isNone)
  let pool := if free.isEmpty then best else free
  (turnOrder k (look (4 * k + 3) (s.core k).turn top)).find? (fun c => pool.contains c)

/-- Whether the limits of R329 and R367 keep die `d` from issuing in this cycle: a free choice in each cycle of a limited interval. -/
def State.limited (s : State) (d : Nat) : Bool := decide (s.clock < look 0 s.tele.limit d) && bitAt (s.free (2 ^ 44 + s.clock)) d

/-- What core `k` does in this cycle; none where it has issued, holds, or has nothing ready. -/
def State.corePick (s : State) (k : Nat) : Option Pick :=
  match (ctxsOf k).find? s.clears with
  | some c => some (.ready c)
  | none =>
    if s.clock < (s.core k).nextIssue ∨ s.limited (dieOf k) then none
    else
      match (ctxsOf k).find? (fun c => (s.ctx c).bound && !(s.ctx c).sched.yielded && (s.ctx c).sched.stall.any (fun t => decide (t.1 + t.2 ≤ s.clock))) with
      | some c => some (.slack c)
      | none =>
        match (ctxsOf k).find? (fun c => (s.ctx c).sched.yieldAt.any (fun t => decide (t + 64 ≤ s.clock))) with
        | some c => some (.yieldEnd c)
        | none =>
          match (ctxsOf k).find? s.starved with
          | some c => some (.starved c)
          | none => if (ctxsOf k).any s.holds then none else (s.byTurn k).map Pick.issue

/-- The cores that hold bound contexts, each once. -/
def State.busyCores (s : State) : List Nat := ((s.ctxs.filter (fun p => p.2.bound)).map (fun p => coreOf p.1)).eraseDups

/-- The first core with something to do. -/
def State.pick (s : State) : Option Pick := s.busyCores.findSome? s.corePick

/-- A pick performs. -/
def perform (s : State) : Pick → State
  | .ready c => if ((s.retry c).ctx c).sched.stall.isNone then s.modCtx c (fun x => x.restart s.clock) else issueBundle s c
  | .slack c => slackOut s c
  | .yieldEnd c => yieldOut s c
  | .starved c => issueBundle s c
  | .issue c => issueBundle s c

/-! ## The events that nothing holds back -/

/-- The first of a list of changes that changes the state. -/
def firstChange (s : State) : List (State → State) → Option State
  | [] => none
  | f :: r => (let t := f s; if t = s then firstChange s r else some t)

/-- Context `c` and its flights: data arrive, stores are accepted, waits end, saves perform. -/
def ctxEvents (s : State) (c : Nat) : List (State → State) :=
  let n := (s.ctx c).ports.flights.length
  (List.range n).map (fun i t => dataArrive t c i false) ++ (List.range n).map (fun i t => storeAccepted t c i) ++
    [fun t => twaitEnd t c, fun t => cwaitEnd t c, fun t => drainEnd t c, fun t => xfenceEnd t c, fun t => splitEnd t c,
     fun t => bacqEnd t c, fun t => pushEnd t c, fun t => fsyncEnd t c, fun t => ewaitEnd t c, fun t => weirArrive t c,
     fun t => weirRelease t c true, fun t => weirRelease t c false, fun t => trapEntry t c, fun t => fpstatEnd t c,
     fun t => wordsArrive t c, fun t => preemptSave t c]

/-- The engines and fetches of core `k`. -/
def coreEvents (s : State) (k : Nat) : List (State → State) :=
  let e := s.eng k
  let f := look [] s.fetches k
  (List.range f.length).map (fun i t => walkEnd t k i) ++ (List.range f.length).map (fun i t => refillEnd t k i) ++
    e.mxq.map (fun r t => startMx t k r.iss.seq) ++ e.mxq.map (fun r t => completeMx t k r.iss.seq) ++
    e.cpq.map (fun r t => startCp t k r.iss.seq) ++ e.cpq.map (fun r t => flumeStep t k r.iss.seq) ++
    e.cpq.map (fun r t => completeCp t k r.iss.seq)

/-- The packets of queue `q`. -/
def queueEvents (q : Nat) : List (State → State) :=
  [fun t => packetValidate t q, fun t => launch t q, fun t => startPlain t q 2, fun t => startPlain t q 3, fun t => acceptNode t q,
   fun t => copyPacket t q, fun t => tlbiPacket t q, fun t => rolePacket t q, fun t => snapPacket t q, fun t => queryPacket t q]

/-- The Miller's other work. -/
def millerEvents (s : State) : List (State → State) :=
  s.miller.nodes.map (fun n t => nodeRun t n.1) ++ s.miller.taken.map (fun p t => packetComplete t p.n) ++
    s.miller.jobs.map (fun j t => jobComplete t j.1) ++ s.miller.jobs.map (fun j t => jobResume t j.1) ++
    s.miller.jobs.map (fun j t => jobBind t j.1) ++ s.miller.regions.map (fun r t => regionRemove t r.1) ++
    s.miller.regions.filterMap (fun r => if r.2.pend = [] then none else some (fun t => t.putRegion r.1 ((t.region r.1).reclaim 0))) ++
    [roleDrained, roleFlushed, bootStage, snapWork]

/-- An event that may happen now. -/
def State.event (s : State) : Option State :=
  match firstChange s (s.engines.flatMap (fun e => coreEvents s e.1) ++ (s.fetches.filter (fun f => !s.engines.any (fun e => e.1 == f.1))).flatMap (fun f => coreEvents s f.1)) with
  | some t => some t
  | none =>
    match firstChange s (s.ctxs.flatMap (fun p => ctxEvents s p.1)) with
    | some t => some t
    | none =>
      match firstChange s (((List.range 64).filter (fun q => (s.queue q).st == 1)).flatMap queueEvents) with
      | some t => some t
      | none => firstChange s (millerEvents s)

/-! ## The next state -/

/-- One step of the device by itself. -/
def advance (s : State) : State :=
  match s.forced with
  | some t => t
  | none =>
    match s.pick with
    | some p => perform s p
    | none =>
      match s.event with
      | some t => t
      | none => { s with clock := s.clock + 1 }

/-! ## What goes on beside every step (notes/assumptions/65.md) -/

/-- An `xcpy` write becomes visible: one that no earlier write of its context to the same bytes precedes (R231, R280). -/
def State.looseMoves (s : State) : List State :=
  (s.mem.loose.zipIdx.filter (fun p =>
    !(s.mem.loose.take p.2).any (fun d => d.job == p.1.job && d.place == p.1.place && d.space == p.1.space && overlap d.addr d.len p.1.addr p.1.len))).map
    (fun p => s.showPicked (fun _ i => i == p.2))

/-- A pending `cwb` or `iinv` performs (R132). -/
def State.maintMoves (s : State) : List State :=
  s.cores.flatMap (fun c => c.2.maint.map (fun m => s.performOn performMaint (fun n => n == m) c.1))

/-- The walks that the copy engine and the fetch path of core `k` need and that no walker of its die has (R323). -/
def State.wantedWalks (s : State) (k : Nat) : List Fetch :=
  let copies := (s.eng k).cpq.flatMap (fun r =>
    r.walks s ++ r.spanWalks s ++ (if usesFlume r.op r.o r.pat && r.op != 7 && !r.ended then s.engWalks r ((pw r.pat 0 + r.pos) % 2 ^ 64) 32 else []))
  let words := ((ctxsOf k).filter (fun c => (s.ctx c).resident && s.fetch c == .words)).flatMap (fun c =>
    (s.wordsWanted c).filterMap (s.coreWalk k (s.ctx c).sched.job))
  let refills := (look [] s.fetches k).flatMap (fun f =>
    match f with
    | .refill _ m => ((s.core k).dict.filter (fun e => e.1 == m)).flatMap (fun e =>
        ([e.2.va, e.2.va + 46]).filterMap (s.coreWalk k e.2.job))
    | .walk _ _ _ => [])
  (copies ++ words ++ refills).eraseDups.filter (fun w => !(s.die (dieOf k)).walks.contains w)

/-- A walk of core `k` begins. -/
def State.walkMoves (s : State) (k : Nat) : List State := (s.wantedWalks k).map (fun w => s.askWalks k [w])

/-- A COPY of the Miller reads, writes or expands more (R347). -/
def State.millerMoves (s : State) : List State := s.miller.copies.flatMap s.copyWork

/-- What the engines of core `k` may do next beside starting and completing: a read, write or action of a copy or named-line instruction
(R219, R260), the end of a feed occupancy (R186). -/
def State.engineMoves (s : State) (k : Nat) : List State :=
  (s.eng k).cpq.flatMap (s.cpNext k) ++
    ((s.eng k).mxq.filter (fun r => r.iss.stage == .running && !drainOp r.op && !r.fed)).map (fun r => feedEnd s k r.iss.seq)

/-- The states that one more of the things that go on beside the bundles and the events leads to. -/
def State.moves (s : State) : List State :=
  s.engines.flatMap (fun e => s.engineMoves e.1) ++ s.looseMoves ++ s.maintMoves ++ s.millerMoves ++ s.cores.flatMap (fun c => s.walkMoves c.1) ++
    (if s.miller.snap.isSome then [snapWork s] else [])

/-- `n` of them one after another, each chosen by a free value. -/
def wander : Nat → State → State
  | 0, s => s
  | n + 1, s =>
    match s.moves with
    | [] => s
    | l => wander n (l.getD (s.free 5501 % l.length) s).draw

/-- As many of them as a free value says; nothing where nothing goes on. -/
def State.progress (s : State) : State := if s.moves.isEmpty then s else (wander (s.free 5500) s).draw

/-! ## Loading an instruction where the next step fetches -/

/-- The context that `withFetchWord` uses: context 0 of core 3.0.0. -/
def probeCtx : Nat := 1536

/-- The address of its code segment, its job and its address space. -/
def probeBase : Nat := 0x10000000

/-- A context resident on core 3.0.0, its code segment one literal, alone on the device, as a job's binding leaves it. -/
def probeContext (clock : Nat) : Ctx :=
  let x := Ctx.reset
  { x with
    seq := { x.seq with run := .resident, pc := 0, base := probeBase, limit := 25, wake := clock }
    sched := { x.sched with job := 1, place := 0, asid := 0, readySince := clock }
    win := { x.win with vcount := 768 } }

/-- The words of a literal at the head of the segment, as the index-word cache holds them. -/
def probeWords (l : List Nat) : Sparse IndexWord := l.zipIdx.map (fun p => (probeBase + 2 * p.2, ⟨p.1, 2 * p.2, ⟨0, probeBase / 65536, 2, false⟩⟩))

/-- The device with one instruction of `nbits` bits, its words above them zero, as the one bundle of a loaded and bound job: its
literal in DRAM, in the index-word cache and in the segment of the context whose turn it is (notes/assumptions/23.md). -/
def loadWord (s : State) (nbits w : Nat) : State :=
  let bits := w % 2 ^ nbits
  let words := words16 25 bits
  let s1 : State := { s with
    inputs := []
    ctxs := [(probeCtx, probeContext s.clock)]
    cores := [(384, { Core.reset with icache := probeWords words })]
    engines := []
    fetches := []
    dies := []
    cur := probeCtx
    links := { s.links with vlinks := [VLink.reset, VLink.reset, VLink.reset], nvme := [] }
    boot := { s.boot with stage := 0, chg := none }
    tele := { s.tele with limit := [] } }
  let s2 := s1.modMem (fun m => { m with dram := memPutNat m.dram 0 50 bits, bad := [], loose := [], locked := [], l1 := [] })
  (s2.modMiller (fun m => { m with snap := none, copies := [] })).modLoaded 1 (fun l => { l with base := probeBase, limit := 25, sections := [(probeBase, 50)] })

end Sys2Proof.Machine
end

