-- ==== Sys2Proof/Machine/Step.lean ====
section
/-! DEFINITION. The step: an event that the outside supplies, or what the device does by itself; and the load of one instruction
where the next step fetches. -/

namespace Sys2Proof.Machine

/-- One step. First as much as a free value says of what goes on beside the bundles; then an input is performed by its meaning; with
none, the device goes on by itself. -/
def step (s : State) : Host.Outcome State Fault Refusal :=
  match s.inputs with
  | i :: rest => exec i { s.progress with inputs := rest }
  | [] => .next (advance s.progress)

/-- `s` with an instruction of `nbits` bits where the next step fetches (notes/assumptions/23.md). -/
def State.withFetchWord (s : State) (nbits w : Nat) : State := loadWord s nbits w

end Sys2Proof.Machine
end

