-- ==== Sys2Proof/Safety.lean ====
section
/-! DEFINITION. What a safe run is: no step of it stops; the invariant of memory; and the terms in which the statements speak of the
start of a bundle, of what a slot needs to issue, and of what a result on its way is. -/

namespace Sys2Proof

open Sys2Proof.Machine

/-- `t` is reached from `s` in `n` steps that answer next states. -/
def Reaches : Nat → State → State → Prop
  | 0, s, t => s = t
  | n + 1, s, t => ∃ u, step s = .next u ∧ Reaches n u t

/-- A run from `s` that never stops. -/
def Safe (s : State) : Prop := ∀ n t, Reaches n s t → ∃ u, step t = .next u

/-- Every byte store is in its canonical form. -/
def MemOk (s : State) : Prop :=
  s.mem.dram.wf = true ∧ s.mem.sp.wf = true ∧ s.mem.host.wf = true ∧ s.mem.peer.wf = true

/-- Instruction `i` completes in `s`, in a state of which `p` holds. -/
def Gives (i : Instr) (s : State) (p : State → Prop) : Prop := ∃ t, exec i s = .next t ∧ p t

/-! ## The start of a bundle -/

/-- The state in which the bundle of the current context starts: format shadows over, due results landed (R66, R77, R88). -/
def begun (s : State) : State := s.settled s.cur

/-- The current context in it. -/
def me (s : State) : Ctx := (begun s).ctx s.cur

/-- The current context can issue: it is resident, and no landing access due by its present cycle is without its data (R80, R86). -/
def CanIssue (s : State) : Prop := (s.ctx s.cur).resident = true ∧ (me s).missing (me s).seq.cyc = false

/-- Unit `fu` can be triggered: the context's own interval is over and no other context holds the unit (R78). -/
def UnitFree (s : State) (fu : Nat) : Prop :=
  look 0 (me s).ports.busy fu ≤ (me s).seq.cyc ∧
    ((look (0, 0) (s.core (coreOf s.cur)).units fu).1 ≤ s.clock ∨ (look (0, 0) (s.core (coreOf s.cur)).units fu).2 = s.cur)

/-- Name `n` can be read as `w`: a source of Table 3.4 that neither traps nor stalls (R62, R79, R136). -/
def Readable (s : State) (n : Nat) (w : Want) : Prop :=
  (begun s).sourceCands s.cur n w = [] ∧ (begun s).sourceStalls s.cur n = false

/-- An operand source: the latched operand, or a readable name (R60, R61). -/
def OperandOk (s : State) (n : Nat) (w : Want) : Prop := n = 0xFFF ∨ Readable s n w

/-- The value of name `n` at the start of the bundle. -/
def valueOf (s : State) (n : Nat) (w : Want) : PVal := (begun s).readName s.cur n w

/-- The operand of a trigger of unit `fu`: the latch, or the named source. -/
def operandOf (s : State) (fu n : Nat) (w : Want) : PVal := operand (begun s) (begun s) fu n w

/-- The value latched at operand port 2 of unit `fu`. -/
def secondOf (s : State) (fu : Nat) : PVal := operand2 (begun s) fu

/-- Words of the bundle at the context's PC. -/
def lenOf (s : State) : Nat := (begun s).bundleLen s.cur (me s).seq.pc

/-- A result of unit `fu` is on its way to the port: it lands at one context cycle from bound − interval + 1 to bound cycles after
the bundle (R77), with the flags it raises, the exceptions that were enabled, and the condition it writes. -/
def Sends (s t : State) (fu bound ii : Nat) (v : PVal) (mask : Option Tile) (flags en : Nat) (cond : Option (Nat × Bool)) : Prop :=
  (t.ctx s.cur).ports.flights = (me s).ports.flights ++
    [⟨fu, bound, (me s).level, (me s).seq.cyc + bound - ii + 1, (me s).seq.cyc + bound, some v, mask, flags, en, cond,
      (me s).seq.pc, none⟩]

/-! ## What a bundle of one slot needs, and what it leaves -/

/-- A slot meets no trap condition (R74) and no stall condition (Table 4.2): its own conditions, its tokens, its unit, its queue,
the landing buffer, the walks of its pages. -/
def Clear (s : State) (m : Sem) : Prop :=
  m.cands = [] ∧ (∀ t, m.tout = some t → t ∉ m.tins ∧ (begun s).tokenBusy s.cur t = false) ∧ (∀ u, m.unit = some u → UnitFree s u.1) ∧
    m.stall = false ∧ m.walks = [] ∧
    (m.queue = some true → queuedMx ((begun s).eng (coreOf s.cur)) < 16) ∧
    (m.queue = some false → queuedCp ((begun s).eng (coreOf s.cur)) < 32) ∧
    ((me s).entriesUsed + m.entries ≤ 16 ∨ m.entries = 0)

/-- The state that bundle of one slot leaves: the slot's effect, its unit held, then PC, loop stack and time. -/
def afterSlot (s : State) (k : Nat) (m : Sem) : State :=
  (finishBundle (holdUnits (m.act (begun s)) s.cur [(k, m)]) s.cur (lenOf s) Header.none [(k, m)]).draw

/-- Everything but the contexts, the cores and the model's own counters. -/
def SameOutside (s t : State) : Prop :=
  t.mem = s.mem ∧ t.engines = s.engines ∧ t.miller = s.miller ∧ t.links = s.links ∧ t.boot = s.boot ∧ t.tele = s.tele ∧
    t.fetches = s.fetches ∧ t.dies = s.dies ∧ t.clock = s.clock ∧ t.seqno = s.seqno

/-- The cores but for their units and selector, and for what writes have left unordered in their scratchpads. -/
def SameCoresBut (s t : State) : Prop :=
  ∀ k, (t.core k).tiles = (s.core k).tiles ∧ (t.core k).ways = (s.core k).ways ∧ (t.core k).dict = (s.core k).dict ∧
    (t.core k).icache = (s.core k).icache ∧ (t.core k).blocks = (s.core k).blocks ∧ (t.core k).maint = (s.core k).maint ∧
    (t.core k).tlb = (s.core k).tlb

/-- What writes have left unordered in the scratchpads is the same (R175). -/
def SameFresh (s t : State) : Prop := ∀ k, (t.core k).fresh = (s.core k).fresh

/-- The cores but for their units and selector. -/
def SameCores (s t : State) : Prop := SameCoresBut s t ∧ SameFresh s t

/-- The contexts other than the current one, but for the yields that an issue of a higher priority ends (R131). -/
def SameOthers (s t : State) : Prop :=
  ∀ d, d ≠ s.cur → (t.ctx d).seq = (s.ctx d).seq ∧ (t.ctx d).regs = (s.ctx d).regs ∧ (t.ctx d).ports = (s.ctx d).ports ∧
    (t.ctx d).fmts = (s.ctx d).fmts ∧ (t.ctx d).traps = (s.ctx d).traps ∧ (t.ctx d).win = (s.ctx d).win ∧
    ({ (t.ctx d).sched with yieldAt := none } : Sched) = { (s.ctx d).sched with yieldAt := none }

/-- The register files, trap registers and windows of the current context are unchanged; its conditions and format registers are
those of the start of the bundle, the formats' shadows one bundle shorter (R88). -/
def SameRegs (s t : State) : Prop :=
  (t.ctx s.cur).regs = (s.ctx s.cur).regs ∧ (t.ctx s.cur).traps = (s.ctx s.cur).traps ∧ (t.ctx s.cur).win = (s.ctx s.cur).win ∧
    (t.ctx s.cur).seq.kcond = (me s).seq.kcond ∧ (t.ctx s.cur).fmts = (me s).fmts.tickShadow

/-- A trigger of unit `fu` with operand source `on` takes its operand: the latch of port o takes a named one (R61); the result ports
keep what they hold until the result lands. -/
def Latches (s t : State) (fu on : Nat) (wo : Want) : Prop :=
  (t.ctx s.cur).ports.result = (me s).ports.result ∧
    (t.ctx s.cur).ports.latch = (if on = 0xFFF then (me s).ports.latch
      else put (me s).ports.latch (latchKey (me s).level fu 0) (portHolds fu (operandOf s fu on wo)))

/-- A trigger completes with `v` on its way to the port; beside the context, the bundle leaves everything as it is in `u`. -/
def DeliversFrom (u s t : State) (fu on : Nat) (wo : Want) (bound ii : Nat) (v : PVal) (mask : Option Tile) (flags en : Nat)
    (cond : Option (Nat × Bool)) : Prop :=
  Sends s t fu bound ii v mask flags en cond ∧ Latches s t fu on wo ∧ SameRegs s t ∧ SameOutside u t ∧ SameCores u t ∧ SameOthers s t

/-- A trigger completes with `v` on its way to the port, and nothing else changed. -/
def Delivers (s t : State) (fu on : Nat) (wo : Want) (bound ii : Nat) (v : PVal) (mask : Option Tile) (flags en : Nat)
    (cond : Option (Nat × Bool)) : Prop := DeliversFrom s s t fu on wo bound ii v mask flags en cond

/-- `Delivers`, for a trigger that also leaves the format registers at `fm` (the stochastic state of a conversion, R42). -/
def DeliversFmts (s t : State) (fu on : Nat) (wo : Want) (bound ii : Nat) (v : PVal) (flags en : Nat) (fm : Formats) : Prop :=
  Sends s t fu bound ii v none flags en none ∧ Latches s t fu on wo ∧ (t.ctx s.cur).regs = (s.ctx s.cur).regs ∧ (t.ctx s.cur).traps = (s.ctx s.cur).traps ∧ (t.ctx s.cur).win = (s.ctx s.cur).win ∧
    (t.ctx s.cur).seq.kcond = (me s).seq.kcond ∧ (t.ctx s.cur).fmts = fm.tickShadow ∧ SameOutside s t ∧ SameCores s t ∧ SameOthers s t

/-- The stochastic state after `n` steps (R42). -/
def srAfter : Nat → Nat → Nat
  | 0, st => st
  | n + 1, st => srAfter n (srStep st)

/-- Node `k` of level `l` of the pairwise tree over the values `x` (R148), with the flags met below it. -/
def treeOf (add : Nat → Nat → Nat × Nat) (x : Nat → Nat) : Nat → Nat → Nat × Nat
  | 0, k => (x k, 0)
  | l + 1, k =>
    let a := treeOf add x l (2 * k)
    let b := treeOf add x l (2 * k + 1)
    ((add a.1 b.1).1, (add a.1 b.1).2 ||| a.2 ||| b.2)

/-- Value `k` after the first `l` distances 1, 2, 4, … of the scan over the values `x` (R149), with the flags that formed it. -/
def scanOf (add : Nat → Nat → Nat × Nat) (x : Nat → Nat) : Nat → Nat → Nat × Nat
  | 0, k => (x k, 0)
  | l + 1, k =>
    let b := scanOf add x l k
    if k < 2 ^ l then b
    else
      let a := scanOf add x l (k - 2 ^ l)
      ((add a.1 b.1).1, (add a.1 b.1).2 ||| a.2 ||| b.2)

/-! ## The control slot -/

/-- Nothing changed but the current context and what issuing does to its core's units and selector. -/
def OnlyContext (s t : State) : Prop := SameOutside s t ∧ SameCores s t ∧ SameOthers s t

/-- The bundle took `cost` context cycles, and the next is at `pc`. -/
def Goes (s t : State) (pc cost : Nat) : Prop :=
  (t.ctx s.cur).seq.pc = pc ∧ (t.ctx s.cur).seq.cyc = (me s).seq.cyc + cost ∧ (t.ctx s.cur).seq.wake = s.clock + cost

/-- The address of the next bundle in the stream. -/
def nextPc (s : State) : Nat := (me s).seq.pc + lenOf s

/-- The bundle is the last of an innermost loop's body (R115). -/
def AtLoopEnd (s : State) : Prop := (me s).loopBase < (me s).seq.ldepth ∧ ((me s).loopAt 0).exit = nextPc s

/-- The loop stack is that of the start of the bundle. -/
def SameLoops (s t : State) : Prop := (t.ctx s.cur).seq.loops = (me s).seq.loops ∧ (t.ctx s.cur).seq.ldepth = (me s).seq.ldepth

/-- The bundle goes on to the next one, its own effect apart. -/
def FallsThrough (s t : State) : Prop := Goes s t (nextPc s) 1 ∧ SameLoops s t

/-- The ports and what is in flight are those of the start of the bundle. -/
def SamePorts (s t : State) : Prop :=
  (t.ctx s.cur).ports.flights = (me s).ports.flights ∧ (t.ctx s.cur).ports.result = (me s).ports.result ∧
    (t.ctx s.cur).ports.latch = (me s).ports.latch ∧ (t.ctx s.cur).ports.zdue = (me s).ports.zdue

/-- A wait has begun after the bundle (R113). -/
def BeginsWait (s t : State) (w : Wait) : Prop := (t.ctx s.cur).seq.wait = some w ∧ FallsThrough s t ∧ SameRegs s t ∧ SamePorts s t

/-- A control source can be read (R113). -/
def ControlReadable (s : State) (n : Nat) : Prop := isControlSource n = true ∧ Readable s n .scalar

/-- The scalar of a control source. -/
def controlValue (s : State) (n : Nat) : Nat := (valueOf s n .scalar).asScalar

/-- The bundle traps at issue: it has no effect, and the exception is taken (R58, R293). -/
def TrapsAtIssue (i : Instr) (s : State) (cause tval : Nat) : Prop :=
  exec i s = .next (trapBundle (begun s) s.cur cause tval (if lenOf s = 25 then 1 else 0))

/-- The bundle leaves the current context at `y` (its registers, trap registers, windows, conditions, loops and ports), goes on to
the next one, and changes nothing else. -/
def Becomes (s t : State) (y : Ctx) : Prop :=
  (t.ctx s.cur).regs = y.regs ∧ (t.ctx s.cur).traps = y.traps ∧ (t.ctx s.cur).win = y.win ∧ (t.ctx s.cur).ports = y.ports ∧
    (t.ctx s.cur).seq.kcond = y.seq.kcond ∧ (t.ctx s.cur).seq.loops = y.seq.loops ∧ (t.ctx s.cur).seq.ldepth = y.seq.ldepth ∧
    (t.ctx s.cur).fmts = y.fmts.tickShadow ∧ Goes s t (nextPc s) 1 ∧ OnlyContext s t

/-- A context with an s, a or o register written by name. -/
def withScalar (x : Ctx) (dst v : Nat) : Ctx :=
  if dst < 0x340 then { x with regs := { x.regs with s := wr x.regs.s (dst - 0x300) v } }
  else if dst < 0x360 then { x with regs := { x.regs with a := wr x.regs.a (dst - 0x340) v } }
  else { x with regs := { x.regs with o := wr x.regs.o (dst - 0x360) v } }

/-- Every landing access of the context has its data. -/
def DataArrived (x : Ctx) : Prop := ∀ f ∈ x.ports.flights, ∀ l, f.landing = some l → l.arrived = true

/-! ## Exact values and one rounding (R8, R41, R44, Tables 2.7 and 2.8) -/

/-- The exact value of a finite number; a zero, an infinity and a NaN count as 0. -/
def valRat : FVal → ℚ
  | .fin n m => (if n then -1 else 1) * (m.num / m.den) * 2 ^ m.exp
  | _ => 0

/-- A zero or a number as codes stand for: no infinity, no NaN, a positive integer times a power of two where it is no zero. -/
def IsFinite (v : FVal) : Prop := v.special = false ∧ ∀ n m, v = .fin n m → 0 < m.num ∧ m.den = 1

/-- The value of magnitude code `c`; past the largest finite one, the value that the next code of its binade would have. -/
def codeRat (f : FFmt) (c : Nat) : ℚ :=
  if c ≤ f.maxFin then valRat (f.read c) else 2 * valRat (f.read f.maxFin) - valRat (f.read (f.maxFin - 1))

/-- A magnitude at the fraction `t` of the way from one neighbour to the next is rounded to the next: `odd` says whether the lower
neighbour's code is (R41, Table 2.7). -/
def GoesUp (mode : Rnd) (neg odd : Bool) (t : ℚ) : Prop :=
  match mode with
  | .rne => 1 / 2 < t ∨ (t = 1 / 2 ∧ odd = true)
  | .rtz => False
  | .rdn => neg = true ∧ 0 < t
  | .rup => neg = false ∧ 0 < t
  | .sr g => 1 ≤ t + (g : ℚ) / 65536

/-- A magnitude below the least normal one that also rounds to below it where the exponent is unbounded (R44). -/
def IsTiny (f : FFmt) (mode : Rnd) (neg : Bool) (v : ℚ) : Prop :=
  let least : ℚ := 2 ^ (1 - (f.bias : Int))
  let step : ℚ := 2 ^ (-(f.bias : Int) - f.mbits)
  v < least ∧ ¬ (least - step ≤ v ∧ GoesUp mode neg true ((v - (least - step)) / step))

/-- The code and the flags `r` are those of the exact magnitude `v`, of sign `neg`, rounded once into format `f` (R44, Table 2.8). -/
def RoundsOnce (f : FFmt) (mode : Rnd) (sat neg : Bool) (v : ℚ) (r : Nat × Nat) : Prop :=
  let overflows := r = (f.signed neg (match f.top with
    | .ieee => if sat = true ∨ mode = .rtz ∨ (mode = .rdn ∧ neg = false) ∨ (mode = .rup ∧ neg = true) then f.maxFin else f.infCode
    | .nanOnly => if sat then f.maxFin else f.nanCode
    | .finite => f.maxFin), flOVF + flINX)
  (codeRat f (f.maxFin + 1) ≤ v → overflows) ∧
    ∀ b ≤ f.maxFin, codeRat f b ≤ v → v < codeRat f (b + 1) →
      let t := (v - codeRat f b) / (codeRat f (b + 1) - codeRat f b)
      let up := GoesUp mode neg (b % 2 == 1) t
      (up → b = f.maxFin → overflows) ∧
      (¬ up ∨ b < f.maxFin → (up → r.1 = f.signed neg (b + 1)) ∧ (¬ up → r.1 = f.signed neg b) ∧
        (t = 0 → r.2 = 0) ∧ (t ≠ 0 → IsTiny f mode neg v → r.2 = flINX + flUNF) ∧ (t ≠ 0 → ¬ IsTiny f mode neg v → r.2 = flINX))

/-- Code `c` of format `f` with a subnormal replaced by the zero of its sign (R32). -/
def flushedCode (f : FFmt) (c : Nat) : Nat :=
  if fld c f.mbits f.ebits = 0 then f.signed (bitAt c f.magBits) 0 else c % 2 ^ (f.magBits + 1)

/-- Lane by lane of `w` bits, `addLanes` is the sum of the flushed lanes in format `f`, rounded once to nearest even (R213, R215). -/
def LaneSums (f : FFmt) (w : Nat) : Prop :=
  ∀ (n a b k : Nat), k < n →
    let r := fld (addLanes f w n a b) (w * k) w
    let x := f.readFlush (fld a (w * k) w)
    let y := f.readFlush (fld b (w * k) w)
    let sum := valRat x + valRat y
    (x.special = false → y.special = false → (sum ≠ 0 → ∃ fl, RoundsOnce f .rne false (decide (sum < 0)) |sum| (r, fl)) ∧
      (sum = 0 → r = f.signed (x.neg && y.neg) 0)) ∧
    (x.isNaN = true ∨ y.isNaN = true → r = f.nanCode) ∧
    (∀ m, x = .inf m → (y = .inf (!m) → r = f.nanCode) ∧ (y = .inf m ∨ y.special = false → r = f.signed m f.infCode)) ∧
    (∀ m, y = .inf m → x.special = false → r = f.signed m f.infCode)

/-- Magnitude code `c` of format `f` lies within `k` units in the last place of the positive real number `v` (R150), to 2^-100 of `v` in
the choice of the unit and to 2^-100 of the unit in the distance. -/
def NearReal (f : FFmt) (k : ℝ) (v : ℝ) (c : Nat) : Prop :=
  ∃ e : Int, 1 - (f.bias : Int) ≤ e ∧ v < 2 ^ (e + 1) * (1 + 2 ^ (-100 : Int)) ∧ (e = 1 - (f.bias : Int) ∨ 2 ^ e * (1 - 2 ^ (-100 : Int)) ≤ v) ∧
    |(codeRat f c : ℝ) - v| ≤ (k + 2 ^ (-100 : Int)) * 2 ^ (e - f.mbits)

/-- The code and the flags `r` are those of the square root of the positive number `v`, rounded once into format `f`, in which it has
neither overflow nor underflow (R44, R150). -/
def RootOnce (f : FFmt) (mode : Rnd) (v : ℚ) (r : Nat × Nat) : Prop :=
  ∀ b, codeRat f b ^ 2 ≤ v → v < codeRat f (b + 1) ^ 2 →
    (codeRat f b ^ 2 = v → r = (b, 0)) ∧
    (codeRat f b ^ 2 < v → r = (if mode = .rup ∨ (mode = .rne ∧ ((codeRat f b + codeRat f (b + 1)) / 2) ^ 2 < v) then b + 1 else b, flINX))

/-- The code and the flags `r` are those of the exact magnitude `v`, of sign `neg`, rounded once to an integer of format code `k`, an
integer beyond its range giving the nearer end and INV (R41, R44, R45). -/
def RoundsToInt (k : Nat) (mode : Rnd) (neg : Bool) (v : ℚ) (r : Nat × Nat) : Prop :=
  ∀ b : Nat, (b : ℚ) ≤ v → v < b + 1 → ∀ c : Nat, (GoesUp mode neg (b % 2 == 1) (v - b) → c = b + 1) →
    (¬ GoesUp mode neg (b % 2 == 1) (v - b) → c = b) →
    let x : Int := if neg then -(c : Int) else c
    (x < fmtMin k → r.1 = wrapInt (fmtWidth k) (fmtMin k) ∧ r.2 = flINV) ∧ (fmtMax k < x → r.1 = wrapInt (fmtWidth k) (fmtMax k) ∧ r.2 = flINV) ∧
      (fmtMin k ≤ x → x ≤ fmtMax k → r.1 = wrapInt (fmtWidth k) x ∧ r.2 = if v = b then 0 else flINX)

/-- The value of an element of block-scaled format `fmt` before its scale (R34, R37). -/
def elementRat (fmt c : Nat) : ℚ := valRat (blkRead fmt c)

/-- The value fed for one element of an edge: its own, times its block scale where the format is no integer one; an element of a zero
slice is 0 (R161, R168). -/
def fedRat (fmt : Nat) (fam : Fam) (x : Fed) : ℚ :=
  match x with
  | none => 0
  | some (c, s) => if fam.isInt then (fmtInt fmt c : ℚ) else elementRat fmt c * 2 ^ ((s % 512 : Nat) - 255 : Int)

/-! ## The engine slots -/

/-- The matrix instructions with their opcodes (Table 8.6). -/
def matrixRows (o : MxOps) : List (Instr × Nat) :=
  [(.mstep o, 1), (.mstepG o, 2), (.mpre o, 3), (.mstepWs o, 4), (.mfin o, 5), (.mzero o, 6), (.mcorr o, 7), (.mcld o, 8), (.mcinv o, 9),
    (.mscl o, 10)]

/-- The copy instructions with their opcodes (Table 10.2). -/
def copyRows (o : CpOps) : List (Instr × Nat) :=
  [(.cpy o, 1), (.cpyf o, 2), (.cpyt o, 3), (.lblk o, 4), (.eblk o, 5), (.put o, 6), (.sread o, 7), (.swrite o, 8), (.cfill o, 9),
    (.xcpy o, 0x18)]

/-- The named-line instructions with their opcodes (Table 11.3). -/
def namedRows (o : CpOps) : List (Instr × Nat) :=
  [(.nput o, 0x10), (.nget o, 0x11), (.nref o, 0x12), (.nrel o, 0x13), (.nswap o, 0x14), (.nout o, 0x15), (.nstat o, 0x16)]

/-- Token `tout` can be taken by an instruction that waits for `tins`: it is none of them, and its latest producer has completed
(R67, R222). -/
def TokenFree (s : State) (tout : Nat) (tins : List Nat) : Prop :=
  tout ∉ tins.filter (fun t => t != 63) ∧ (begun s).tokenBusy s.cur tout = false

/-- A matrix slot meets no trap condition and finds its token and a place in the queue (R67, R85, R167, R222). -/
def MatrixAccepts (s : State) (op : Nat) (o : MxOps) : Prop :=
  mxCands (begun s) op o = [] ∧ TokenFree s o.tout [o.tin0, o.tin1, o.tin2] ∧ queuedMx (s.eng (coreOf s.cur)) < 16

/-- A copy slot with the trap conditions `cands` likewise. -/
def CopyAccepts (s : State) (cands : List Cand) (o : CpOps) : Prop :=
  cands = [] ∧ TokenFree s o.tout [o.tin0, o.tin1, o.tin2] ∧ queuedCp (s.eng (coreOf s.cur)) < 32

/-- What queueing an engine instruction leaves as it was: memory, the Miller, links and boot, tiles, ways and dictionaries, other
contexts and the other cores' engines, windows and trap registers; the bundle goes on, a loop's end apart. -/
def SameBesideQueue (s t : State) : Prop :=
  t.mem = s.mem ∧ t.miller = s.miller ∧ t.links = s.links ∧ t.boot = s.boot ∧ t.tele = s.tele ∧ t.clock = s.clock ∧
    t.fetches = s.fetches ∧ t.dies = s.dies ∧ SameCoresBut s t ∧
    SameOthers s t ∧ (∀ k, k ≠ coreOf s.cur → t.eng k = s.eng k) ∧ t.seqno = s.seqno + 1 ∧ (t.ctx s.cur).traps = (s.ctx s.cur).traps ∧
    (t.ctx s.cur).win = (s.ctx s.cur).win ∧ (t.ctx s.cur).seq.kcond = (me s).seq.kcond ∧
    (t.ctx s.cur).ports.flights = (me s).ports.flights ∧ (t.ctx s.cur).ports.result = (me s).ports.result ∧
    (t.ctx s.cur).ports.latch = (me s).ports.latch ∧ (¬ AtLoopEnd s → FallsThrough s t)

/-- The correction vector of lanes that are not NaN-marked: the sum of the squares of each (R171). -/
def CorrectionsOf (lanes : List Lane) (v : List Nat) : Prop :=
  v.length = lanes.length ∧ ∀ (i : Nat) (l : Lane), lanes[i]? = some l → l.1.isSome = true → v[i]? = some ((l.2.1.map (fun a => a.natAbs * a.natAbs)).sum)

/-- The engine instruction numbered `n` of core `k`'s matrix queue, running. -/
def RunsMx (s : State) (k n : Nat) (r : MxRun) : Prop :=
  (s.eng k).mxq.find? (fun p => p.iss.seq == n && p.iss.stage == .running) = some r

/-- The engine instruction numbered `n` of core `k`'s copy queue, running. -/
def RunsCp (s : State) (k n : Nat) (r : CpRun) : Prop :=
  (s.eng k).cpq.find? (fun p => p.iss.seq == n && p.iss.stage == .running) = some r

/-- Its owner is bound to context `c`. -/
def Owner (s : State) (i : Issued) (c : Nat) : Prop := s.ownerOf i = some c

/-- An engine instruction of the owner bound to `c` has left token `n` set, with the error bit given (R222). -/
def TokenSet (t : State) (c n : Nat) (err : Bool) : Prop := (t.ctx c).tokSet n = true ∧ (t.ctx c).tokErr n = err

/-! ## Waits -/

/-- The wait that context `x` is left with when the wait of a control slot ends: the weir wait of the same bundle, else the wait to be
saved at a point that was reached with a request (R113, R304). -/
def afterWait (x : Ctx) : Option Wait :=
  x.seq.behind.or (if x.seq.point = true ∧ x.traps.level = 0 then x.sched.preempt.map (fun r => Wait.save r.2) else none)

/-- A pending `xcpy` write is of context `x`'s own (R231). -/
def OwnLoose (x : Ctx) (d : Loose) : Prop := d.job = x.sched.job ∧ d.place = x.sched.place

/-- The weir wait of `y` is `w`, alone or behind the wait that `x` has from the control slot of its bundle. -/
def WeirAt (x y : Ctx) (w : Wait) : Prop :=
  if x.seq.behind.isSome then y.seq.behind = some w ∧ y.seq.wait = x.seq.wait else y.seq.wait = some w ∧ y.seq.behind = none

/-! ## The copy engine -/

/-- Byte `b` of store `v` belongs to an `xcpy` write that is still to become visible, and one such write meets [a, a + n) of store `w`: a write
there may have it become visible first and whole, with what precedes it (R219, R266, R280). -/
def Rides (s : State) (w : Space) (a n : Nat) (v : Space) (b : Nat) : Prop :=
  (∃ d ∈ s.mem.loose, d.meets w.code a n = true) ∧ ∃ d ∈ s.mem.loose, Space.ofCode d.space = v ∧ d.addr ≤ b ∧ b < d.addr + d.len

/-- Outside [a, a + n) of byte store `w`, every byte of memory reads in `t` as it does in `s`, but for the bytes of `xcpy` writes that ride with
a write of the range. -/
def SameBytesBut (s t : State) (w : Space) (a n : Nat) : Prop :=
  ∀ v b, (v ≠ w ∨ b < a ∨ a + n ≤ b) → ¬ Rides s w a n v b → memByte (t.mem.store v) b = memByte (s.mem.store v) b

/-- No error in these bytes is uncorrectable, so that a read of them is answered with what they hold (R374). -/
def Sound (s : State) (w : Space) (a n : Nat) : Prop := s.badIn w a n = []

/-- A copy that may complete, with all of its accesses before it: none has been refused, and no own way has another owner. -/
def Untouched (s : State) (k : Nat) (r : CpRun) : Prop :=
  cpDone s k r = true ∧ r.iss.poisoned = false ∧ r.fault = none ∧ r.todo = r.firstReads ∧ r.left = List.range r.writes.length ∧
    r.got = [] ∧ r.lost = [] ∧ r.gone = 0 ∧ r.wrote = 0 ∧ s.lostWays r.iss = []

/-- Its nest is one element, of 1 to 16 bytes, which is not clipped. -/
def OneElement (r : CpRun) (e : Machine.Elem) : Prop := patElems r.pat = [e] ∧ e.clip = false ∧ patEs r.pat ≤ 16

/-- An access of [a, a + n) finds one allowed piece, without an uncorrectable error that a read would meet (R221, Table 10.4). -/
def OnePiece (s : State) (r : CpRun) (a n : Nat) (p : Perm) (g : Target) : Prop :=
  pieces a n = [(a, n)] ∧ s.engHit r a p = .ok g ∧ (p = .load → Sound s g.space g.addr n)

/-- The state in which that access performs: its translation cached, A and D set, lines locked (R202, R321). -/
def reached (s : State) (r : CpRun) (a n : Nat) (p : Perm) (g : Target) : State :=
  s.engUse (coreOf r.iss.ctx) r.iss.job a g p.writes n

/-- The counter of a copy whose accesses have come to `x`, if it has one, can be added (R225). -/
def CounterOk (x : State) (r : CpRun) : Prop :=
  r.counter = 0 ∨ ∃ g, x.engHit r r.counter .atomic = .ok g ∧ Sound x g.space g.addr 8

/-- The bytes that such a copy leaves: those of `x`, its counter added (R225) with nothing between the read and the write of the add, `xcpy`
writes that come before it shown first (R272). -/
def Counts (x : State) (r : CpRun) (t : State) : Prop :=
  (r.counter = 0 → ∀ w, t.mem.store w = x.mem.store w) ∧
    ∀ g, r.counter ≠ 0 → x.engHit r r.counter .atomic = .ok g →
      let y := reached x r r.counter 8 .atomic g
      t.readN g.space g.addr 8 = ((y.passLoose g.space g.addr 8).readN g.space g.addr 8 + patInc r.pat) % 2 ^ 64 ∧ SameBytesBut y t g.space g.addr 8

/-- The fault record of context `c` names a fault of copy-engine instruction `r` (R237, Table 10.5). -/
def FaultRecord (t : State) (c : Nat) (r : CpRun) (cause detail : Nat) : Prop :=
  (t.ctx c).win.efrec0 / 2 ^ 33 = (recWord0 cause 2 r.op r.o.tout 0 r.iss.pc) / 2 ^ 33 ∧ (t.ctx c).win.efrec0 % 2 ^ 32 = r.iss.pc % 2 ^ 32 ∧
    (t.ctx c).win.efrec3 / 2 ^ 32 % 2 ^ 16 = detail % 2 ^ 16

/-- [a, a + n) of core `k`'s own window lies in ways that instruction `r` recorded and still owns, and can be read. -/
def OwnRange (s : State) (k : Nat) (r : CpRun) (a n : Nat) : Prop :=
  a + n ≤ 2 ^ 24 ∧ Sound s .sp (k * 2 ^ 24 + a) n ∧
    ∀ w < 16, w * 2 ^ 20 < a + n → a < (w + 1) * 2 ^ 20 → r.iss.ways.testBit w = true ∧ s.tagHolds r.iss w = true

/-- `n` bytes at offset `a` of core `k`'s scratchpad. -/
def ownBytes (s : State) (k a n : Nat) : Nat := s.readN .sp (k * 2 ^ 24 + a) n

/-! ## The Miller -/

/-- The head packet of queue `q` has been taken, under the next number, for pushing job `job`, with its status where it has one. -/
def Takes (s t : State) (q : Nat) (job : Option Nat) (status : Option (Nat × Nat)) : Prop :=
  t.miller.taken = s.miller.taken ++ [⟨s.miller.count + 1, q, s.readIndex (s.queue q), s.headPacket q, job, none, status⟩] ∧
    t.miller.count = s.miller.count + 1

/-- The packet taken last has the status given. -/
def LastStatus (t : State) (st : Option (Nat × Nat)) : Prop := ∃ o, t.miller.taken.getLast? = some o ∧ o.status = st

/-- Every context has the registers and the place in its program that it had. -/
def SameContexts (s t : State) : Prop :=
  ∀ d, (t.ctx d).regs = (s.ctx d).regs ∧ (t.ctx d).seq = (s.ctx d).seq ∧ (t.ctx d).ports = (s.ctx d).ports ∧ (t.ctx d).traps = (s.ctx d).traps

/-- The queues but `q` are as they were. -/
def OtherQueues (s t : State) (q : Nat) : Prop := ∀ p, p ≠ q → t.queue p = s.queue p

/-! ## Accesses of ls -/

/-- The checked parts of an access of `n` bytes at `a` by the current context (R192 to R195). -/
def accessParts (s : State) (a n : Nat) (p : Perm) : List Part := (begun s).parts s.cur a n p

/-- Every part of an access is allowed, its translation at hand (R195). -/
def Allowed (l : List Part) : Prop := ∀ k ∈ l, ∃ t, k.check = .ok t

/-- The state once an access has set A and D, locked the lines of pinned pages, met errors and raised the events of unreachable
peers, its data apart (R202, R321, R358, R374). An access performs in it (log entry 11). -/
def touched (s : State) (write : Bool) (l : List Part) : State := (begun s).touchParts (coreOf s.cur) write l

/-- That state, a release having written back what the context's `cwb` instructions left (R105, R132). -/
def released (s : State) (rel : Bool) (l : List Part) : State := if rel then (touched s true l).release else touched s true l

/-- That state, an acquire having ordered what copies wrote to the core (R175). -/
def acquired (s : State) (acq : Bool) (u : State) : State := if acq then u.acquireOf s.cur else u

/-- Room in the landing buffer for one more entry (R81). -/
def BufferRoom (s : State) : Prop := (me s).entriesUsed < 16

/-- A landing access of class `cls` is on its way: it lands when its data have arrived and its landing register's cycles are over
(R80, R209); `v` is what a load or an atomic brings; `ps` are its parts, which say whether it is remote and which vertical
interfaces it crosses (R335). -/
def SendsLanding (s t : State) (cls : Nat) (v : Option PVal) (ps : List Part) (hostOp : Option Nat) : Prop :=
  (t.ctx s.cur).ports.flights = (me s).ports.flights ++
    [⟨2, (me s).lnd cls, (me s).level, (me s).seq.cyc + (me s).lnd cls, (me s).seq.cyc + (me s).lnd cls, v, none, 0, 0, none,
      (me s).seq.pc, some ⟨if v.isSome then 1 else 0, false, partsRemote ps, hostOp, partsCross (dieOf (coreOf s.cur)) ps⟩⟩]

/-- What a write to memory leaves beside memory, from the state `u` in which it performs: the Miller, a SNAP's image apart (R368), the
links, boot, time; tiles, ways and dictionaries; accumulators, z tiles and the stationary operand; registers and trap registers of
every context. A write to scratchpad may drop correction-cache entries (R174), which their installers, saved ones too, count in
ccstat; what it leaves unordered in another core's scratchpad (R175) is told apart. -/
def SameBesideMemory (u s t : State) : Prop :=
  ({ t.miller with snap := none, loads := [] } : Miller) = { u.miller with snap := none, loads := [] } ∧ t.links = u.links ∧
    t.boot = u.boot ∧ t.tele = u.tele ∧ t.clock = u.clock ∧ t.fetches = u.fetches ∧ t.dies = u.dies ∧ SameCoresBut u t ∧
    (∀ k, (t.eng k).bank0 = (s.eng k).bank0 ∧ (t.eng k).bank1 = (s.eng k).bank1 ∧ (t.eng k).z = (s.eng k).z ∧
      (t.eng k).stat = (s.eng k).stat) ∧
    (∀ d, (t.ctx d).regs = (s.ctx d).regs ∧ (t.ctx d).traps = (s.ctx d).traps) ∧
    (t.ctx s.cur).seq.kcond = (me s).seq.kcond ∧ (t.ctx s.cur).fmts = (me s).fmts.tickShadow

end Sys2Proof
end

