-- ==== Sys2Proof/Certificates/Slice0/Obligations.lean ====
section
/-! DEFINITION. The statements for the provers. -/

open Sys2Proof Sys2Proof.Machine

/-- R109, R110, Table 6.1: the operations whose 32-bit results are sign-extended, with their bounds (Table 4.1). R109, R110: the operations of Table 6.1 on unsigned operands. -/
def Obligations.ScalarArithmetic : Prop :=
  (
  ∀ p ∈ ([(.saAdd, 2, fun _ a b => a + b), (.saSub, 2, fun _ a b => a - b), (.saMul, 4, fun _ a b => a * b),
      (.saMulh, 4, fun w a b => BitVec.ofInt w (a.toInt * b.toInt / 2 ^ w)),
      (.saAnd, 2, fun _ a b => a &&& b), (.saOr, 2, fun _ a b => a ||| b), (.saXor, 2, fun _ a b => a ^^^ b),
      (.saAndn, 2, fun _ a b => a &&& ~~~b), (.saShl, 2, fun w a b => a <<< (b.toNat % w)),
      (.saSra, 2, fun w a b => a.sshiftRight (b.toNat % w)), (.saRotl, 2, fun w a b => a.rotateLeft (b.toNat % w)),
      (.saMin, 2, fun _ a b => if a.sle b then a else b), (.saMax, 2, fun _ a b => if a.sle b then b else a),
      (.saCmpeq, 2, fun _ a b => if a = b then 1 else 0), (.saCmpne, 2, fun _ a b => if a = b then 0 else 1),
      (.saCmplt, 2, fun _ a b => if a.slt b then 1 else 0), (.saCmple, 2, fun _ a b => if a.sle b then 1 else 0),
      (.saCmpltc, 2, fun _ a b => if a.ult b then 1 else 0), (.saCmplec, 2, fun _ a b => if a.ule b then 1 else 0),
      (.saMov, 2, fun _ a _ => a)] : List ((SaOps → Instr) × Nat × ((w : Nat) → BitVec w → BitVec w → BitVec w))),
    ∀ (s : State) (o : SaOps), CanIssue s → UnitFree s 0 → Readable s o.t .scalar → OperandOk s o.o .scalar →
      Gives (p.1 o) s (fun t =>
        let w := if o.w then 32 else 64
        let r := p.2.2 w (BitVec.ofNat w (valueOf s o.t .scalar).asScalar) (BitVec.ofNat w (operandOf s 0 o.o .scalar).asScalar)
        Delivers s t 0 o.o .scalar p.2.1 1 (PVal.scal (r.signExtend 64).toNat) none 0 0
          (if o.wc then some (o.k, r.getLsbD 0) else none))
  ) ∧
  (
  ∀ p ∈ ([(.saMulhc, 4, fun w a b => BitVec.ofNat w (a.toNat * b.toNat / 2 ^ w)), (.saShr, 2, fun w a b => a >>> (b.toNat % w)),
      (.saMinc, 2, fun _ a b => if a.ule b then a else b), (.saMaxc, 2, fun _ a b => if a.ule b then b else a)] :
      List ((SaOps → Instr) × Nat × ((w : Nat) → BitVec w → BitVec w → BitVec w))),
    ∀ (s : State) (o : SaOps), CanIssue s → UnitFree s 0 → Readable s o.t .scalar → OperandOk s o.o .scalar →
      Gives (p.1 o) s (fun t =>
        let w := if o.w then 32 else 64
        let r := p.2.2 w (BitVec.ofNat w (valueOf s o.t .scalar).asScalar) (BitVec.ofNat w (operandOf s 0 o.o .scalar).asScalar)
        Delivers s t 0 o.o .scalar p.2.1 1 (PVal.scal r.toNat) none 0 0 (if o.wc then some (o.k, r.getLsbD 0) else none))
  )

/-- R109, R110, Table 6.1: the counts, the bit fields, the extensions and the selection. -/
def Obligations.ScalarBitFields : Prop :=
  ∀ (s : State) (o : SaOps), CanIssue s → UnitFree s 0 → Readable s o.t .scalar → OperandOk s o.o .scalar →
    let w := if o.w then 32 else 64
    let a := BitVec.ofNat w (valueOf s o.t .scalar).asScalar
    let u := (operandOf s 0 o.o .scalar).asScalar
    let pos := u % 64 % w
    let len := min (if u / 256 % 64 = 0 then w else u / 256 % 64) (w - pos)
    let n := if u % 64 = 0 ∨ w ≤ u % 64 then w else u % 64
    let gives := fun (i : SaOps → Instr) (cond : Option (Nat × Bool)) (v : Nat) =>
      Gives (i o) s (fun t => Delivers s t 0 o.o .scalar 2 1 (PVal.scal v) none 0 0 cond)
    let cond := fun (v : Nat) => if o.wc then some (o.k, v % 2 == 1) else none
    (∃ r, gives .saClz (cond r) r ∧ r ≤ w ∧ (∀ i < r, a.getMsbD i = false) ∧ (r < w → a.getMsbD r = true)) ∧
    (∃ r, gives .saCtz (cond r) r ∧ r ≤ w ∧ (∀ i < r, a.getLsbD i = false) ∧ (r < w → a.getLsbD r = true)) ∧
    gives .saPopc (cond ((List.range w).countP a.getLsbD)) ((List.range w).countP a.getLsbD) ∧
    (∃ r : BitVec w, gives .saBext (cond r.toNat) (r.signExtend 64).toNat ∧
      ∀ i, r.getLsbD i = (decide (i < len) && a.getLsbD (pos + i))) ∧
    (∃ r : BitVec w, gives .saBins (cond r.toNat) (r.signExtend 64).toNat ∧ ∀ i < w, r.getLsbD i =
      if pos ≤ i ∧ i < pos + len then (secondOf s 0).asScalar.testBit (i - pos) else a.getLsbD i) ∧
    (∃ r : BitVec w, gives .saSext (cond r.toNat) (r.signExtend 64).toNat ∧ ∀ i < w, r.getLsbD i = a.getLsbD (min i (n - 1))) ∧
    (∃ r : BitVec w, gives .saZext (cond r.toNat) r.toNat ∧ ∀ i < w, r.getLsbD i = (decide (i < n) && a.getLsbD i)) ∧
    (o.wc = false → gives .saSel none
      (((if (me s).k o.k then a else BitVec.ofNat w u).signExtend 64).toNat))

/-- R48, Table 2.9, R109. -/
def Obligations.ScalarDivision : Prop :=
  ∀ p ∈ ([(.saDiv, true, true, fun _ a b => a.sdiv b), (.saDivc, false, true, fun _ a b => a.udiv b),
      (.saRem, true, false, fun _ a b => a.srem b), (.saRemc, false, false, fun _ a b => a.umod b)] :
      List ((SaOps → Instr) × Bool × Bool × ((w : Nat) → BitVec w → BitVec w → BitVec w))),
    ∀ (s : State) (o : SaOps), CanIssue s → UnitFree s 0 → Readable s o.t .scalar → OperandOk s o.o .scalar →
      let w := if o.w then 32 else 64
      let a := BitVec.ofNat w (valueOf s o.t .scalar).asScalar
      let b := BitVec.ofNat w (operandOf s 0 o.o .scalar).asScalar
      let r := if b = 0 then (if p.2.2.1 then BitVec.allOnes w else a) else p.2.2.2 w a b
      let v := if p.2.1 then (r.signExtend 64).toNat else r.toNat
      ((b ≠ 0 ∨ bitAt (me s).fmts.fpctl 5 = false) → Gives (p.1 o) s (fun t =>
        Delivers s t 0 o.o .scalar 36 36 (PVal.scal v) none (if b = 0 then flDZ else 0) 0
          (if o.wc then some (o.k, r.getLsbD 0) else none))) ∧
      ((b = 0 ∧ bitAt (me s).fmts.fpctl 5 = true) →
        exec (p.1 o) s = .next (trapBundle (begun s) s.cur 0x0D 4 (if lenOf s = 25 then 1 else 0)))

/-- R111, R32, R44, R50. -/
def Obligations.ScalarFloat : Prop :=
  ∀ (s : State) (o : SaOps), CanIssue s → UnitFree s 0 → Readable s o.t .scalar → OperandOk s o.o .scalar →
    let a := f32.readFlush ((valueOf s o.t .scalar).asScalar % 2 ^ 32)
    let u := (operandOf s 0 o.o .scalar).asScalar
    let b := f32.readFlush (u % 2 ^ 32)
    let gives := fun (i : SaOps → Instr) (bound ii : Nat) (r : Nat × Nat) =>
      Gives (i o) s (fun t => Delivers s t 0 o.o .scalar bound ii (PVal.scal r.1) none r.2 ((me s).fmts.fpctl % 32)
        (if o.wc then some (o.k, r.1 % 2 == 1) else none))
    gives .saFadd 6 1 (f32.add .rne false a b) ∧ gives .saFmul 6 1 (f32.mul .rne false a b) ∧
    gives .saFdiv 36 36 (f32.div .rne false a b) ∧
    gives .saFcmp 6 1 ((match fcompare a b with | some .lt => 1 | some .eq => 2 | some .gt => 4 | none => 8),
      if a.isSNaN || b.isSNaN then flINV else 0) ∧
    ((u / 16 % 16 ∈ [0xD, 2, 3, 0xE, 0xF, 0, 1] ∧ u % 16 ∈ [0xD, 2, 3, 0xE, 0xF, 0, 1]) →
      let dst := u / 16 % 16
      let src := u % 16
      let rnd := if (me s).fmts.cvtctl / 16 % 8 = 4 then .rne else rndOf ((me s).fmts.cvtctl / 16 % 8)
      let r := convert dst src rnd (bitAt (me s).fmts.cvtctl 7) ((valueOf s o.t .scalar).asScalar % 2 ^ fmtWidth src)
      gives .saFcvt 6 1 (if fmtIsInt dst && fmtSigned dst then sext64 (fmtWidth dst) r.1 else r.1, r.2))

/-- R112, Table 6.2. -/
def Obligations.AddressUnit : Prop :=
  ∀ (s : State) (o : AgOps), CanIssue s → UnitFree s 1 → Readable s o.t .scalar → OperandOk s o.o .scalar →
    let a := (valueOf s o.t .scalar).asScalar
    let b := (operandOf s 1 o.o .scalar).asScalar
    let gives := fun (i : AgOps → Instr) (v : Nat) =>
      Gives (i o) s (fun t => Delivers s t 1 o.o .scalar 2 1 (PVal.scal (v % 2 ^ 64)) none 0 0 none)
    gives .agLea (a + b * 2 ^ o.sub) ∧ gives .agAdds (a + b) ∧
    (o.sub < 6 → gives .agAff (a + (if o.sub < (me s).seq.ldepth then ((me s).loopAt o.sub).index else 0) * b)) ∧
    gives .agSpa (0x4000000 + a % 4 * 0x1000000 + b % 0x1000000) ∧
    gives .agGva ((secondOf s 1).asScalar + a % 4096 * 2 ^ 40 + b % 2 ^ 40) ∧
    (a < b → gives .agBound a) ∧
    (b ≤ a → exec (.agBound o) s = .next (trapBundle (begun s) s.cur 0x10 a (if lenOf s = 25 then 1 else 0)))

/-- R60, R62, R63, Table 3.6: a copy move. -/
def Obligations.CopyMoves : Prop :=
  ∀ (s : State) (dst src : Nat), CanIssue s → Readable s src .any → (begun s).destCands s.cur dst ((begun s).readsPair s.cur src) = [] →
    let v := valueOf s src .any
    Gives (.copyMove dst src) s (fun t =>
      SameOutside s t ∧ SameOthers s t ∧ (t.ctx s.cur).traps = (s.ctx s.cur).traps ∧ (t.ctx s.cur).win = (s.ctx s.cur).win ∧
      (t.ctx s.cur).seq.kcond = (me s).seq.kcond ∧ (t.ctx s.cur).ports.result = (me s).ports.result ∧
      (∀ i, (t.ctx s.cur).s i = if dst = 0x300 + i ∧ i < 64 then v.asScalar else (s.ctx s.cur).s i) ∧
      (∀ i, (t.ctx s.cur).a i = if dst = 0x340 + i ∧ i < 32 then v.asScalar else (s.ctx s.cur).a i) ∧
      (∀ i, (t.ctx s.cur).o i = if dst = 0x360 + i ∧ i < 16 then v.asScalar else (s.ctx s.cur).o i) ∧
      (∀ i, rd (t.ctx s.cur).regs.md i = if dst = 0x500 + i ∧ i < 64 then v.asScalar else rd (s.ctx s.cur).regs.md i) ∧
      (∀ i, rd (t.ctx s.cur).regs.cp i =
        if dst = 0x600 + i ∧ i < 384 then cpWord (i % 24) v.asScalar else rd (s.ctx s.cur).regs.cp i) ∧
      (∀ k p, look 0 (t.core k).tiles p =
        if k = coreOf s.cur ∧ dst < 0x300 ∧ p = (s.ctx s.cur).win.vbase + dst then v.asTile
        else if k = coreOf s.cur ∧ dst < 0x300 ∧ v.kind = .pair ∧ p = (s.ctx s.cur).win.vbase + dst + 1 then v.hi
        else look 0 (s.core k).tiles p) ∧
      (∀ fu p, p < 2 → dst = 0x400 + 4 * fu + p → fu < 8 →
        look PVal.zero (t.ctx s.cur).ports.latch (latchKey (me s).level fu p) = portHolds fu v))

/-- R60: an immediate move. -/
def Obligations.ImmediateMoves : Prop :=
  ∀ (s : State) (dst imm : Nat), CanIssue s → imm < 2 ^ 32 → (begun s).destCands s.cur dst false = [] →
    let sx := if imm < 2 ^ 31 then imm else imm + (2 ^ 64 - 2 ^ 32)
    Gives (.immediateMove dst imm) s (fun t =>
      SameOutside s t ∧ SameOthers s t ∧ (t.ctx s.cur).traps = (s.ctx s.cur).traps ∧ (t.ctx s.cur).win = (s.ctx s.cur).win ∧
      (t.ctx s.cur).seq.kcond = (me s).seq.kcond ∧ (t.ctx s.cur).ports.result = (me s).ports.result ∧
      (∀ i, (t.ctx s.cur).s i = if dst = 0x300 + i ∧ i < 64 then sx else (s.ctx s.cur).s i) ∧
      (∀ i, (t.ctx s.cur).a i = if dst = 0x340 + i ∧ i < 32 then sx else (s.ctx s.cur).a i) ∧
      (∀ i, (t.ctx s.cur).o i = if dst = 0x360 + i ∧ i < 16 then sx else (s.ctx s.cur).o i) ∧
      (∀ i, rd (t.ctx s.cur).regs.md i = if dst = 0x500 + i ∧ i < 64 then imm else rd (s.ctx s.cur).regs.md i) ∧
      (∀ i, rd (t.ctx s.cur).regs.cp i = if dst = 0x600 + i ∧ i < 384 then cpWord (i % 24) imm else rd (s.ctx s.cur).regs.cp i) ∧
      (∀ k p, look 0 (t.core k).tiles p =
        if k = coreOf s.cur ∧ dst < 0x300 ∧ p = (s.ctx s.cur).win.vbase + dst then tileSplat (imm % 65536)
        else look 0 (s.core k).tiles p) ∧
      (∀ fu p, p < 2 → dst = 0x400 + 4 * fu + p → fu < 8 →
        look PVal.zero (t.ctx s.cur).ports.latch (latchKey (me s).level fu p) =
          if fu < 3 then PVal.scal sx else ⟨.tile, tileSplat (imm % 65536), 0⟩))

/-- R206, R209, R210, R321, Table 9.6: scalar loads; the value is read once A is set. That it is read at issue, and lands later, is log
entry 11. Table 9.1, R192, R195, R5: an access to the own scratchpad is allowed and reads its bytes, the lowest address first. -/
def Obligations.Loads : Prop :=
  (
  ∀ p ∈ ([(.ldB, 1, false), (.ldH, 2, false), (.ldW, 4, false), (.ldD, 8, false), (.ldQ, 16, false), (.ldsB, 1, true), (.ldsH, 2, true), (.ldsW, 4, true)] : List ((LsOps → Instr) × Nat × Bool)),
    ∀ (s : State) (o : LsOps),
      let a := ((valueOf s o.t .scalar).asScalar + (operandOf s 2 o.o .scalar).asScalar) % 2 ^ 64
      let ps := accessParts s a p.2.1 .load
      let u := touched s false ps
      let raw := u.readParts ps
      let v := if p.2.1 = 16 then wideVal raw else PVal.scal (if p.2.2 then sext64 (8 * p.2.1) raw else raw)
      CanIssue s → UnitFree s 2 → Readable s o.t .scalar → OperandOk s o.o .scalar → (o.ord = 0 ∨ o.ord = 1) →
      a % p.2.1 = 0 → Allowed ps →
      (partsOwn ps = true → Gives (p.1 o) s (fun t =>
        DeliversFrom (acquired s (o.ord == 1) u) s t 2 o.o .scalar 6 1 v none 0 0 none)) ∧
      (partsOwn ps = false → BufferRoom s → Gives (p.1 o) s (fun t => SendsLanding s t o.lnd (some v) ps none ∧ Latches s t 2 o.o .scalar ∧ SameRegs s t ∧
        SameOutside u t ∧ SameCores (acquired s (o.ord == 1) u) t ∧ SameOthers s t))
  ) ∧
  (
  ∀ (s : State) (a n : Nat) (p : Perm), n ∈ [1, 2, 4, 8, 16] → a % n = 0 → a < 0x1000000 →
    bitAt (s.ctx s.cur).win.ways (a / 2 ^ 20) = true →
    let ps := accessParts s a n p
    Allowed ps ∧ partsOwn ps = true ∧ ps = [⟨a, n, .ok ⟨.sp, coreOf s.cur * 2 ^ 24 + a, true, false, none⟩⟩] ∧
      (∀ w, (touched s w ps).mem = s.mem) ∧ (begun s).readParts ps = memNat s.mem.sp (coreOf s.cur * 2 ^ 24 + a) n
  )

/-- R175, R206, R209, R210, R321: scalar stores; the address stored to is that of checkPiece at T. That a landing store has written its bytes
at issue is log entry 11. -/
def Obligations.Stores : Prop :=
  ∀ p ∈ ([(.stB, 1), (.stH, 2), (.stW, 4), (.stD, 8), (.stQ, 16)] : List ((LsOps → Instr) × Nat)),
    ∀ (s : State) (o : LsOps) (g : Target),
      let a := (valueOf s o.t .scalar).asScalar
      let wo : Want := if p.2 = 16 then .any else .scalar
      let d := if p.2 = 16 then (operandOf s 2 o.o wo).asWide else (operandOf s 2 o.o wo).asScalar
      let ps : List Part := [⟨a, p.2, .ok g⟩]
      let u := released s (o.ord == 2) ps
      CanIssue s → UnitFree s 2 → Readable s o.t .scalar → OperandOk s o.o wo → (o.ord = 0 ∨ o.ord = 2) →
      a % p.2 = 0 → (begun s).checkPiece s.cur a .store = .ok g → s.reachable g = true →
      Gives (p.1 o) s (fun t =>
        memNat (t.mem.store g.space) g.addr p.2 = d % 2 ^ (8 * p.2) ∧
        SameBytesBut u t g.space g.addr p.2 ∧ SameBesideMemory u s t ∧ SameFresh (u.leaveFresh g p.2) t ∧ Latches s t 2 o.o wo ∧
        (g.own = true → (t.ctx s.cur).ports.flights = (me s).ports.flights) ∧ (g.own = false → SendsLanding s t o.lnd none ps none))

/-- R209, R211, R212, R321, Table 9.6: tile transfers, with every row read or written once A and D are set. That they perform at issue is log
entry 11. -/
def Obligations.TileTransfers : Prop :=
  ∀ (s : State) (o : LsOps), CanIssue s → UnitFree s 2 → Readable s o.t .scalar →
    let a := (valueOf s o.t .scalar).asScalar
    let row := fun (st : Starts) (p : Perm) => st.map (fun b => match b with | some b => accessParts s b 128 p | none => [])
    (∀ q ∈ ([(.vld, true, .scalar, 8, 4), (.vldg, false, .scalar, 8, 4), (.vldx, true, .tile, 12, 8)] :
        List ((LsOps → Instr) × Bool × Want × Nat × Nat)),
      OperandOk s o.o q.2.2.1 → (o.ord = 0 ∨ o.ord = 1) →
      let st := if q.2.2.1 = .tile then offsetStarts a (operandOf s 2 o.o .tile).asTile
        else pitchStarts a (operandOf s 2 o.o .scalar).asScalar
      let cs := if q.2.2.1 = .tile then offsetCands a (operandOf s 2 o.o .tile).asTile
        else pitchCands a (operandOf s 2 o.o .scalar).asScalar
      let ps := (row st .load).flatten
      let u := touched s false ps
      let v : PVal := ⟨.tile, BitVec.ofNat 16384 (packRows ((row st .load).map u.readParts)), 0⟩
      cs = [] → rowCands q.2.1 st = [] → Allowed ps →
      (q.2.1 = true → partsOwn ps = true → Gives (q.1 o) s (fun t =>
        DeliversFrom (acquired s (o.ord == 1) u) s t 2 o.o q.2.2.1 q.2.2.2.1 q.2.2.2.2 v none 0 0 none)) ∧
      (q.2.1 = false ∨ partsOwn ps = false → BufferRoom s → Gives (q.1 o) s (fun t => SendsLanding s t o.lnd (some v) ps none ∧
        Latches s t 2 o.o q.2.2.1 ∧ SameRegs s t ∧ SameOutside u t ∧ SameCores (acquired s (o.ord == 1) u) t ∧ SameOthers s t))) ∧
    (∀ q ∈ ([(.vst, true, false), (.vstg, false, false), (.vstx, true, true)] : List ((LsOps → Instr) × Bool × Bool)),
      OperandOk s o.o .tile → (o.ord = 0 ∨ o.ord = 2) →
      let st := if q.2.2 then offsetStarts a (secondOf s 2).asTile else pitchStarts a (secondOf s 2).asScalar
      let cs := if q.2.2 then offsetCands a (secondOf s 2).asTile else pitchCands a (secondOf s 2).asScalar
      let d := (operandOf s 2 o.o .tile).asTile
      let ps := (row st .store).flatten
      let u := released s (o.ord == 2) ps
      cs = [] → rowCands q.2.1 st = [] → Allowed ps →
      let w := (row st .store).zipIdx.foldl (fun u r => u.writeParts r.1 (tileRow d r.2)) u
      Gives (q.1 o) s (fun t => t.mem = w.mem ∧ SameBesideMemory u s t ∧ SameFresh w t ∧ Latches s t 2 o.o .tile ∧
        (q.2.1 = true ∧ partsOwn ps = true → (t.ctx s.cur).ports.flights = (me s).ports.flights) ∧
        (q.2.1 = false ∨ partsOwn ps = false → SendsLanding s t o.lnd none ps none)))

/-- R32, R33, R206, R213, R214, R272, R321, Table 9.9: atomics; the old value is read once A and D are set and the pending `xcpy` writes that
come before the update are visible, brought and operated on. That they perform at issue is log entry 11. -/
def Obligations.Atomics : Prop :=
  let f32add := fun (w : Nat) (a b : Nat) => addLanes f32 32 (w / 32) a b
  let table : List ((LsOps → Instr) × Nat × Bool × ((w : Nat) → BitVec w → BitVec w → BitVec w → Option (BitVec w))) :=
    [(.amoAddW, 4, true, fun _ a b _ => some (a + b)), (.amoAddD, 8, true, fun _ a b _ => some (a + b)),
      (.amoMinW, 4, false, fun _ a b _ => some (if a.sle b then a else b)), (.amoMinD, 8, false, fun _ a b _ => some (if a.sle b then a else b)),
      (.amoMaxW, 4, false, fun _ a b _ => some (if a.sle b then b else a)), (.amoMaxD, 8, false, fun _ a b _ => some (if a.sle b then b else a)),
      (.amoMincW, 4, false, fun _ a b _ => some (if a.ule b then a else b)), (.amoMincD, 8, false, fun _ a b _ => some (if a.ule b then a else b)),
      (.amoMaxcW, 4, false, fun _ a b _ => some (if a.ule b then b else a)), (.amoMaxcD, 8, false, fun _ a b _ => some (if a.ule b then b else a)),
      (.amoAndW, 4, false, fun _ a b _ => some (a &&& b)), (.amoAndD, 8, false, fun _ a b _ => some (a &&& b)),
      (.amoOrW, 4, false, fun _ a b _ => some (a ||| b)), (.amoOrD, 8, false, fun _ a b _ => some (a ||| b)),
      (.amoXorW, 4, false, fun _ a b _ => some (a ^^^ b)), (.amoXorD, 8, false, fun _ a b _ => some (a ^^^ b)),
      (.amoXchgW, 4, true, fun _ _ b _ => some b), (.amoXchgD, 8, true, fun _ _ b _ => some b),
      (.amoCasW, 4, true, fun _ a b c => if a = c then some b else none), (.amoCasD, 8, true, fun _ a b c => if a = c then some b else none),
      (.amoCasQ, 16, true, fun _ a b c => if a = c then some b else none),
      (.amoFaddW, 4, false, fun w a b _ => some (BitVec.ofNat w (f32add w a.toNat b.toNat))),
      (.amoFaddD, 8, false, fun w a b _ => some (BitVec.ofNat w (f32add w a.toNat b.toNat))),
      (.amoIncwW, 4, false, fun _ a b _ => some (if b.ule a then 0 else a + 1)), (.amoIncwD, 8, false, fun _ a b _ => some (if b.ule a then 0 else a + 1))]
  LaneSums f32 32 ∧
  ∀ p ∈ table, ∀ (s : State) (o : LsOps) (g : Target),
    let n := p.2.1
    let a := (valueOf s o.t .scalar).asScalar
    let wo : Want := if n = 16 then .any else .scalar
    let b := if n = 16 then (operandOf s 2 o.o wo).asWide else (operandOf s 2 o.o wo).asScalar
    let c := if n = 16 then (secondOf s 2).asWide else (secondOf s 2).asScalar
    let ps : List Part := [⟨a, n, .ok g⟩]
    let u := released s (decide (2 ≤ o.ord)) ps
    let seen := u.passLoose g.space g.addr n
    let old := seen.readParts ps
    CanIssue s → UnitFree s 2 → Readable s o.t .scalar → OperandOk s o.o wo → a % n = 0 → BufferRoom s →
    (begun s).checkPiece s.cur a .atomic = .ok g → s.reachable g = true →
    (p.2.2.1 = true ∨ g.space ≠ .host ∨ g.remote = false → Gives (p.1 o) s (fun t =>
      SendsLanding s t o.lnd (some (if n = 16 then wideVal old else PVal.scal old)) ps
        (if g.space = .host ∧ g.remote = true then some g.addr else none) ∧
      Latches s t 2 o.o wo ∧ SameBesideMemory u s t ∧ SameBytesBut u t g.space g.addr n ∧
      (match p.2.2.2 (8 * n) (BitVec.ofNat _ old) (BitVec.ofNat _ b) (BitVec.ofNat _ c) with
        | some v => memNat (t.mem.store g.space) g.addr n = v.toNat ∧ SameFresh (acquired s (o.ord % 2 == 1) (u.leaveFresh g n)) t
        | none => memNat (t.mem.store g.space) g.addr n = memNat (seen.mem.store g.space) g.addr n ∧
          SameFresh (acquired s (o.ord % 2 == 1) u) t))) ∧
    (p.2.2.1 = false ∧ g.space = .host ∧ g.remote = true →
      exec (p.1 o) s = .next (trapBundle (begun s) s.cur 0x0B a (if lenOf s = 25 then 1 else 0)))

/-- R32, R33, R207, R215, R272, R321, Table 9.9: reductions. That they perform at issue is log entry 11. -/
def Obligations.Reductions : Prop :=
  let table : List ((LsOps → Instr) × Bool × ((w : Nat) → BitVec w → BitVec w → BitVec w)) :=
    [(.redAdd, true, fun _ a b => a + b), (.redMin, false, fun _ a b => if a.sle b then a else b),
      (.redMax, false, fun _ a b => if a.sle b then b else a), (.redAnd, false, fun _ a b => a &&& b), (.redOr, false, fun _ a b => a ||| b),
      (.redXor, false, fun _ a b => a ^^^ b), (.redFadd, false, fun w a b => BitVec.ofNat w (addLanes f32 32 (w / 32) a.toNat b.toNat)),
      (.redFaddh, false, fun w a b => BitVec.ofNat w (addLanes f16 16 (w / 16) a.toNat b.toNat))]
  LaneSums f32 32 ∧ LaneSums f16 16 ∧
  ∀ p ∈ table, ∀ (s : State) (o : LsOps) (g : Target),
    let n := if o.ord % 2 = 1 then 8 else 4
    let a := (valueOf s o.t .scalar).asScalar
    let b := (operandOf s 2 o.o .scalar).asScalar
    let ps : List Part := [⟨a, n, .ok g⟩]
    let u := released s (decide (2 ≤ o.ord)) ps
    CanIssue s → UnitFree s 2 → Readable s o.t .scalar → OperandOk s o.o .scalar → a % n = 0 →
    (begun s).checkPiece s.cur a .store = .ok g → s.reachable g = true →
    (p.2.1 = true ∨ g.space ≠ .host ∨ g.remote = false → Gives (p.1 o) s (fun t =>
      SendsLanding s t o.lnd none ps (if g.space = .host ∧ g.remote = true then some g.addr else none) ∧
      Latches s t 2 o.o .scalar ∧ SameBesideMemory u s t ∧ SameFresh (u.leaveFresh g n) t ∧ SameBytesBut u t g.space g.addr n ∧
      memNat (t.mem.store g.space) g.addr n =
        (p.2.2 (8 * n) (BitVec.ofNat _ ((u.passLoose g.space g.addr n).readParts ps)) (BitVec.ofNat _ b)).toNat)) ∧
    (p.2.1 = false ∧ g.space = .host ∧ g.remote = true →
      exec (p.1 o) s = .next (trapBundle (begun s) s.cur 0x0B a (if lenOf s = 25 then 1 else 0)))

/-- R133, R138, R139, R140, Tables 7.2 and 7.3: integer and fixed-point arithmetic. -/
def Obligations.VectorIntegers : Prop :=
  let I := [0x0, 0x1, 0x4, 0x5, 0xB, 0xE, 0xF]
  let M := [0x0, 0x1, 0x4, 0x5, 0xE, 0xF]
  let W := [0x0, 0x1, 0xE, 0xF]
  ∀ p ∈ ([(.vaAdd, I, false, true, true, 6, fun _ _ a b _ => a + b), (.vaSub, I, false, true, true, 6, fun _ _ a b _ => a - b),
      (.vaMul, M, false, true, true, 6, fun _ _ a b _ => a * b),
      (.vaMulh, M, false, true, true, 6, fun n _ a b _ => a * b / 2 ^ n.1),
      (.vaMulhr, M, true, true, true, 6, fun n r a b _ => roundShift r (a * b) (if n.2 then n.1 - 1 else n.1)),
      (.vaMad, M, false, false, true, 8, fun _ _ a b c => a * b + c),
      (.vaAbs, [0x0, 0x4, 0xB, 0xE], false, true, false, 6, fun _ _ a _ _ => a.natAbs),
      (.vaNeg, [0x0, 0x4, 0xB, 0xE], false, true, false, 6, fun _ _ a _ _ => -a),
      (.vaMin, I, false, true, true, 6, fun _ _ a b _ => min a b), (.vaMax, I, false, true, true, 6, fun _ _ a b _ => max a b),
      (.vaAvg, I, true, true, true, 6, fun _ r a b _ => roundShift r (a + b) 1),
      (.vaAbsd, I, false, true, true, 6, fun _ _ a b _ => (a - b).natAbs),
      (.vaShl, W, false, true, true, 6, fun n _ a b _ => a * 2 ^ (b % (n.1 : Int)).toNat),
      (.vaShlr, W, true, true, true, 6, fun n r a b _ => roundShift r a (b % (n.1 : Int)).toNat)] :
      List ((VaOps → Instr) × List Nat × Bool × Bool × Bool × Nat × (Nat × Bool → Rnd → Int → Int → Int → Int))),
    ∀ (s : State) (o : VaOps),
      let w : Want := if fmtPair o.fmt then .pair else .tile
      let wo : Want := if p.2.2.2.2.1 then w else .any
      let wide := fmtPair o.fmt
      let a := valueOf s o.t w
      let b := operandOf s (3 + o.u) o.o wo
      let c := secondOf s (3 + o.u)
      CanIssue s → UnitFree s (3 + o.u) → Readable s o.t w → OperandOk s o.o wo → o.fmt ∈ p.2.1 →
      (o.rnd = 0 ∨ (p.2.2.1 = true ∧ o.rnd ≤ 3)) → (o.mask = true → p.2.2.2.1 = true) →
      Gives (p.1 o) s (fun t => ∃ lo hi,
        Delivers s t (3 + o.u) o.o wo (if wide then p.2.2.2.2.2.1 + 4 else p.2.2.2.2.2.1) (if wide then 8 else 4)
          (if wide then ⟨.pair, lo, hi⟩ else ⟨.tile, lo, 0⟩) (if o.mask then some c.asTile else none) 0 ((me s).fmts.fpctl % 32) none ∧
        ∀ v < 1024 * (if wide then 1 else perElem o.fmt), valAt o.fmt lo hi v =
          fitInt o.fmt o.sat (p.2.2.2.2.2.2 (fmtWidth o.fmt, fmtSigned o.fmt) (rndOf o.rnd)
            (fmtInt o.fmt (valAt o.fmt a.asTile a.asHigh v)) (fmtInt o.fmt (valAt o.fmt b.asTile b.asHigh v))
            (fmtInt o.fmt (valAt o.fmt c.asTile c.asHigh v))))

/-- R138, R140, R141, R143, R144, Tables 7.2 and 7.3. R138, R142, R144, Table 7.2: bitwise operations and selection. -/
def Obligations.VectorBitwise : Prop :=
  (
  (∀ p ∈ ([(.vaShr, true, fun n a b => a >>> (b.toNat % n)), (.vaSra, true, fun n a b => a.sshiftRight (b.toNat % n)),
      (.vaPopc, false, fun n a _ => BitVec.ofNat n ((List.range n).countP a.getLsbD)), (.vaClz, false, fun _ a _ => a.clz)] :
      List ((VaOps → Instr) × Bool × ((n : Nat) → BitVec n → BitVec n → BitVec n))),
    ∀ (s : State) (o : VaOps),
      let w : Want := if fmtPair o.fmt then .pair else .tile
      let wo : Want := if p.2.1 then w else .any
      let wide := fmtPair o.fmt
      let a := valueOf s o.t w
      let b := operandOf s (3 + o.u) o.o wo
      CanIssue s → UnitFree s (3 + o.u) → Readable s o.t w → OperandOk s o.o wo → o.fmt ∈ [0x0, 0x1, 0xE, 0xF] →
      o.rnd = 0 → o.sat = false →
      Gives (p.1 o) s (fun t => ∃ lo hi,
        Delivers s t (3 + o.u) o.o wo (if wide then 10 else 6) (if wide then 8 else 4)
          (if wide then ⟨.pair, lo, hi⟩ else ⟨.tile, lo, 0⟩) (if o.mask then some (secondOf s (3 + o.u)).asTile else none) 0
          ((me s).fmts.fpctl % 32) none ∧
        ∀ v < 1024, valAt o.fmt lo hi v = (p.2.2 (fmtWidth o.fmt) (BitVec.ofNat _ (valAt o.fmt a.asTile a.asHigh v))
          (BitVec.ofNat _ (valAt o.fmt b.asTile b.asHigh v))).toNat)) ∧
  (∀ p ∈ ([(.vaCmpeq, true, fun a b _ => if a = b then -1 else 0), (.vaCmpne, true, fun a b _ => if a = b then 0 else -1),
      (.vaCmplt, true, fun a b _ => if a < b then -1 else 0), (.vaCmple, true, fun a b _ => if a ≤ b then -1 else 0),
      (.vaClamp, false, fun a b c => min (max a b) c)] :
      List ((VaOps → Instr) × Bool × (Int → Int → Int → Int))),
    ∀ (s : State) (o : VaOps),
      let w : Want := if fmtPair o.fmt then .pair else .tile
      let wide := fmtPair o.fmt
      let a := valueOf s o.t w
      let b := operandOf s (3 + o.u) o.o w
      let c := secondOf s (3 + o.u)
      CanIssue s → UnitFree s (3 + o.u) → Readable s o.t w → OperandOk s o.o w → o.fmt ∈ [0x0, 0x1, 0x4, 0x5, 0xB, 0xE, 0xF] →
      o.rnd = 0 → o.sat = false → (o.mask = true → p.2.1 = true) →
      Gives (p.1 o) s (fun t => ∃ lo hi,
        Delivers s t (3 + o.u) o.o w (if wide then 10 else 6) (if wide then 8 else 4)
          (if wide then ⟨.pair, lo, hi⟩ else ⟨.tile, lo, 0⟩) (if o.mask then some c.asTile else none) 0 ((me s).fmts.fpctl % 32) none ∧
        ∀ v < 1024 * (if wide then 1 else perElem o.fmt), valAt o.fmt lo hi v = wrapInt (fmtWidth o.fmt)
          (p.2.2 (fmtInt o.fmt (valAt o.fmt a.asTile a.asHigh v)) (fmtInt o.fmt (valAt o.fmt b.asTile b.asHigh v))
            (fmtInt o.fmt (valAt o.fmt c.asTile c.asHigh v))))) ∧
  (∀ (s : State) (o : VaOps) (m : VaImmOps),
    let left := fun (a b : BitVec 16) (n : Nat) => (((a ++ b) <<< n).extractLsb' 16 16).toNat
    let right := fun (a b : BitVec 16) (n : Nat) => (((b ++ a) >>> n).setWidth 16).toNat
    let el := fun (v : PVal) (e : Nat) => BitVec.ofNat 16 (elemAt v.asTile e)
    (∀ p ∈ ([(.vaFshl, left), (.vaFshr, right)] : List ((VaOps → Instr) × (BitVec 16 → BitVec 16 → Nat → Nat))),
      CanIssue s → UnitFree s (3 + o.u) → Readable s o.t .tile → OperandOk s o.o .tile → o.fmt ∈ [0x0, 0x1] →
      o.rnd = 0 → o.sat = false → o.mask = false →
      Gives (p.1 o) s (fun t => ∃ lo, Delivers s t (3 + o.u) o.o .tile 6 4 ⟨.tile, lo, 0⟩ none 0 ((me s).fmts.fpctl % 32) none ∧
        ∀ e < 1024, elemAt lo e = p.2 (el (valueOf s o.t .tile) e) (el (operandOf s (3 + o.u) o.o .tile) e)
          (elemAt (secondOf s (3 + o.u)).asTile e % 16))) ∧
    (∀ p ∈ ([(.vaFshlImm, fun a b i => left a b (i % 16)), (.vaFshrImm, fun a b i => right a b (i % 16)),
        (.vaMulsh, fun a b i =>
          let prod := if i.testBit 5 then (a.toNat * b.toNat : Int) else a.toInt * b.toInt
          let sh := i % 32
          let x := if sh = 0 then prod else (prod + 2 ^ (sh - 1)) / 2 ^ sh
          let lo : Int := if i.testBit 5 then 0 else -32768
          let hi : Int := if i.testBit 5 then 65535 else 32767
          ((if i.testBit 6 then max lo (min hi x) else x) % 65536).toNat)] :
        List ((VaImmOps → Instr) × (BitVec 16 → BitVec 16 → Nat → Nat))),
      CanIssue s → UnitFree s (3 + m.u) → Readable s m.t .tile → OperandOk s m.o .tile →
      Gives (p.1 m) s (fun t => ∃ lo, Delivers s t (3 + m.u) m.o .tile 6 4 ⟨.tile, lo, 0⟩ none 0 ((me s).fmts.fpctl % 32) none ∧
        ∀ e < 1024, elemAt lo e = p.2 (el (valueOf s m.t .tile) e) (el (operandOf s (3 + m.u) m.o .tile) e) m.imm)))
  ) ∧
  (
  (∀ p ∈ ([(.vaAnd, true, fun a b => a &&& b), (.vaOr, true, fun a b => a ||| b), (.vaXor, true, fun a b => a ^^^ b),
      (.vaNot, false, fun a _ => ~~~a), (.vaMov, false, fun a _ => a)] : List ((VaOps → Instr) × Bool × (Tile → Tile → Tile))),
    ∀ (s : State) (o : VaOps),
      let w : Want := if fmtPair o.fmt then .pair else .tile
      let wo : Want := if p.2.1 then w else .any
      let wide := fmtPair o.fmt
      let a := valueOf s o.t w
      let b := operandOf s (3 + o.u) o.o wo
      CanIssue s → UnitFree s (3 + o.u) → Readable s o.t w → OperandOk s o.o wo → o.fmt < 16 → o.rnd = 0 → o.sat = false →
      Gives (p.1 o) s (fun t => Delivers s t (3 + o.u) o.o wo (if wide then 10 else 6) (if wide then 8 else 4)
        (if wide then ⟨.pair, p.2.2 a.asTile b.asTile, p.2.2 a.asHigh b.asHigh⟩ else ⟨.tile, p.2.2 a.asTile b.asTile, 0⟩)
        (if o.mask then some (secondOf s (3 + o.u)).asTile else none) 0 ((me s).fmts.fpctl % 32) none)) ∧
  (∀ (s : State) (o : VaOps),
    let w : Want := if fmtPair o.fmt then .pair else .tile
    let wide := fmtPair o.fmt
    let a := valueOf s o.t w
    let b := operandOf s (3 + o.u) o.o w
    let pick := fun (e x y : Nat) => if elemAt (secondOf s (3 + o.u)).asTile e % 2 = 1 then x else y
    CanIssue s → UnitFree s (3 + o.u) → Readable s o.t w → OperandOk s o.o w → o.fmt < 16 → o.rnd = 0 → o.sat = false →
    o.mask = false →
    Gives (.vaSel o) s (fun t => ∃ lo hi, Delivers s t (3 + o.u) o.o w (if wide then 10 else 6) (if wide then 8 else 4)
        (if wide then ⟨.pair, lo, hi⟩ else ⟨.tile, lo, 0⟩) none 0 ((me s).fmts.fpctl % 32) none ∧
      ∀ e < 1024, elemAt lo e = pick e (elemAt a.asTile e) (elemAt b.asTile e) ∧
        (wide = true → elemAt hi e = pick e (elemAt a.asHigh e) (elemAt b.asHigh e)))) ∧
  (∀ (s : State) (m : VaImmOps),
    let bit := fun (v : PVal) (i : Nat) => (v.asTile.getLsbD i).toNat
    CanIssue s → UnitFree s (3 + m.u) → Readable s m.t .tile → OperandOk s m.o .tile →
    Gives (.vaLut3 m) s (fun t => ∃ lo, Delivers s t (3 + m.u) m.o .tile 6 4 ⟨.tile, lo, 0⟩ none 0 ((me s).fmts.fpctl % 32) none ∧
      ∀ i < 16384, lo.getLsbD i =
        m.imm.testBit (4 * bit (valueOf s m.t .tile) i + 2 * bit (operandOf s (3 + m.u) m.o .tile) i + bit (secondOf s (3 + m.u)) i)))
  )

/-- R32, R33, R44, R50, R138, R139, R144, R145. -/
def Obligations.VectorFloats : Prop :=
  ∀ p ∈ ([(.vaFadd, true, true, true, 6, fun g r sat a b _ => g.add r sat a b), (.vaFsub, true, true, true, 6, fun g r sat a b _ => g.add r sat a b.flip),
      (.vaFmul, true, true, true, 6, fun g r sat a b _ => g.mul r sat a b), (.vaFma, true, true, false, 8, fun g r sat a b c => g.fma r sat a b c),
      (.vaFmin, false, false, true, 6, fun g _ _ a b _ => g.minmax false a b), (.vaFmax, false, false, true, 6, fun g _ _ a b _ => g.minmax true a b),
      (.vaCmpeq, false, false, true, 6, fun g _ _ a b _ => (if fcompare a b = some .eq then 2 ^ (g.magBits + 1) - 1 else 0, if a.isSNaN || b.isSNaN then flINV else 0)),
      (.vaCmpne, false, false, true, 6, fun g _ _ a b _ => (if fcompare a b = some .eq then 0 else 2 ^ (g.magBits + 1) - 1, if a.isSNaN || b.isSNaN then flINV else 0)),
      (.vaCmplt, false, false, true, 6, fun g _ _ a b _ => (if fcompare a b = some .lt then 2 ^ (g.magBits + 1) - 1 else 0, if a.isSNaN || b.isSNaN then flINV else 0)),
      (.vaCmple, false, false, true, 6, fun g _ _ a b _ => (if fcompare a b = some .lt ∨ fcompare a b = some .eq then 2 ^ (g.magBits + 1) - 1 else 0, if a.isSNaN || b.isSNaN then flINV else 0)),
      (.vaClamp, false, false, false, 6, fun g _ _ a b c => ((g.minmax false (g.readFlush (g.minmax true a b).1) c).1, (g.minmax true a b).2 ||| (g.minmax false (g.readFlush (g.minmax true a b).1) c).2))] :
      List ((VaOps → Instr) × Bool × Bool × Bool × Nat × (FFmt → Rnd → Bool → FVal → FVal → FVal → Nat × Nat))),
    ∀ (s : State) (o : VaOps) (g : FFmt),
      let w : Want := if fmtPair o.fmt then .pair else .tile
      let wide := fmtPair o.fmt
      let rd' := fun (v : PVal) (i : Nat) => g.readFlush (valAt o.fmt v.asTile v.asHigh i)
      let r := fun (i : Nat) => p.2.2.2.2.2 g (rndOf o.rnd) o.sat (rd' (valueOf s o.t w) i) (rd' (operandOf s (3 + o.u) o.o w) i)
        (rd' (secondOf s (3 + o.u)) i)
      CanIssue s → UnitFree s (3 + o.u) → Readable s o.t w → OperandOk s o.o w → ffmt o.fmt = some g → o.fmt ∈ [0xD, 0x2, 0x3] →
      (o.rnd = 0 ∨ (p.2.1 = true ∧ o.rnd ≤ 3)) → (o.sat = true → p.2.2.1 = true) → (o.mask = true → p.2.2.2.1 = true) →
      Gives (p.1 o) s (fun t => ∃ lo hi flags,
        Delivers s t (3 + o.u) o.o w (if wide then p.2.2.2.2.1 + 4 else p.2.2.2.2.1) (if wide then 8 else 4)
          (if wide then ⟨.pair, lo, hi⟩ else ⟨.tile, lo, 0⟩) (if o.mask then some (secondOf s (3 + o.u)).asTile else none) flags
          ((me s).fmts.fpctl % 32) none ∧
        (∀ v < 1024, valAt o.fmt lo hi v = (r v).1 % 2 ^ fmtWidth o.fmt) ∧
        ∀ i, flags.testBit i = true ↔ ∃ v < 1024, (r v).2.testBit i = true ∧
          (o.mask = true → elemAt (secondOf s (3 + o.u)).asTile v % 2 = 1))

/-- R30, R32 to R35, R37, R38, R41, R43 to R47, R111, R144, R145, Tables 2.7 and 2.8: the results of the float arithmetic, of conversion and of
block quantization are the exact values rounded once; comparison, and the smaller and the larger of two values. That the elements of a
block with an infinity or a NaN are code 0 for ts8 too, and that a ts8 zero reads as +0, is log entry 69. -/
def Obligations.FloatRounding : Prop :=
  (∀ k f, ffmt k = some f → ∀ (mode : Rnd) (sat : Bool),
    (∀ neg (m : Mag), 0 < m.num → 0 < m.den → RoundsOnce f mode sat neg (valRat (.fin false m)) (f.round mode sat neg m)) ∧
    (∀ a b : FVal, IsFinite a → IsFinite b →
      let sum := valRat a + valRat b
      let prod := valRat a * valRat b
      let sign := a.neg != b.neg
      (sum ≠ 0 → RoundsOnce f mode sat (decide (sum < 0)) |sum| (f.add mode sat a b)) ∧
      (sum = 0 → f.add mode sat a b = (f.signed (if a.neg = b.neg then a.neg else decide (mode = .rdn)) 0, 0)) ∧
      (prod ≠ 0 → RoundsOnce f mode sat sign |prod| (f.mul mode sat a b)) ∧ (prod = 0 → f.mul mode sat a b = (f.signed sign 0, 0)) ∧
      (valRat a ≠ 0 → valRat b ≠ 0 → RoundsOnce f mode sat sign |valRat a / valRat b| (f.div mode sat a b)) ∧
      (valRat a = 0 → valRat b ≠ 0 → f.div mode sat a b = (f.signed sign 0, 0)) ∧
      (f.top = .ieee → valRat a ≠ 0 → valRat b = 0 → f.div mode sat a b = (f.signed sign f.infCode, flDZ)) ∧
      (∀ c : FVal, IsFinite c → let x := prod + valRat c
        (x ≠ 0 → RoundsOnce f mode sat (decide (x < 0)) |x| (f.fma mode sat a b c)) ∧
        (x = 0 → f.fma mode sat a b c = (f.signed (if sign = c.neg then sign else decide (mode = .rdn)) 0, 0)))) ∧
    (∀ a b : FVal, (a.isNaN = true ∨ b.isNaN = true) →
      let r := (f.nanCode, if a.isSNaN || b.isSNaN then flINV else 0)
      f.add mode sat a b = r ∧ f.mul mode sat a b = r ∧ f.div mode sat a b = r) ∧
    (∀ n c : Bool, f.add mode sat (.inf n) (.inf (!n)) = (f.nanCode, flINV) ∧ f.mul mode sat (.inf n) (.zero c) = (f.nanCode, flINV) ∧
      f.div mode sat (.inf n) (.inf c) = (f.nanCode, flINV) ∧ f.div mode sat (.zero n) (.zero c) = (f.nanCode, flINV))) ∧
  (∀ (dst src : Nat) (mode : Rnd) (sat : Bool) (c : Nat),
    (∀ f, ffmt src = some f → let x := f.readFlush c
      (∀ g n m, ffmt dst = some g → x = .fin n m → RoundsOnce g mode sat n |valRat x| (convert dst src mode sat c)) ∧
      (∀ n m, fmtIsInt dst = true → x = .fin n m → RoundsToInt dst mode n |valRat x| (convert dst src mode sat c)) ∧
      (∀ n, x = .zero n → (fmtIsInt dst = true → convert dst src mode sat c = (0, 0)) ∧
        (∀ g, ffmt dst = some g → convert dst src mode sat c = (g.signed n 0, 0))) ∧
      (∀ n, x = .inf n →
        (fmtIsInt dst = true → convert dst src mode sat c = (wrapInt (fmtWidth dst) (if n then fmtMin dst else fmtMax dst), flINV)) ∧
        (∀ g, ffmt dst = some g → convert dst src mode sat c = (match g.top with
          | .ieee => (g.signed n g.infCode, 0)
          | .nanOnly => (g.signed n (if sat then g.maxFin else g.nanCode), flINV)
          | .finite => (g.signed n g.maxFin, flINV)))) ∧
      (∀ n s, x = .nan n s → (fmtIsInt dst = true → convert dst src mode sat c = (0, flINV)) ∧
        (∀ g, ffmt dst = some g → convert dst src mode sat c =
          if g.top = .finite then (g.signed n g.maxFin, flINV) else (g.signed n g.nanCode, if s then flINV else 0))) ∧
      (∀ d, let q := convertScaled dst src mode sat (divisorOf d) c
        (divisorOf d = none → (fmtIsInt dst = true → q = (0, 0)) ∧
          (∀ g, ffmt dst = some g → q = (g.signed x.neg (if g.top = .finite then g.maxFin else g.nanCode), 0))) ∧
        (∀ m, divisorOf d = some m → let v := valRat x / valRat (.fin false m)
          ((∀ n y, x ≠ .fin n y) → q = convert dst src mode sat c) ∧
          (∀ n y, x = .fin n y → (∀ g, ffmt dst = some g → RoundsOnce g mode sat n |v| q) ∧
            (fmtIsInt dst = true → RoundsToInt dst mode n |v| q))))) ∧
    (fmtIsInt src = true → let x := fmtInt src c
      (∀ g, ffmt dst = some g → (x ≠ 0 → RoundsOnce g mode sat (decide (x < 0)) |(x : ℚ)| (convert dst src mode sat c)) ∧
        (x = 0 → convert dst src mode sat c = (0, 0))) ∧
      (fmtIsInt dst = true → (convert dst src mode sat c).2 = 0 ∧ (convert dst src mode sat c).1 = wrapInt (fmtWidth dst)
        (if sat = true ∧ x < fmtMin dst then fmtMin dst else if sat = true ∧ fmtMax dst < x then fmtMax dst else x)))) ∧
  (∀ d, let c := d % 2 ^ 32
    (0x00800000 ≤ c ∧ c < 0x7F800000 → ∃ m, divisorOf d = some m ∧ valRat (.fin false m) = valRat (f32.read c)) ∧
    (¬ (0x00800000 ≤ c ∧ c < 0x7F800000) → divisorOf d = none)) ∧
  (∀ a b : FVal, (a.isNaN = true ∨ b.isNaN = true → fcompare a b = none) ∧
    (IsFinite a → IsFinite b → (fcompare a b = some .lt ↔ valRat a < valRat b) ∧ (fcompare a b = some .eq ↔ valRat a = valRat b) ∧
      (fcompare a b = some .gt ↔ valRat b < valRat a)) ∧
    (∀ n, a = .inf n → (∀ m, b = .inf m → fcompare a b = some (if n = m then .eq else if n then .lt else .gt)) ∧
      (b.special = false → fcompare a b = some (if n then .lt else .gt) ∧ fcompare b a = some (if n then .gt else .lt)))) ∧
  (∀ k f, ffmt k = some f → f.top = .ieee → ∀ (larger : Bool) (c d : Nat),
    let a := f.readFlush c
    let b := f.readFlush d
    let r := f.minmax larger a b
    let first := (flushedCode f c, 0)
    let second := (flushedCode f d, 0)
    (a.isSNaN = true ∨ b.isSNaN = true → r = (f.nanCode, flINV)) ∧
    (a.isSNaN = false → b.isSNaN = false → (a.isNaN = true → b.isNaN = true → r = (f.nanCode, 0)) ∧
      (a.isNaN = true → b.isNaN = false → r = second) ∧ (a.isNaN = false → b.isNaN = true → r = first)) ∧
    (fcompare a b = some .lt → r = if larger then second else first) ∧ (fcompare a b = some .gt → r = if larger then first else second) ∧
    (fcompare a b = some .eq → r = if a.neg = larger then second else first)) ∧
  (∀ c < 256, elementRat 0xC c = (if c.testBit 7 then -1 else 1) / 2 ^ fld c 4 3 + (if c.testBit 3 then -1 else 1) / 2 ^ fld c 0 3 ∧
    elementRat 0x4 c = (BitVec.ofNat 8 c).toInt / 64) ∧
  (∀ (dst fmt : Nat) (g : FFmt) (emax : Int) (mode : Rnd) (sat : Bool) (s c : Nat), ffmt dst = some g → g.top = .ieee → blkEmax fmt = some emax →
    let e := blkRead fmt c
    let x := elementRat fmt c * 2 ^ ((s : Int) - 255)
    (s = 511 → dequant dst fmt mode sat s c = (g.nanCode, flINV)) ∧
    (s < 511 → e.special = false → (x ≠ 0 → RoundsOnce g mode sat (decide (x < 0)) |x| (dequant dst fmt mode sat s c)) ∧
      (x = 0 → dequant dst fmt mode sat s c = (g.signed e.neg 0, 0))) ∧
    (s < 511 → ∀ n, e = .inf n → dequant dst fmt mode sat s c = (g.signed n g.infCode, 0)) ∧
    (s < 511 → ∀ n i, e = .nan n i → dequant dst fmt mode sat s c = (g.signed n g.nanCode, if i then flINV else 0))) ∧
  (∀ v : FVal, IsFinite v → |valRat v| ≤ 2 →
    let c := (ts8Encode v).1
    let off := fun (k : Nat) => |elementRat 0xC k - valRat v|
    (v = .zero false ∨ v = .zero true → ts8Encode v = (0x08, 0)) ∧ (ts8Encode v).2 = (if elementRat 0xC c = valRat v then 0 else flINX) ∧
    ∀ k < 256, off c < off k ∨ (off c = off k ∧ (|elementRat 0xC c| < |elementRat 0xC k| ∨
      (|elementRat 0xC c| = |elementRat 0xC k| ∧ (fld c 4 3 < fld k 4 3 ∨ (fld c 4 3 = fld k 4 3 ∧
        (fld c 0 3 < fld k 0 3 ∨ (fld c 0 3 = fld k 0 3 ∧ fld c 7 1 ≤ fld k 7 1)))))))) ∧
  (∀ (fmt : Nat) (emax : Int) (g : FFmt) (cs : List Nat) (modes : List Rnd), blkEmax fmt = some emax → (∃ k, ffmt k = some g) →
    modes.length = cs.length → (∀ d, Rnd.sr d ∈ modes → d < 65536) →
    let vs := cs.map g.readFlush
    let q := quantBlock fmt vs modes
    ((∃ v ∈ vs, v.special = true) → q = (511, cs.map (fun _ => 0), flINV)) ∧
    ((∀ v ∈ vs, v = .zero v.neg) → q = (0, cs.map (fun _ => if fmt = 0xC then 0x08 else 0), 0)) ∧
    (∀ (top : ℚ) (e : Int), (∀ v ∈ vs, v.special = false ∧ |valRat v| ≤ top) → (∃ v ∈ vs, |valRat v| = top) → 2 ^ e ≤ top → top < 2 ^ (e + 1) →
      (q.1 : Int) = max 0 (min 510 (e - emax + 255)) ∧ q.2.1.length = cs.length ∧
      ∀ i v mode, vs[i]? = some v → modes[i]? = some mode →
        let x := |valRat v| / 2 ^ ((q.1 : Int) - 255)
        let el := q.2.1.getD i 0
        (∀ f, ffmt fmt = some f → (v ≠ .zero v.neg → ∃ fl, RoundsOnce f mode true v.neg x (el, fl)) ∧ (v = .zero v.neg → el = f.signed v.neg 0)) ∧
        (fmt = 0x4 → ∃ fl, RoundsToInt 0x4 mode v.neg (64 * x) (el, fl)) ∧
        (fmt = 0xC → x ≤ 2 → ∀ k < 256, |elementRat 0xC el - (if v.neg then -x else x)| ≤ |elementRat 0xC k - (if v.neg then -x else x)|)))

/-- R146, R147, Tables 7.2 and 7.4. R32, R33, R145, R148, R149, Table 7.2; that a signalling NaN anywhere gives the default NaN of an extreme is the model's reading (log
entry 16). -/
def Obligations.Permutes : Prop :=
  (
  let at' := fun (v : Tile) (q : Option (Bool × Nat × Nat)) (x : Tile) =>
      match q with | some (false, i, j) => elemAt v (64 * i + j) | some (true, i, j) => elemAt x (64 * i + j) | none => 0
  let n := fun (c : Tile) => elemAt c 0
  let z := fun (c : Tile) => (BitVec.ofNat 16 (elemAt c 0)).toInt
  (∀ p ∈ ([(.vpRotr, true, 6, 4, 0, fun c _ i j => some (false, i, (j + 64 - n c % 64) % 64)),
      (.vpRotc, true, 10, 4, 0, fun c _ i j => some (false, (i + 16 - n c % 16) % 16, j)),
      (.vpBcrow, true, 6, 4, 0, fun c _ _ j => some (false, n c % 16, j)), (.vpBccol, true, 10, 4, 0, fun c _ i _ => some (false, i, n c % 64)),
      (.vpTrn, false, 12, 8, 0, fun _ _ i j => some (false, j % 16, 16 * (j / 16) + i)),
      (.vpPerm, true, 6, 4, 0, fun c _ i j => some (false, i, elemAt c (64 * i + j) % 64)),
      (.vpShiftr, true, 6, 4, 0, fun c _ i j => if 0 ≤ (j : Int) - z c ∧ (j : Int) - z c < 64 then some (false, i, ((j : Int) - z c).toNat) else none),
      (.vpShiftc, true, 10, 4, 0, fun c _ i j => if 0 ≤ (i : Int) - z c ∧ (i : Int) - z c < 16 then some (false, ((i : Int) - z c).toNat, j) else none),
      (.vpZip, true, 6, 4, 1, fun _ h i j => some (decide (j % 2 = 1), i, 32 * h + j / 2)),
      (.vpUnzip, true, 6, 4, 1, fun _ h i j => some (decide (32 ≤ j), i, 2 * (j % 32) + h))] :
      List ((VpOps → Instr) × Bool × Nat × Nat × Nat × (Tile → Nat → Nat → Nat → Option (Bool × Nat × Nat)))),
    ∀ (s : State) (o : VpOps),
      let w : Want := if fmtPair o.fmt then .pair else .tile
      let wo : Want := if p.2.1 then w else .any
      let wide := fmtPair o.fmt
      let a := valueOf s o.t w
      let b := operandOf s 5 o.o wo
      let g := fun (e : Nat) => p.2.2.2.2.2 b.asTile o.rnd (e / 64) (e % 64)
      CanIssue s → UnitFree s 5 → Readable s o.t w → OperandOk s o.o wo → o.fmt < 16 → o.rnd ≤ p.2.2.2.2.1 → o.sat = false →
      Gives (p.1 o) s (fun t => ∃ lo hi,
        Delivers s t 5 o.o wo (if wide then p.2.2.1 + p.2.2.2.1 else p.2.2.1) (if wide then 2 * p.2.2.2.1 else p.2.2.2.1)
          (if wide then ⟨.pair, lo, hi⟩ else ⟨.tile, lo, 0⟩) (if o.mask then some (secondOf s 5).asTile else none) 0 ((me s).fmts.fpctl % 32) none ∧
        ∀ e < 1024, elemAt lo e = at' a.asTile (g e) b.asTile ∧ (wide = true → elemAt hi e = at' a.asHigh (g e) b.asHigh))) ∧
  (∀ (s : State) (o : VpImmOps),
    let x := fun (e : Nat) => elemAt (secondOf s 5).asTile e
    let a := (valueOf s o.t .tile).asTile
    let b := (operandOf s 5 o.o .tile).asTile
    CanIssue s → UnitFree s 5 → Readable s o.t .tile → OperandOk s o.o .tile →
    Gives (.vpPermImm o) s (fun t => ∃ lo, Delivers s t 5 o.o .tile 6 4 ⟨.tile, lo, 0⟩ none 0 ((me s).fmts.fpctl % 32) none ∧
      ∀ e < 1024, elemAt lo e =
        if o.imm = 0 then elemAt (if (x e).testBit 6 then b else a) (64 * (e / 64) + x e % 64)
        else elemAt (if (x e).testBit 4 then b else a) (64 * (x e % 16) + e % 64)))
  ) ∧
  (
  ∀ (s : State) (o : VpOps) (row : Bool),
    let w : Want := if fmtPair o.fmt then .pair else .tile
    let wide := fmtPair o.fmt
    let a := valueOf s o.t w
    let len := if row then 64 else 16
    let depth := if row then 6 else 4
    let x := fun (l k : Nat) => valAt o.fmt a.asTile a.asHigh (if row then 64 * l + k else 64 * k + l)
    let line := fun (e : Nat) => if row then e / 64 else e % 64
    let pos := fun (e : Nat) => if row then e % 64 else e / 64
    let gives := fun (i : VpOps → Instr) (b ii : Nat) (raised : Nat → Nat) (q : Nat → Nat → Prop) =>
      Gives (i o) s (fun t => ∃ lo hi flags,
        Delivers s t 5 o.o .any (if wide then b + ii else b) (if wide then 2 * ii else ii)
          (if wide then ⟨.pair, lo, hi⟩ else ⟨.tile, lo, 0⟩) (if o.mask then some (secondOf s 5).asTile else none) flags
          ((me s).fmts.fpctl % 32) none ∧ (∀ e < 1024, q e (valAt o.fmt lo hi e)) ∧
        ∀ i, flags.testBit i = true ↔ ∃ e < 1024, (raised e).testBit i = true ∧ (o.mask = true → elemAt (secondOf s 5).asTile e % 2 = 1))
    let redAdd := if row then Instr.vpRedrAdd else Instr.vpRedcAdd
    let redMax := if row then Instr.vpRedrMax else Instr.vpRedcMax
    let redMin := if row then Instr.vpRedrMin else Instr.vpRedcMin
    let scanAdd := if row then Instr.vpScanrAdd else Instr.vpScancAdd
    CanIssue s → UnitFree s 5 → Readable s o.t w → OperandOk s o.o .any →
    (o.fmt ∈ [0x0, 0x1, 0xE, 0xF] → o.rnd = 0 →
      let xi := fun (l k : Nat) => fmtInt o.fmt (x l k)
      gives redAdd (if row then 8 else 14) (if row then 4 else 8) (fun _ => 0)
        (fun e v => v = fitInt o.fmt o.sat ((List.range len).map (xi (line e))).sum) ∧
      gives scanAdd (if row then 10 else 18) (if row then 4 else 8) (fun _ => 0)
        (fun e v => v = fitInt o.fmt o.sat ((List.range (pos e + 1)).map (xi (line e))).sum) ∧
      (o.sat = false →
        gives redMax (if row then 8 else 14) (if row then 4 else 8) (fun _ => 0)
          (fun e v => (∃ k < len, v = x (line e) k) ∧ ∀ k < len, xi (line e) k ≤ fmtInt o.fmt v) ∧
        gives redMin (if row then 8 else 14) (if row then 4 else 8) (fun _ => 0)
          (fun e v => (∃ k < len, v = x (line e) k) ∧ ∀ k < len, fmtInt o.fmt v ≤ xi (line e) k))) ∧
    (∀ g, o.fmt ∈ [0xD, 0x2, 0x3] → ffmt o.fmt = some g → o.rnd ≤ 3 →
      let plus := fun (a b : Nat) => g.add (rndOf o.rnd) o.sat (g.read a) (g.read b)
      let val := fun (l k : Nat) => g.readFlush (x l k)
      let xf := fun (l k : Nat) => flushedCode g (x l k)
      let inv := fun (b : Bool) => if b then flINV else 0
      let signalling := fun (e : Nat) => (List.range len).any (fun k => (val (line e) k).isSNaN)
      let extreme := fun (worse : Ordering) (signs : Bool → Bool → Prop) (e v : Nat) =>
        (signalling e = true → v = g.nanCode) ∧ ((∀ k < len, (val (line e) k).isNaN = true) → v = g.nanCode) ∧
        (signalling e = false → (∃ k < len, (val (line e) k).isNaN = false) → ∃ k < len, (val (line e) k).isNaN = false ∧ v = xf (line e) k ∧
          ∀ j < len, (val (line e) j).isNaN = false → fcompare (val (line e) k) (val (line e) j) ≠ some worse ∧
            (fcompare (val (line e) k) (val (line e) j) = some .eq → signs (val (line e) k).neg (val (line e) j).neg))
      gives redAdd (if row then 8 else 14) (if row then 4 else 8) (fun e => (treeOf plus (xf (line e)) depth 0).2)
        (fun e v => v = (treeOf plus (xf (line e)) depth 0).1 % 2 ^ fmtWidth o.fmt) ∧
      gives scanAdd (if row then 10 else 18) (if row then 4 else 8)
        (fun e => if pos e = 0 then inv (val (line e) 0).isSNaN else (scanOf plus (xf (line e)) depth (pos e)).2)
        (fun e v => v = if pos e = 0 then (if (val (line e) 0).isNaN then g.nanCode else xf (line e) 0)
          else (scanOf plus (xf (line e)) depth (pos e)).1 % 2 ^ fmtWidth o.fmt) ∧
      (o.sat = false → o.rnd = 0 →
        gives redMax (if row then 8 else 14) (if row then 4 else 8) (fun e => inv (signalling e))
          (extreme .lt (fun a b => b = false → a = false)) ∧
        gives redMin (if row then 8 else 14) (if row then 4 else 8) (fun e => inv (signalling e))
          (extreme .gt (fun a b => b = true → a = true))))
  )

/-- R32, R33, R44, R139, R150, R151, Tables 7.6 and 7.7: each result is a fixed function of the operand, the format and the mode; the special
operands, the exact points, and the functions whose results rational numbers bound. -/
def Obligations.SpecialFunctions : Prop :=
  let one := fun (g : FFmt) => g.bias * 2 ^ g.mbits
  let nan := fun (g : FFmt) (i : Bool) => some (g.nanCode, if i then flINV else 0)
  let bad := fun (g : FFmt) => some (g.nanCode, flINV)
  let code := fun (g : FFmt) (n : Bool) (c : Nat) => some (g.signed n c, 0)
  let pole := fun (g : FFmt) (n : Bool) => some (g.signed n g.infCode, flDZ)
  let results := fun (i : VpOps → Instr) (r : Nat → Nat → Bool → Nat → Nat × Nat) => ∀ (s : State) (o : VpOps),
    let w : Want := if fmtPair o.fmt then .pair else .tile
    let wide := fmtPair o.fmt
    let y := fun (v : Nat) => r o.fmt o.rnd o.sat (valAt o.fmt (valueOf s o.t w).asTile (valueOf s o.t w).asHigh v)
    CanIssue s → UnitFree s 6 → Readable s o.t w → OperandOk s o.o .any → o.fmt ∈ [0xD, 0x2, 0x3] → o.rnd ≤ 3 →
    Gives (i o) s (fun t => ∃ lo hi flags,
      Delivers s t 6 o.o .any (if wide then 36 else 20) (if wide then 32 else 16)
        (if wide then ⟨.pair, lo, hi⟩ else ⟨.tile, lo, 0⟩) (if o.mask then some (secondOf s 6).asTile else none) flags
        ((me s).fmts.fpctl % 32) none ∧
      (∀ v < 1024, valAt o.fmt lo hi v = (y v).1 % 2 ^ fmtWidth o.fmt) ∧
      ∀ b, flags.testBit b = true ↔ ∃ v < 1024, (y v).2.testBit b = true ∧ (o.mask = true → elemAt (secondOf s 6).asTile v % 2 = 1))
  let meets := fun (i : VpOps → Instr) (special : FFmt → FVal → Option (Nat × Nat)) (q : Nat → FFmt → Rnd → Bool → FVal → ℚ → Nat × Nat → Prop) =>
    ∃ r : Nat → Nat → Bool → Nat → Nat × Nat, results i r ∧
      ∀ fmt g rnd sat c, fmt ∈ [0xD, 0x2, 0x3] → ffmt fmt = some g → rnd ≤ 3 →
        (∀ e, special g (g.readFlush c) = some e → r fmt rnd sat c = e) ∧
        ∀ n m, g.readFlush c = .fin n m → q fmt g (rndOf rnd) sat (g.readFlush c) (valRat (g.readFlush c)) (r fmt rnd sat c)
  let inUlp := fun (g : FFmt) (v : ℚ) (c : Nat) => ∀ e : Int, 2 ^ e ≤ v → v < 2 ^ (e + 1) →
    |codeRat g c - v| ≤ 2 ^ (max e (1 - (g.bias : Int)) - g.mbits)
  meets .vfExp2 (fun g v => match v with
      | .zero _ => code g false (one g) | .inf true => code g false 0 | .inf false => code g false g.infCode | .nan _ i => nan g i | _ => none)
    (fun _ g _ _ _ x r => ∀ z : Int, x = z → 1 - (g.bias : Int) ≤ z → z ≤ g.bias → r = ((z + g.bias).toNat * 2 ^ g.mbits, 0)) ∧
  meets .vfLog2 (fun g v => match v with
      | .zero _ => pole g true | .inf true => bad g | .inf false => code g false g.infCode | .nan _ i => nan g i | .fin true _ => bad g | _ => none)
    (fun _ g _ _ _ x r => ∀ z : Int, x = 2 ^ z → valRat (g.read r.1) = z ∧ r.2 = 0 ∧ (z = 0 → r.1 = 0)) ∧
  meets .vfRcp (fun g v => match v with
      | .zero n => pole g n | .inf n => code g n 0 | .nan _ i => nan g i | _ => none)
    (fun fmt g mode sat v x r => (fmt ≠ 0xD → RoundsOnce g mode sat v.neg |1 / x| r) ∧
    (fmt = 0xD → ∃ c ≤ g.maxFin, r.1 = g.signed v.neg c ∧ inUlp g |1 / x| c ∧
      (codeRat g c = |1 / x| → r.2 = 0) ∧ (codeRat g c ≠ |1 / x| → IsTiny g mode v.neg |1 / x| → r.2 = flINX + flUNF) ∧
      (codeRat g c ≠ |1 / x| → ¬ IsTiny g mode v.neg |1 / x| → r.2 = flINX))) ∧
  meets .vfRsqrt (fun g v => match v with
      | .zero n => pole g n | .inf true => bad g | .inf false => code g false 0 | .nan _ i => nan g i | .fin true _ => bad g | _ => none)
    (fun fmt g mode _ v x r => v.neg = false → (fmt ≠ 0xD → RootOnce g mode (1 / x) r) ∧
    (fmt = 0xD → ∀ e : Int, 4 ^ e ≤ 1 / x → 1 / x < 4 ^ (e + 1) → let u : ℚ := 2 ^ (e - g.mbits)
      r.1 ≤ g.maxFin ∧ (codeRat g r.1 - u) ^ 2 ≤ 1 / x ∧ 1 / x ≤ (codeRat g r.1 + u) ^ 2 ∧ r.2 = if codeRat g r.1 ^ 2 = 1 / x then 0 else flINX)) ∧
  meets .vfSqrt (fun g v => match v with
      | .zero n => code g n 0 | .inf true => bad g | .inf false => code g false g.infCode | .nan _ i => nan g i | .fin true _ => bad g | _ => none)
    (fun _ g mode _ v x r => v.neg = false → RootOnce g mode x r) ∧
  meets .vfSinpi (fun g v => match v with
      | .zero n => code g n 0 | .inf _ => bad g | .nan _ i => nan g i | _ => none)
    (fun _ g _ _ v x r => ∀ z : Int, (x = z → r = (g.signed v.neg 0, 0)) ∧
    (x = z + 1 / 2 → r = (g.signed (decide (z % 2 = 1)) (one g), 0))) ∧
  meets .vfCospi (fun g v => match v with
      | .zero _ => code g false (one g) | .inf _ => bad g | .nan _ i => nan g i | _ => none)
    (fun _ g _ _ _ x r => ∀ z : Int, (x = z → r = (g.signed (decide (z % 2 = 1)) (one g), 0)) ∧ (x = z + 1 / 2 → r = (0, 0))) ∧
  meets .vfTanh (fun g v => match v with
      | .zero n => code g n 0 | .inf n => code g n (one g) | .nan _ i => nan g i | _ => none)
    (fun _ _ _ _ _ _ _ => True) ∧ meets .vfSigm (fun g v => match v with
      | .zero _ => code g false (one g - 2 ^ g.mbits) | .inf true => code g false 0 | .inf false => code g false (one g) | .nan _ i => nan g i | _ => none)
    (fun _ _ _ _ _ _ _ => True) ∧
  (∀ (s : State) (o : VpOps) (g : FFmt),
    let w : Want := if fmtPair o.fmt then .pair else .tile
    let wide := fmtPair o.fmt
    let x := fun (v : Nat) => g.readFlush (valAt o.fmt (valueOf s o.t w).asTile (valueOf s o.t w).asHigh v)
    let y := fun (v : Nat) => g.readFlush (valAt o.fmt (operandOf s 6 o.o w).asTile (operandOf s 6 o.o w).asHigh v)
    let r := fun (v : Nat) => g.div (rndOf o.rnd) o.sat (x v) (y v)
    CanIssue s → UnitFree s 6 → Readable s o.t w → OperandOk s o.o w → ffmt o.fmt = some g → o.fmt ∈ [0xD, 0x2, 0x3] → o.rnd ≤ 3 →
    Gives (.vfFdiv o) s (fun t => ∃ lo hi flags,
      Delivers s t 6 o.o w (if wide then 36 else 20) (if wide then 32 else 16)
        (if wide then ⟨.pair, lo, hi⟩ else ⟨.tile, lo, 0⟩) (if o.mask then some (secondOf s 6).asTile else none) flags
        ((me s).fmts.fpctl % 32) none ∧
      (∀ v < 1024, valAt o.fmt lo hi v = (r v).1 % 2 ^ fmtWidth o.fmt) ∧
      ∀ b, flags.testBit b = true ↔ ∃ v < 1024, (r v).2.testBit b = true ∧ (o.mask = true → elemAt (secondOf s 6).asTile v % 2 = 1)))

/-- R150, Table 7.6: the bounds on exp2, log2, sinpi, cospi, tanh and sigm. A bound holds here to 2^-100 of a unit in the last place: the model
encloses the real value in a number of finitely many bits (log entry 6). In f16 and bf16 the result is the nearest code in RNE and a
neighbour of the value in the other modes, which is what a correct rounding leaves of the bound. -/
def Obligations.SpecialBounds : Prop :=
  ∀ p ∈ ([(.vfExp2, 1, fun _ => true, fun x => (2 : ℝ) ^ x), (.vfLog2, 1, fun v => !v.neg, fun x => Real.log x / Real.log 2),
      (.vfSinpi, 2, fun _ => true, fun x => Real.sin (Real.pi * x)), (.vfCospi, 2, fun _ => true, fun x => Real.cos (Real.pi * x)),
      (.vfTanh, 2, fun _ => true, fun x => Real.tanh x), (.vfSigm, 2, fun _ => true, fun x => 1 / (1 + Real.exp (-x)))] :
      List ((VpOps → Instr) × Nat × (FVal → Bool) × (ℝ → ℝ))),
    ∀ (s : State) (o : VpOps) (g : FFmt),
      let w : Want := if fmtPair o.fmt then .pair else .tile
      let wide := fmtPair o.fmt
      let x := fun (v : Nat) => g.readFlush (valAt o.fmt (valueOf s o.t w).asTile (valueOf s o.t w).asHigh v)
      let y := fun (v : Nat) => p.2.2.2 (valRat (x v) : ℝ)
      CanIssue s → UnitFree s 6 → Readable s o.t w → OperandOk s o.o .any → ffmt o.fmt = some g → o.fmt ∈ [0xD, 0x2, 0x3] → o.rnd ≤ 3 →
      Gives (p.1 o) s (fun t => ∃ lo hi flags,
        Delivers s t 6 o.o .any (if wide then 36 else 20) (if wide then 32 else 16)
          (if wide then ⟨.pair, lo, hi⟩ else ⟨.tile, lo, 0⟩) (if o.mask then some (secondOf s 6).asTile else none) flags
          ((me s).fmts.fpctl % 32) none ∧
        ∀ v < 1024, ∀ n m, x v = .fin n m → p.2.2.1 (x v) = true → y v ≠ 0 → |y v| ≤ (codeRat g g.maxFin : ℝ) →
          ∃ c ≤ g.infCode, (valAt o.fmt lo hi v = g.signed false c ∧ 0 < y v ∨ valAt o.fmt lo hi v = g.signed true c ∧ y v < 0) ∧
            NearReal g (if o.fmt = 0xD then p.2.1 else if o.rnd = 0 then 1 / 2 else 1) |y v| c)

/-- R40 to R47, R152 to R156, Table 7.8. R38, R39, R152, R155, R157, Table 2.6. -/
def Obligations.Conversions : Prop :=
  (
  let sets : List Nat := [0xD, 0x2, 0x3]
  let blk : List Nat := [0x6, 0x7, 0x8, 0x9, 0xA, 0x4, 0xC]
  ∀ p ∈ ([(.vcCvt, fun o => o.hi ≠ 0xC ∧ o.lo ≠ 0xC, true, .any, 8, 4, fun s o _ r c => convert o.hi o.lo r (bitAt (me s).fmts.cvtctl 7) c, fun _ _ => 0),
      (.vcCvts, fun o => o.hi ≠ 0xC ∧ o.lo ∈ sets ∧ o.o ≠ 0xFFF, true, .pair, 12, 8,
        fun s o _ r c => convertScaled o.hi o.lo r (bitAt (me s).fmts.cvtctl 7)
          (divisorOf (pairAt (operandOf s 7 o.o .pair).asTile (operandOf s 7 o.o .pair).asHigh 0)) c,
        fun s o => if divisorOf (pairAt (operandOf s 7 o.o .pair).asTile (operandOf s 7 o.o .pair).asHigh 0) = none then flINV else 0),
      (.vcDqblk, fun o => o.hi ∈ sets ∧ o.lo ∈ blk, true, .tile, 14, 8, fun s o e r c => dequant o.hi o.lo r (bitAt (me s).fmts.cvtctl 7)
          (elemAt (operandOf s 7 o.o .tile).asTile (64 * e.1 + e.2 / 32)) c, fun _ _ => 0),
      (.vcQts8, fun o => o.hi = 0xC ∧ o.lo ∈ sets, false, .any, 8, 4, fun _ o _ _ c => ts8Encode (((ffmt o.lo).getD f16).readFlush c), fun _ _ => 0),
      (.vcDqts8, fun o => o.hi ∈ sets ∧ o.lo = 0xC, false, .any, 8, 4, fun s o _ r c => convFVal o.hi r (bitAt (me s).fmts.cvtctl 7) (ts8Read c), fun _ _ => 0)] :
      List ((VcOps → Instr) × (VcOps → Prop) × Bool × Want × Nat × Nat × (State → VcOps → Nat × Nat → Rnd → Nat → Nat × Nat) × (State → VcOps → Nat))),
    ∀ (s : State) (o : VcOps),
      let wide := fmtPair o.hi || fmtPair o.lo
      let wt : Want := if fmtPair o.lo then .pair else .tile
      let a := valueOf s o.t wt
      let vd := rowVals o.hi
      let vs := rowVals o.lo
      let n := min vd vs
      let part := elemAt (secondOf s 7).asTile 0 % 4 % (max vd vs / n)
      let sr := (me s).fmts.cvtctl / 2 ^ 32
      let field := (me s).fmts.cvtctl / 16 % 8
      let mode := fun (k : Nat) => if field = 4 then (if p.2.2.1 then Rnd.sr (srAfter (k + 1) sr / 65536) else .rne) else rndOf field
      let from' := fun (_ j : Nat) => if vd < vs then part * n + j else j
      let to' := fun (i j : Nat) => i * vd + (if vs < vd then part * n + j else j)
      let r := fun (i j : Nat) => p.2.2.2.2.2.2.1 s o (i, from' i j) (mode (i * n + j)) (valAt o.lo a.asTile a.asHigh (i * vs + from' i j))
      CanIssue s → UnitFree s 7 → Readable s o.t wt → OperandOk s o.o p.2.2.2.1 → o.hi < 16 → o.lo < 16 → p.2.1 o → sr < 2 ^ 32 →
      Gives (p.1 o) s (fun t => ∃ lo hi flags,
        DeliversFmts s t 7 o.o p.2.2.2.1 (if wide then p.2.2.2.2.1 + p.2.2.2.2.2.1 else p.2.2.2.2.1)
          (if wide then 2 * p.2.2.2.2.2.1 else p.2.2.2.2.2.1) (if fmtPair o.hi then ⟨.pair, lo, hi⟩ else ⟨.tile, lo, 0⟩) flags
          ((me s).fmts.fpctl % 32)
          { (me s).fmts with cvtctl := (me s).fmts.cvtctl % 2 ^ 32 + 2 ^ 32 * (if field = 4 ∧ p.2.2.1 = true then srAfter (16 * n) sr else sr) } ∧
        (∀ i < 16, ∀ j < n, valAt o.hi lo hi (to' i j) = (r i j).1 % 2 ^ fmtWidth o.hi) ∧
        (∀ v < 16 * vd, (∀ i < 16, ∀ j < n, v ≠ to' i j) → valAt o.hi lo hi v = 0) ∧
        ∀ b, flags.testBit b = true ↔ (p.2.2.2.2.2.2.2 s o).testBit b = true ∨ ∃ i < 16, ∃ j < n, (r i j).2.testBit b = true)
  ) ∧
  (
  (∀ (s : State) (o : VcOps), CanIssue s → UnitFree s 7 → Readable s o.t .tile → OperandOk s o.o .any → o.hi = 0 →
      let a := (valueOf s o.t .tile).asTile
      let gives := fun (i : VcOps → Instr) (q : Tile → Prop) => Gives (i o) s (fun t => ∃ lo,
        Delivers s t 7 o.o .any 8 4 ⟨.tile, lo, 0⟩ none 0 0 none ∧ q lo)
      (∀ p ∈ ([(.vcUnpk10, 10), (.vcUnpk12, 12), (.vcUnpk14, 14)] : List ((VcOps → Instr) × Nat)), o.lo = 0 →
        gives p.1 (fun lo => ∀ i < 16, ∀ j < 64, elemAt lo (64 * i + j) = a.toNat / 2 ^ (1024 * i + p.2 * j) % 2 ^ p.2)) ∧
      (∀ p ∈ ([(.vcPk10, 10), (.vcPk12, 12), (.vcPk14, 14)] : List ((VcOps → Instr) × Nat)), (o.lo = 0 ∨ o.lo = 8) →
        gives p.1 (fun lo => (∀ i < 16, ∀ j < 64, lo.toNat / 2 ^ (1024 * i + p.2 * j) % 2 ^ p.2 =
          if o.lo = 8 then min (elemAt a (64 * i + j)) (2 ^ p.2 - 1) else elemAt a (64 * i + j) % 2 ^ p.2) ∧
          ∀ i < 16, lo.toNat / 2 ^ (1024 * i + 64 * p.2) % 2 ^ (1024 - 64 * p.2) = 0)) ∧
      (o.lo = 0 → gives .vcSwap16 (fun lo => ∀ e < 1024, elemAt lo e = elemAt a e % 256 * 256 + elemAt a e / 256))) ∧
  (∀ (s : State) (o : VcOps) (g : FFmt),
    let wt : Want := if fmtPair o.lo then .pair else .tile
    let a := valueOf s o.t wt
    let vd := rowVals o.hi
    let part := elemAt (secondOf s 7).asTile 0 % 4 % (vd / 64)
    let field := (me s).fmts.cvtctl / 16 % 8
    let sr := (me s).fmts.cvtctl / 2 ^ 32
    let mode := fun (k : Nat) => if field = 4 then (if o.hi ≠ 0xC then Rnd.sr (srAfter (k + 1) sr / 65536) else .rne) else rndOf field
    let block := fun (b : Nat) => quantBlock o.hi ((List.range 32).map (fun k => g.readFlush (valAt o.lo a.asTile a.asHigh (32 * b + k))))
      ((List.range 32).map (fun k => mode (32 * b + k)))
    CanIssue s → UnitFree s 7 → Readable s o.t wt → OperandOk s o.o .any → o.hi ∈ [0x6, 0x7, 0x8, 0x9, 0xA, 0x4, 0xC] → o.lo ∈ [0xD, 0x2, 0x3] →
    ffmt o.lo = some g → sr < 2 ^ 32 →
    Gives (.vcQblk o) s (fun t => ∃ lo hi flags,
      DeliversFmts s t 7 o.o .any (if fmtPair o.lo then 22 else 14) (if fmtPair o.lo then 16 else 8) ⟨.pair, lo, hi⟩ flags
        ((me s).fmts.fpctl % 32)
        { (me s).fmts with cvtctl := (me s).fmts.cvtctl % 2 ^ 32 + 2 ^ 32 * (if field = 4 ∧ o.hi ≠ 0xC then srAfter 1024 sr else sr) } ∧
      (∀ k < 1024, valAt o.hi lo 0 (k / 64 * vd + part * 64 + k % 64) = (block (k / 32)).2.1.getD (k % 32) 0 % 2 ^ fmtWidth o.hi) ∧
      (∀ e < 1024, elemAt hi e = if e % 64 / 2 = part then (block (2 * (e / 64) + e % 2)).1 % 65536 else 0) ∧
      ∀ b, flags.testBit b = true ↔ ∃ k < 32, (block k).2.2.testBit b = true))
  )

/-- R114, Table 6.4, R66, R113. -/
def Obligations.Branches : Prop :=
  ∀ (s : State) (off k src : Nat) (sense link : Bool), CanIssue s →
    let goes := fun (i : Instr) (pc : Nat) (l : Bool) => Gives i s (fun t =>
      OnlyContext s t ∧ Goes s t pc 3 ∧ SameLoops s t ∧ SamePorts s t ∧ (t.ctx s.cur).traps = (s.ctx s.cur).traps ∧
        (t.ctx s.cur).win = (s.ctx s.cur).win ∧ (t.ctx s.cur).seq.kcond = (me s).seq.kcond ∧
        (t.ctx s.cur).fmts = (me s).fmts.tickShadow ∧
        (t.ctx s.cur).regs = { (s.ctx s.cur).regs with s := if l then wr (s.ctx s.cur).regs.s 62 (nextPc s) else (s.ctx s.cur).regs.s })
    let target := (((me s).seq.pc : Int) + (BitVec.ofNat 24 off).toInt) % 2 ^ 32
    goes (.br off) target.toNat false ∧ goes (.call off) target.toNat true ∧ goes .ret ((s.ctx s.cur).s 62 % 2 ^ 32) false ∧
    ((me s).k k = sense → goes (.brk off k sense) target.toNat false) ∧
    (ControlReadable s src → goes (.jmp src link) (controlValue s src % 2 ^ 32) link) ∧
    (isControlSource src = false → TrapsAtIssue (.jmp src link) s 0x03 (3 * 4096 + src)) ∧
    ((me s).k k ≠ sense → ¬ AtLoopEnd s → Gives (.brk off k sense) s (fun t =>
      OnlyContext s t ∧ FallsThrough s t ∧ SamePorts s t ∧ SameRegs s t))

/-- R115, R123. R115, R123. R116, R123, R296. -/
def Obligations.Loops : Prop :=
  (
  ∀ (s : State) (cnt off : Nat) (imm : Bool), CanIssue s → (imm = true ∨ ControlReadable s cnt) →
    let n := if imm then cnt else controlValue s cnt % 2 ^ 32
    let exit := (me s).seq.pc + off
    (lenOf s < off → n = 0 → Gives (.loop cnt off imm) s (fun t =>
      OnlyContext s t ∧ Goes s t exit 3 ∧ SameLoops s t ∧ SamePorts s t ∧ SameRegs s t)) ∧
    (lenOf s < off → n ≠ 0 → (me s).seq.ldepth < 6 → Gives (.loop cnt off imm) s (fun t =>
      OnlyContext s t ∧ Goes s t (nextPc s) 1 ∧ SamePorts s t ∧ SameRegs s t ∧
        (t.ctx s.cur).seq.loops = ⟨n, 0, nextPc s, exit⟩ :: (me s).seq.loops.take 5 ∧ (t.ctx s.cur).seq.ldepth = (me s).seq.ldepth + 1)) ∧
    (off ≤ lenOf s → TrapsAtIssue (.loop cnt off imm) s 0x04 3) ∧
    (lenOf s < off → n ≠ 0 → 6 ≤ (me s).seq.ldepth → TrapsAtIssue (.loop cnt off imm) s 0x13 (me s).seq.ldepth)
  ) ∧
  (
  ∀ (s : State), CanIssue s → AtLoopEnd s →
    let l := (me s).loopAt 0
    Gives .ctNop s (fun t => OnlyContext s t ∧ SamePorts s t ∧ SameRegs s t ∧
      (if l.index + 1 < l.count then
        Goes s t l.start 1 ∧ (t.ctx s.cur).seq.loops = { l with index := l.index + 1 } :: (me s).seq.loops.drop 1 ∧
          (t.ctx s.cur).seq.ldepth = (me s).seq.ldepth
      else
        Goes s t l.exit 1 ∧ (t.ctx s.cur).seq.loops = (me s).seq.loops.drop 1 ++ [⟨0, 0, 0, 0⟩] ∧
          (t.ctx s.cur).seq.ldepth = (me s).seq.ldepth - 1))
  ) ∧
  (
  ∀ (s : State) (n k : Nat) (c sense : Bool), CanIssue s → 1 ≤ n → n ≤ 6 →
    let takes := c = false ∨ (me s).k k = sense
    ((me s).loopBase + n ≤ (me s).seq.ldepth → takes → (me s).seq.loops.length = 6 → Gives (.lbrk n c sense k) s (fun t =>
      OnlyContext s t ∧ Goes s t ((me s).loopAt (n - 1)).exit 3 ∧ SamePorts s t ∧ SameRegs s t ∧
        (t.ctx s.cur).seq.loops = (me s).seq.loops.drop n ++ List.replicate n ⟨0, 0, 0, 0⟩ ∧
        (t.ctx s.cur).seq.ldepth = (me s).seq.ldepth - n)) ∧
    ((me s).loopBase + n ≤ (me s).seq.ldepth → ¬ takes → ¬ AtLoopEnd s → Gives (.lbrk n c sense k) s (fun t =>
      OnlyContext s t ∧ FallsThrough s t ∧ SamePorts s t ∧ SameRegs s t)) ∧
    ((me s).seq.ldepth < (me s).loopBase + n → TrapsAtIssue (.lbrk n c sense k) s 0x13 (me s).seq.ldepth)
  )

/-- R113, R117 to R120, R127, R132, R199: waits, and the two refusals of a write of `split`; that the ways of another context's `split` still to
convert count as its own is the model's choice (log entry 31). -/
def Obligations.WaitsBegin : Prop :=
  ∀ (s : State) (src a sreg scope mask : Nat) (soft : Bool), CanIssue s → ¬ AtLoopEnd s →
    let begins := fun (i : Instr) (w : Wait) => Gives i s (fun t => BeginsWait s t w ∧ OnlyContext s t)
    begins .drain .drain ∧ begins .xfence .xfence ∧ begins .fsync .fsync ∧ begins .ewait .engines ∧ begins (.bacq mask) (.ways mask) ∧
    (ControlReadable s src → begins (.twait src soft) (.tokens (controlValue s src) soft)) ∧
    (let ad := (s.ctx s.cur).a a
      let ps := accessParts s ad 8 .load
      (ad % 8 = 0 → Allowed ps → Gives (.cwait a sreg scope) s (fun t =>
        BeginsWait s t (.counter ad ((s.ctx s.cur).s sreg)) ∧ t.mem = (touched s false ps).mem)) ∧
      (ad % 8 ≠ 0 → Allowed ps → TrapsAtIssue (.cwait a sreg scope) s 0x0C ad)) ∧
    (ControlReadable s src → (let new := controlValue s src % 65536
      let k := coreOf s.cur
      let foreign := fun (w : Nat) => (∃ j d, s.way k w = .owned j d ∧ (d ≠ s.cur ∨ j ≠ (s.ctx s.cur).sched.job)) ∨
        (∃ j d, s.way k w = .released j d) ∨ ∃ d, coreOf d = k ∧ d ≠ s.cur ∧ (s.ctx d).incomingWays.testBit w = true
      let busy := fun (w : Nat) => (s.ctx s.cur).win.ways.testBit w = false ∧ lockedIn s k w ≠ 0
      ((∀ w < 16, new.testBit w = true → ¬ foreign w ∧ ¬ busy w) → begins (.ssetSplit src) (.split new)) ∧
      ((∃ w < 16, new.testBit w = true ∧ foreign w) → TrapsAtIssue (.ssetSplit src) s 0x04 3) ∧
      ((∀ w < 16, new.testBit w = true → ¬ foreign w) → ∀ mask < 65536, mask ≠ 0 →
        (∀ w < 16, mask.testBit w = true ↔ new.testBit w = true ∧ busy w) → TrapsAtIssue (.ssetSplit src) s 0x08 mask)))

/-- R122, Tables 6.5, 6.6, 7.1, 9.3, 10.5, 11.2, 17.1, 19.5, 19.6; R51, R75, R77: the read of fpstat runs the context's time on, what lands
in it landing at cycles of their windows that are free (log entry 46). -/
def Obligations.SystemReads : Prop :=
  ∀ (s : State) (dst : Nat), CanIssue s → ¬ AtLoopEnd s → 0x300 ≤ dst → dst < 0x370 →
    let x := me s
    let w := x.win
    let q := x.traps
    let level := fun (n : Nat) => x.loopAt n
    let table : List (Nat × Nat) := [(0x000, x.fmts.mfmt), (0x001, x.fmts.cvtctl), (0x002, x.fmts.fpctl),
      (0x010, w.vbase + 2 ^ 16 * w.vcount), (0x011, w.dbase + 2 ^ 32 * w.dsize),
      (0x012, w.ways + 2 ^ 16 * lockedMask s (coreOf s.cur) + 2 ^ 32 * w.wb), (0x013, q.predl), (0x020, q.tvec),
      (0x021, q.level + 2 ^ 4 * q.base1 + 2 ^ 8 * q.base2), (0x022, q.cause1), (0x023, q.cause2), (0x024, q.epc1), (0x025, q.epc2),
      (0x026, q.tval1), (0x027, q.tval2), (0x028, q.tsave), (0x030, w.efrec0), (0x031, w.efrec1), (0x032, w.efrec2), (0x033, w.efrec3),
      (0x038, if (s.region w.nreg).inst then w.nreg + 2 ^ 4 + 2 ^ 40 * (s.region w.nreg).hwidth else w.nreg),
      (0x039, w.hit + 2 ^ 20 * w.miss + 2 ^ 40 * w.inval), (0x040, coreOf s.cur + 2 ^ 9 * (s.cur % 4)),
      (0x041, coreOf s.cur / 128 + 2 ^ 8 * (Config.stepping 0 % 256) + 2 ^ 16),
      (0x042, s.boot.cmask + 2 ^ 4 * s.boot.prof + if s.boot.chg.isSome then 2 ^ 8 else 0), (0x043, s.boot.ready),
      (0x044, x.seq.kcond.toNat), (0x045, x.seq.wstep), (0x08F, x.seq.ldepth)] ++
      (List.range 8).map (fun n => (0x050 + n, look 0 x.regs.lnd n)) ++
      (List.range 15).map (fun n => (0x061 + n, look 0 x.regs.lnd (17 + n))) ++
      (List.range 6).map (fun n => (0x080 + n, (level n).index + 2 ^ 32 * (level n).count)) ++
      (List.range 6).map (fun n => (0x088 + n, (level n).exit + 2 ^ 32 * (level n).start))
    (∀ p ∈ table, Gives (.sget dst p.1) s (fun t => Becomes s t (withScalar x dst p.2))) ∧
    (∀ n < 4096, n ≠ 0x003 → n ∉ table.map (·.1) → TrapsAtIssue (.sget dst n) s 0x03 (3 * 4096 + n)) ∧
    (∀ d < 4096, (d < 0x300 ∨ 0x370 ≤ d) → TrapsAtIssue (.sget d 0x000) s 0x03 (3 * 4096 + d)) ∧
    (x.seq.cyc < x.ports.flagDue → x.missing x.ports.flagDue = true → Gives (.sgetFpstat dst) s (fun t =>
      BeginsWait s t (.fpstat dst x.ports.flagDue) ∧ OnlyContext s t)) ∧
    (x.ports.flagDue ≤ x.seq.cyc ∨ x.missing x.ports.flagDue = false → Gives (.sgetFpstat dst) s (fun t =>
      let y := (x.early (s.landDraw s.cur) x.seq.cyc x.ports.flagDue).landUpTo x.ports.flagDue x.ports.flights.length
      (t.ctx s.cur).regs = (withScalar y dst y.fmts.fpstat).regs ∧ (t.ctx s.cur).ports = y.ports ∧
        Goes s t (nextPc s) (1 + (x.ports.flagDue - x.seq.cyc)) ∧ OnlyContext s t))

/-- R51, R88, R121, R122, R123, Tables 6.5, 6.6, 8.5, 17.1. R56, R123, R133, R241, R296; that a write of ldepth looks at the whole value is
the model's choice (log entry 7). -/
def Obligations.SystemWrites : Prop :=
  (
  ∀ (s : State) (src : Nat), CanIssue s → ¬ AtLoopEnd s → ControlReadable s src →
    let x := me s
    let v := controlValue s src
    let bits := fun (lo n : Nat) => v / 2 ^ lo % 2 ^ n
    let shadow := fun (r : Nat) => { x with fmts := { x.fmts with shadow := x.fmts.shadow ++ [(r, v, 3)] } }
    let table : List (Nat × Nat × Ctx) := [(0x000, 0, shadow 0), (0x001, 0, shadow 1), (0x002, 0, shadow 2),
      (0x020, 0, { x with traps := { x.traps with tvec := 64 * bits 6 26 + v % 2 } }),
      (0x022, 1, { x with traps := { x.traps with cause1 := v % 1024 } }), (0x023, 2, { x with traps := { x.traps with cause2 := v % 1024 } }),
      (0x024, 1, { x with traps := { x.traps with epc1 := v % 2 ^ 32 } }), (0x025, 2, { x with traps := { x.traps with epc2 := v % 2 ^ 32 } }),
      (0x026, 1, { x with traps := { x.traps with tval1 := v } }), (0x027, 2, { x with traps := { x.traps with tval2 := v } }),
      (0x028, 0, { x with traps := { x.traps with tsave := 512 * bits 9 55 } }),
      (0x039, 0, { x with win := { x.win with hit := bits 0 20, miss := bits 20 20, inval := bits 40 20 } }),
      (0x044, 0, { x with seq := { x.seq with kcond := BitVec.ofNat 16 v } })] ++
      (List.range 8).map (fun n => (0x050 + n, 0, { x with regs := { x.regs with lnd := put x.regs.lnd n (max 12 (v % 65536)) } })) ++
      (List.range 6).map (fun n => (0x080 + n, 0, { x with seq := { x.seq with
        loops := x.seq.loops.set n { x.loopAt n with count := bits 32 32, index := bits 0 32 } } })) ++
      (List.range 6).map (fun n => (0x088 + n, 0, { x with seq := { x.seq with
        loops := x.seq.loops.set n { x.loopAt n with start := bits 32 32, exit := bits 0 32 } } }))
    (∀ p ∈ table, p.2.1 ≤ x.traps.level → Gives (.sset src p.1) s (fun t => Becomes s t p.2.2)) ∧
    (∀ p ∈ table, x.traps.level < p.2.1 → TrapsAtIssue (.sset src p.1) s 0x04 3) ∧
    (∀ r < 3, Gives (.fmtw r src) s (fun t => Becomes s t (shadow r))) ∧
    Gives (.fpstatClear src) s (fun t => Becomes s t { x with fmts := { x.fmts with fpstat := x.fmts.fpstat &&& (31 - v % 32) } }) ∧
    (∀ n ∈ [0x013, 0x021, 0x030, 0x031, 0x032, 0x033, 0x040, 0x041, 0x042, 0x043, 0x045] ++ (List.range 15).map (0x061 + ·),
      TrapsAtIssue (.sset src n) s 0x04 3) ∧
    (∀ n < 4096, n ∉ table.map (·.1) ++ [0x003, 0x010, 0x011, 0x012, 0x013, 0x021, 0x030, 0x031, 0x032, 0x033, 0x038, 0x040, 0x041, 0x042, 0x043,
      0x045, 0x08F] ++ (List.range 15).map (0x061 + ·) → TrapsAtIssue (.sset src n) s 0x03 (3 * 4096 + n))
  ) ∧
  (
  ∀ (s : State) (src : Nat), CanIssue s → ¬ AtLoopEnd s → ControlReadable s src →
    let x := me s
    let v := controlValue s src
    let bits := fun (lo n : Nat) => v / 2 ^ lo % 2 ^ n
    let okElse := fun (i : Instr) (ok : Prop) (y : Ctx) =>
      (ok → Gives i s (fun t => Becomes s t y)) ∧ (¬ ok → TrapsAtIssue i s 0x04 3)
    okElse (.ssetDict src) (bits 0 14 + bits 32 15 ≤ 16384)
      { x with win := { x.win with dbase := bits 0 14, dsize := bits 32 15 } } ∧
    okElse (.ssetVwin src)
      (bits 0 10 % 16 = 0 ∧ bits 16 10 % 16 = 0 ∧ bits 0 10 + bits 16 10 ≤ 768 ∧
        ∀ d, d / 4 = s.cur / 4 → d ≠ s.cur → (s.ctx d).bound = true → 0 < bits 16 10 → 0 < (s.ctx d).win.vcount →
          bits 0 10 + bits 16 10 ≤ (s.ctx d).win.vbase ∨ (s.ctx d).win.vbase + (s.ctx d).win.vcount ≤ bits 0 10)
      { x with win := { x.win with vbase := bits 0 10, vcount := bits 16 10 } } ∧
    okElse (.ssetNreg src)
      ((s.region (v % 16)).inst = true ∧ ∃ j, s.job x.sched.job = some j ∧ j.rmask.testBit (v % 16) = true)
      { x with win := { x.win with nreg := v % 16 } } ∧
    okElse (.ssetLdepth src) (v < 7 ∧ x.loopBase ≤ v) { x with seq := { x.seq with ldepth := v } }
  )

/-- R72, R105, R120, R130, R131, R132, R175, R304: hints, points, orders and maintenance; that `fence` orders nothing more, accesses being
performed in order, is log entry 11. R119, R124, R127. R128, R339: a push; that the packet is read at issue through the checks of a
load, and kept by the blocking form, is log entry 17. -/
def Obligations.ControlSlots : Prop :=
  (
  ∀ (s : State) (a sreg kind scope : Nat), CanIssue s → ¬ AtLoopEnd s →
    let same := fun (t : State) => FallsThrough s t ∧ SameRegs s t ∧ SamePorts s t ∧ SameOutside s t ∧ SameOthers s t
    Gives (.fence kind scope) s (fun t => FallsThrough s t ∧ SameRegs s t ∧ SamePorts s t ∧ SameOthers s t ∧
      (let u := if 2 ≤ kind then (begun s).release else begun s;
        SameOutside u t ∧ SameCores (acquired s (kind % 2 == 1) u) t)) ∧
    (∀ i ∈ [Instr.ctNop, .mxNop, .cpNop, .yield, .ppt], Gives i s (fun t => same t ∧ SameCores s t ∧
      ((t.ctx s.cur).sched.yieldAt = if i = .yield then some s.clock else (me s).sched.yieldAt) ∧
      (i = .ppt → (me s).traps.level = 0 → (me s).seq.wait = none → ∀ p d, (me s).sched.preempt = some (p, d) →
        (t.ctx s.cur).seq.wait = some (.save d)))) ∧
    (∀ p ∈ [(Instr.cwb a sreg, false), (.iinv a sreg, true)], Gives p.1 s (fun t => same t ∧
      (t.core (coreOf s.cur)).maint = (s.core (coreOf s.cur)).maint ++ [⟨(s.ctx s.cur).sched.job, (s.ctx s.cur).sched.place, p.2,
        (s.ctx s.cur).a a, (s.ctx s.cur).s sreg⟩] ∧
      ∀ k, (t.core k).tiles = (s.core k).tiles ∧ (t.core k).ways = (s.core k).ways ∧ (t.core k).dict = (s.core k).dict))
  ) ∧
  (
  ∀ (s : State) (g n src mask : Nat), CanIssue s → ¬ AtLoopEnd s →
    let x := me s
    let core := x.s n + 2 ^ 64 * x.s (n + 1)
    let die := x.s (n + 2) % 16
    let ctx := x.s (n + 2) / 16 % 4
    ((∀ d < 4, ∀ b < 128, die.testBit d = true → core.testBit b = true →
        ∃ p ∈ (s.loaded x.sched.job).places, p.die = d ∧ p.cluster = b / 4 ∧ p.core = b % 4 ∧ p.ctx = ctx) →
      Gives (.gmset g n) s (fun t => Becomes s t { x with regs := { x.regs with gm := put x.regs.gm g (core, die, ctx) } })) ∧
    (ControlReadable s src → Gives (.tokc src) s (fun t => OnlyContext s t ∧ FallsThrough s t ∧ SamePorts s t ∧
      (t.ctx s.cur).regs = { x.regs with terr := (t.ctx s.cur).regs.terr } ∧
      ∀ i < 64, (t.ctx s.cur).regs.terr.getLsbD i =
        (x.regs.terr.getLsbD i && !((controlValue s src).testBit i && !(begun s).tokenBusy s.cur i)))) ∧
    Gives (.brel mask) s (fun t => FallsThrough s t ∧ SamePorts s t ∧ t.mem = s.mem ∧
      ({ t.miller with loads := [] } : Miller) = { s.miller with loads := [] } ∧
      (t.ctx s.cur).regs = x.regs ∧ (t.ctx s.cur).traps = x.traps ∧ (t.ctx s.cur).win.vbase = x.win.vbase ∧
      (∀ w < 16, (t.ctx s.cur).win.ways.testBit w = (x.win.ways.testBit w && !mask.testBit w) ∧
        t.way (coreOf s.cur) w = if mask.testBit w ∧ x.win.ways.testBit w then .released x.sched.job s.cur else s.way (coreOf s.cur) w))
  ) ∧
  (
  ∀ (s : State) (a sreg : Nat) (nb : Bool), CanIssue s → ¬ AtLoopEnd s →
    let ad := (s.ctx s.cur).a a
    let q := (s.ctx s.cur).s sreg % 64
    let ps := accessParts s ad 64 .load
    let u := (touched s false ps).release
    let pkt := u.readParts ps
    let w := u.writeIndex (s.queue q)
    let mayPush := bitAt (s.queue q).qcfg 4 = true ∧ ∃ j, s.job (s.ctx s.cur).sched.job = some j ∧ j.qmask.testBit q = true
    let slot := (s.queue q).ring + 64 * (w % (s.queue q).slots)
    Allowed ps →
    (ad % 64 = 0 → mayPush → u.hasSlot q = true → Gives (.qpush a sreg nb) s (fun t =>
      Goes s t (nextPc s) 1 ∧ (t.ctx s.cur).regs = (s.ctx s.cur).regs ∧ SamePorts s t ∧
      t.writeIndex (s.queue q) = (w + 1) % 2 ^ 32 ∧
      ((s.queue q).ringSpace ≠ (s.queue q).lineSpace ∨ slot + 64 ≤ (s.queue q).line ∨ (s.queue q).line + 4 ≤ slot →
        (∀ b, slot ≤ b → b < slot + 64 → ¬ Rides s (s.queue q).lineSpace (s.queue q).line 4 (s.queue q).ringSpace b) →
        memNat (t.mem.store (s.queue q).ringSpace) slot 64 = pkt % 2 ^ 512) ∧
      (t.ctx s.cur).seq.kcond = if nb then setK (me s).seq.kcond 15 false else (me s).seq.kcond)) ∧
    (ad % 64 = 0 → mayPush → u.hasSlot q = false → Gives (.qpush a sreg nb) s (fun t =>
      Goes s t (nextPc s) 1 ∧ (t.ctx s.cur).regs = (s.ctx s.cur).regs ∧ SamePorts s t ∧ t.mem = u.mem ∧
      (if nb then (t.ctx s.cur).seq.kcond = setK (me s).seq.kcond 15 true
      else (t.ctx s.cur).seq.kcond = (me s).seq.kcond ∧ (t.ctx s.cur).seq.wait = some (.push q pkt)))) ∧
    (ad % 64 = 0 → ¬ mayPush → TrapsAtIssue (.qpush a sreg nb) s 0x04 3) ∧
    (ad % 64 ≠ 0 → mayPush → TrapsAtIssue (.qpush a sreg nb) s 0x0C ad)
  )

/-- R290. -/
def Obligations.TrapLevels : Prop :=
  ∀ (s : State) (c cause tval epc lit : Nat), DataArrived (s.ctx c) →
    let x := s.ctx c
    let y := (takeTrap s c cause tval epc lit).ctx c
    (x.traps.tvec % 2 = 1 → x.traps.level = 0 → y.traps.level = 1 ∧ y.seq.run = x.seq.run) ∧
    (x.traps.tvec % 2 = 1 → x.traps.level = 1 → y.traps.level = 2 ∧ y.seq.run = x.seq.run) ∧
    (x.traps.tvec % 2 = 1 → x.traps.level = 2 → y.seq.run = .killed) ∧ (x.traps.tvec % 2 = 0 → y.seq.run = .killed) ∧
    (x.traps.level ≤ 2 → y.traps.level ≤ 2) ∧
    (s.cur = c → CanIssue s → 1 ≤ x.traps.level → Gives .tret s (fun t => (t.ctx c).traps.level = x.traps.level - 1)) ∧
    (x.traps.level ≤ 2 → ∃ v, s.sysRead c 0x021 = some v ∧ v % 4 = x.traps.level)

/-- R75, R80, R294, R295: the entry, once what is in flight has landed, at cycles of its window that are free (log entry 46); a landing
access without its data stops the run-on at its due cycle. R58, R293, R295: a bundle that traps at issue has no effect.
R298: at the return the handler's loop levels are discarded and the depth of before the entry is there again. -/
def Obligations.TrapEntry : Prop :=
  (
  ∀ (s : State) (c cause tval epc lit : Nat), (s.ctx c).traps.tvec % 2 = 1 → (s.ctx c).traps.level < 2 →
    let x := s.ctx c
    let y := (x.early (s.landDraw c) x.seq.cyc x.lastLanding).landUpTo x.lastLanding x.ports.flights.length
    let entered := fun (t : State) (cause tval epc lit : Nat) =>
      let z := t.ctx c
      let code := cause % 256 + 256 * (lit % 2) + if y.seq.fpx.isSome then 512 else 0
      z.ports.flights = [] ∧ z.ports.result = y.ports.result ∧ z.fmts.fpstat = y.fmts.fpstat ∧ z.regs = x.regs ∧ z.win = x.win ∧
      z.seq.kcond = y.seq.kcond ∧ z.seq.loops = x.seq.loops ∧ z.seq.ldepth = x.seq.ldepth ∧
      z.traps = (if x.traps.level = 0 then
          { x.traps with level := 1, base1 := x.seq.ldepth, cause1 := code, epc1 := epc % 2 ^ 32, tval1 := tval }
        else { x.traps with level := 2, base2 := x.seq.ldepth, cause2 := code, epc2 := epc % 2 ^ 32, tval2 := tval }) ∧
      z.seq.pc = x.traps.tvec / 64 % 2 ^ 26 * 64 + 64 * cause ∧ z.seq.cyc = x.lastLanding + 2 ∧
      z.seq.wake = max x.seq.wake (s.clock + 1) + (x.lastLanding - x.seq.cyc) + 2 ∧
      z.seq.wait = none ∧ z.seq.pend = none ∧ z.seq.fpx = none ∧
      t.mem = s.mem ∧ t.engines = s.engines ∧ t.cores = s.cores ∧ t.miller = s.miller ∧ ∀ d, d ≠ c → t.ctx d = s.ctx d
    let waits := fun (t : State) =>
      let z := t.ctx c
      z.seq.wait = some (.entry cause tval epc lit) ∧ z.seq.pend = none ∧ z.regs = x.regs ∧ z.win = x.win ∧ z.traps = x.traps ∧
      z.seq.pc = x.seq.pc ∧ z.seq.cyc = max x.seq.cyc (x.reach x.lastLanding) ∧ t.mem = s.mem ∧ t.engines = s.engines ∧ t.cores = s.cores ∧
      t.miller = s.miller ∧ (∀ d, d ≠ c → t.ctx d = s.ctx d) ∧
      ∀ f ∈ x.ports.flights, (∃ l, f.landing = some l ∧ l.arrived = false) → f ∈ z.ports.flights
    (DataArrived x → entered (takeTrap s c cause tval epc lit) cause tval epc lit) ∧
    (¬ DataArrived x → waits (takeTrap s c cause tval epc lit)) ∧
    (x.seq.wait = some (.entry cause tval epc lit) → x.resident = true →
      (DataArrived x → Gives (.trapEntry c) s (fun t => entered t cause tval epc lit)) ∧
      (¬ DataArrived x → Gives (.trapEntry c) s waits))
  ) ∧
  (
  ∀ (s : State) (cause tval lit : Nat), (s.ctx s.cur).traps.tvec % 2 = 1 → (s.ctx s.cur).traps.level < 2 → DataArrived (me s) →
    let t := trapBundle (begun s) s.cur cause tval lit
    let z := t.ctx s.cur
    let x := s.ctx s.cur
    z.regs = x.regs ∧ z.win = x.win ∧ z.seq.loops = (me s).seq.loops ∧ z.seq.ldepth = (me s).seq.ldepth ∧
    z.seq.pc = x.traps.tvec / 64 % 2 ^ 26 * 64 + 64 * cause ∧
    (if x.traps.level = 0 then z.traps.level = 1 ∧ z.traps.epc1 = (me s).seq.pc % 2 ^ 32 ∧ z.traps.tval1 = tval ∧
        z.traps.cause1 % 512 = cause % 256 + 256 * (lit % 2) ∧ z.traps.base1 = (me s).seq.ldepth ∧
        z.traps.epc2 = x.traps.epc2 ∧ z.traps.tval2 = x.traps.tval2 ∧ z.traps.cause2 = x.traps.cause2
      else z.traps.level = 2 ∧ z.traps.epc2 = (me s).seq.pc % 2 ^ 32 ∧ z.traps.tval2 = tval ∧
        z.traps.cause2 % 512 = cause % 256 + 256 * (lit % 2) ∧ z.traps.base2 = (me s).seq.ldepth ∧
        z.traps.epc1 = x.traps.epc1 ∧ z.traps.tval1 = x.traps.tval1 ∧ z.traps.cause1 = x.traps.cause1) ∧
    t.mem = s.mem ∧ t.engines = s.engines ∧ t.miller = s.miller ∧ t.links = s.links ∧ t.boot = s.boot ∧ SameCores s t ∧
    ∀ d, d ≠ s.cur → (t.ctx d).regs = (s.ctx d).regs ∧ (t.ctx d).traps = (s.ctx d).traps ∧ (t.ctx d).ports = (s.ctx d).ports
  ) ∧
  (
  ∀ (s : State), CanIssue s →
    let x := s.ctx s.cur
    (1 ≤ x.traps.level → Gives .tret s (fun t =>
      (t.ctx s.cur).traps = { x.traps with level := x.traps.level - 1 } ∧
      (t.ctx s.cur).seq.ldepth = (if x.traps.level = 2 then x.traps.base2 else x.traps.base1) ∧
      Goes s t (if x.traps.level = 2 then x.traps.epc2 else x.traps.epc1) 3 ∧
      (t.ctx s.cur).seq.loops = ((me s).popLoops ((me s).seq.ldepth - (me s).loopBase)).seq.loops ∧
      (t.ctx s.cur).regs = x.regs ∧ (t.ctx s.cur).win = x.win ∧ (t.ctx s.cur).seq.kcond = (me s).seq.kcond ∧
      (t.ctx s.cur).fmts = (me s).fmts.tickShadow ∧ SamePorts s t ∧ OnlyContext s t)) ∧
    (x.traps.level = 0 → TrapsAtIssue .tret s 0x04 3)
  )

/-- R130, R115, R293, R295. R129, R290, R299, R300, R301, Tables 17.4 and 17.5: a context that ends lands what its units hold, at cycles of
its window that are free (log entry 46), and its landing accesses are discarded. -/
def Obligations.SoftwareTrapsAndEnds : Prop :=
  (
  ∀ (s : State) (code : Nat), ∀ p ∈ [(Instr.trap code, 0x11), (.brkp code, 0x12)],
    CanIssue s → (me s).seq.wait = none → (me s).sched.preempt = none →
    let x := s.ctx s.cur
    let l := (me s).loopAt 0
    let ends := (me s).loopBase < (me s).seq.ldepth ∧ l.exit = nextPc s
    let epc := (if ends then (if l.index + 1 < l.count then l.start else l.exit) else nextPc s) % 2 ^ 32
    let depth := if ends ∧ ¬ l.index + 1 < l.count then (me s).seq.ldepth - 1 else (me s).seq.ldepth
    (x.traps.tvec % 2 = 1 → x.traps.level < 2 → DataArrived (me s) → Gives p.1 s (fun t =>
      let z := t.ctx s.cur
      (if x.traps.level = 0 then z.traps.level = 1 ∧ z.traps.epc1 = epc ∧ z.traps.tval1 = code ∧ z.traps.cause1 % 256 = p.2 ∧
          z.traps.base1 = depth
        else z.traps.level = 2 ∧ z.traps.epc2 = epc ∧ z.traps.tval2 = code ∧ z.traps.cause2 % 256 = p.2 ∧ z.traps.base2 = depth) ∧
      z.seq.pc = x.traps.tvec / 64 % 2 ^ 26 * 64 + 64 * p.2 ∧ z.seq.ldepth = depth ∧ z.regs = x.regs ∧ z.win = x.win ∧
      t.mem = s.mem ∧ t.engines = s.engines ∧ t.miller = s.miller ∧ SameCores s t ∧ SameOthers s t)) ∧
    (x.traps.tvec % 2 = 0 ∨ x.traps.level = 2 ∧ DataArrived (me s) → Gives p.1 s (fun t => (t.ctx s.cur).seq.run = .killed))
  ) ∧
  (
  let landed := fun (f : Nat → Nat) (x : Ctx) =>
    let y : Ctx := { x with ports := { x.ports with flights := x.ports.flights.filter (fun g => g.landing.isNone) } }
    (y.early f y.seq.cyc y.lastLanding).landUpTo y.lastLanding y.ports.flights.length
  (∀ (s : State), CanIssue s → Gives .halt s (fun t =>
      (let z := landed (s.landDraw s.cur) { me s with seq := { (me s).seq with cyc := (me s).seq.cyc + 1 } };
        (t.ctx s.cur).ports.result = z.ports.result ∧ (t.ctx s.cur).fmts.fpstat = z.fmts.fpstat ∧ (t.ctx s.cur).seq.kcond = z.seq.kcond) ∧
      (t.ctx s.cur).seq.run = .halted ∧ (t.ctx s.cur).ports.flights = [] ∧ (t.ctx s.cur).seq.wait = none ∧
      (t.ctx s.cur).regs = (s.ctx s.cur).regs ∧ (t.ctx s.cur).traps = (s.ctx s.cur).traps ∧ (t.ctx s.cur).win = (s.ctx s.cur).win ∧
      t.mem = s.mem ∧ t.miller = s.miller ∧ SameCores s t ∧ SameOthers s t ∧
      ∀ k, (t.eng k).mxq = (s.eng k).mxq ∧ (t.eng k).cpq = (s.eng k).cpq ∧ (t.eng k).z = (s.eng k).z)) ∧
  (∀ (s : State) (c cause tval epc : Nat) (b : Job), let x := s.ctx c
    s.job x.sched.job = some b →
    let t := killByTrap s c cause tval epc
    let w := physSpace b.log
    let a := physAddr b.log
    let k := s.readN w a 8
    (t.ctx c).seq.run = .killed ∧ (t.ctx c).ports.flights = [] ∧ (t.ctx c).regs = x.regs ∧ (t.ctx c).traps = x.traps ∧
    (t.ctx c).ports.result = (landed (s.landDraw c) x).ports.result ∧ (t.ctx c).fmts.fpstat = (landed (s.landDraw c) x).fmts.fpstat ∧
    (t.ctx c).seq.kcond = (landed (s.landDraw c) x).seq.kcond ∧
    (t.loaded x.sched.job).error ≠ 0 ∧ t.readN w a 8 = (k + 1) % 2 ^ 64 ∧
    (k < s.readN w (a + 8) 4 →
      t.readN w (a + 64 + 64 * k) 1 = 2 ∧ t.readN w (a + 64 + 64 * k + 1) 1 = cause % 256 ∧
      t.readN w (a + 64 + 64 * k + 2) 1 = x.traps.level % 256 ∧ t.readN w (a + 64 + 64 * k + 4) 4 = placeBytes c % 2 ^ 32 ∧
      t.readN w (a + 64 + 64 * k + 8) 4 = epc % 2 ^ 32 ∧ t.readN w (a + 64 + 64 * k + 16) 8 = tval % 2 ^ 64 ∧
      t.readN w (a + 64 + 64 * k + 63) 1 = 1))
  )

/-- R82, R165, R166, R169, R175, R184, R189, R222, Tables 8.6, 8.7: a matrix instruction is queued, with the landing cycle of a z tile; whether
what it reads was written by what nothing orders with it is kept with it, as log entry 59 says. -/
def Obligations.MatrixIssue : Prop :=
  ∀ (s : State) (o : MxOps), ∀ p ∈ matrixRows o, CanIssue s →
    let b := begun s
    let x := me s
    let k := coreOf s.cur
    let d := x.desc o.md
    let w := fun (n : Nat) => d.getD n 0
    let iss : Issued := ⟨s.cur, x.sched.job, x.sched.place, s.seqno, x.seq.pc, if o.stg then some x.seq.wstep else none, x.win.ways, .queued,
      false⟩
    let reads := mxReadRanges b p.2 o
    let incs := if o.inc then
        (if (w 3).testBit 56 then [(w 3 / 2 ^ 48 % 16, w 0 / 2 ^ 48 % 2 ^ 16)] else []) ++
        (if p.2 ≠ 4 ∧ (w 3).testBit 57 then [(w 3 / 2 ^ 52 % 16, w 1 / 2 ^ 48 % 2 ^ 16)] else [])
      else []
    (MatrixAccepts s p.2 o → Gives p.1 s (fun t =>
      (t.eng k).mxq = (s.eng k).mxq ++ [⟨iss, p.2, o, d, effBase x d false, effBase x d true, x.fmts.mfmt, none, none, none, reads,
        b.meetsFresh k iss [o.tin0, o.tin1, o.tin2] reads, false, false, []⟩] ∧
      ({ t.eng k with mxq := [] } : Engines) = { s.eng k with mxq := [] } ∧ SameBesideQueue s t ∧
      (t.ctx s.cur).fmts = x.fmts.tickShadow ∧
      (t.ctx s.cur).regs = { (x.setTok o.tout false false).regs with
        o := incs.foldl (fun f i => wr f i.1 (rd f i.1 + sext64 16 i.2)) x.regs.o } ∧
      (t.ctx s.cur).ports.zdue =
        (if p.2 = 5 ∨ p.2 = 6 then put x.ports.zdue o.zb (x.seq.cyc + 136 + 4 * o.land) else x.ports.zdue))) ∧
    (mxFieldsOk p.2 o = false → TrapsAtIssue p.1 s 0x04 1) ∧
    (mxReadsDesc p.2 o = true → o.inc = true → (w 3).testBit 56 = true → (w 3).testBit 57 = true →
      w 3 / 2 ^ 48 % 16 = w 3 / 2 ^ 52 % 16 → TrapsAtIssue p.1 s 0x04 1)

/-- R183, R186, R187, R188, R223, R289: an instruction starts in its stage, once that is free and nothing before it holds it back. That one
which was queued behind an instruction that performs no effect may perform none either is log entry 61. -/
def Obligations.MatrixStarts : Prop :=
  ∀ (s : State) (k n : Nat) (r : MxRun), (s.eng k).mxq.find? (fun p => p.iss.seq == n) = some r →
    let e := s.eng k
    (mxReady s k n = true → Gives (.matrixEngineStart k n) s (fun t =>
      (t.eng k).mxq.map (fun p => p.iss.seq) = e.mxq.map (fun p => p.iss.seq) ∧
      (∀ p ∈ (t.eng k).mxq, p.iss.seq = n → p.iss.stage = .running ∧ (r.after = false → p.iss.poisoned = (s.ownerCtx r.iss).tinsErr r.tins) ∧
        ((s.ownerCtx r.iss).tinsErr r.tins = true → p.iss.poisoned = true) ∧ (r.op = 6 → p.iss.poisoned = false → p.out = List.replicate 128 0)) ∧
      (let others := fun (l : List MxRun) => l.filter (fun p => p.iss.seq != n);
        (others (t.eng k).mxq).map (fun p => { p with after := false }) = (others e.mxq).map (fun p => { p with after := false }) ∧
        (r.after = false → (s.ownerCtx r.iss).tinsErr r.tins = false → others (t.eng k).mxq = others e.mxq)) ∧ t.mem = s.mem ∧
      (t.eng k).bank0 = e.bank0 ∧ (t.eng k).bank1 = e.bank1 ∧ (t.eng k).z = e.z ∧ (t.eng k).stat = e.stat ∧ (t.eng k).cpq = e.cpq ∧
      ∀ d, (t.ctx d).regs = (s.ctx d).regs ∧ (t.ctx d).ports = (s.ctx d).ports ∧ (t.ctx d).fmts = (s.ctx d).fmts ∧
        (t.ctx d).traps = (s.ctx d).traps ∧ (t.ctx d).seq = (s.ctx d).seq)) ∧
    ((r.iss.stage = .running ∨ (∃ i ∈ r.tins, i ≠ 63 ∧ (s.ownerCtx r.iss).tokSet i = false) ∨
        (∃ p ∈ e.mxq, p.iss.stage = .running ∧ p.fed = false ∧ drainOp p.op = drainOp r.op) ∨
        (∃ p ∈ e.mxq, p.iss.seq < n ∧ p.iss.stage = .queued ∧ drainOp p.op = drainOp r.op) ∨
        (∃ p ∈ e.mxq, p.iss.seq < n ∧ hazard p r = true)) → exec (.matrixEngineStart k n) s = .next s)

/-- R161 to R164, R170 to R174, R176, R180, R182, R185, R222, R223, R237, R374, Tables 8.7, 8.8, 10.5: what a matrix instruction leaves when
it completes, with its feed before or in the completion. That feed instructions which change one thing complete in their order is log entry 26. -/
def Obligations.MatrixCompletes : Prop :=
  ∀ (s : State) (k n c : Nat) (r : MxRun), RunsMx s k n r → Owner s r.iss c → r.o.tout < 64 →
    let e := s.eng k
    let b := e.bank r.bank
    let bad := r.fed = false ∧ r.iss.poisoned = false ∧ r.fault = none ∧ ∃ g ∈ s.runReads k r, ¬ Sound s .sp (k * 2 ^ 24 + g.1) g.2
    ∀ fault, (bad → fault = some 0x5C) → (¬ bad → fault = mxFault s k r) →
    let behind := fun (q : MxRun) => ∃ p ∈ e.mxq, p.iss.seq < n ∧ p.iss.stage = .running ∧ follows p q = true
    ((∀ q ∈ e.mxq, q.iss.seq = n → q.iss.stage = .running → behind q) → exec (.matrixComplete k n) s = .next s) ∧
    (¬ behind r → Gives (.matrixComplete k n) s (fun t =>
      let u := t.eng k
      TokenSet t c r.o.tout (r.iss.poisoned || fault.isSome) ∧
      u.mxq.map (fun p => p.iss.seq) = (e.mxq.map (fun p => p.iss.seq)).filter (fun m => m != n) ∧
      (r.iss.poisoned = true → t.mem = s.mem ∧ u.bank0 = e.bank0 ∧ u.bank1 = e.bank1 ∧ u.z = e.z ∧ u.corr = e.corr ∧
        (t.ctx c).win = (s.ctx c).win) ∧
      (r.iss.poisoned = false → ∀ cause, fault = some cause → u.z = e.z ∧
        (stepOp r.op = true → u.bank r.bank = { b with faulted := true }) ∧
        ((s.ctx c).win.efclk ≠ s.clock + 1 →
          (t.ctx c).win.efrec0 = cause * 2 ^ 56 + 2 ^ 54 + r.op * 2 ^ 48 + r.o.tout * 2 ^ 42 + r.iss.pc % 2 ^ 32 ∧
          (t.ctx c).win.efrec1 = 0 ∧ (t.ctx c).win.efrec2 = 0 ∧ (t.ctx c).win.efrec3 % 2 ^ 48 = 0)) ∧
      (r.iss.poisoned = false → fault = none →
        (r.op = 6 → ∀ z i, i < 128 → t.zRow k z i = if z = r.o.zb then 0 else s.zRow k z i) ∧
        (r.op = 5 → b.raced = false →
          let row := fun i => finRow b (rndOf (fld r.mfmt 9 2)) r.o.acc i (s.zRow k r.o.zb i).toNat ((b.sums.drop (128 * i)).take 128)
          u.bank r.bank = { b with u := [], v := [] } ∧
          (t.ctx c).fmts.fpstat = (s.ctx c).fmts.fpstat ||| ((List.range 128).map row).foldl (fun f l => l.foldl (fun g p => g ||| p.2) f) 0 ∧
          ∀ z i, i < 128 → t.zRow k z i = if z = r.o.zb then packRow ((row i).map (fun p => p.1)) else s.zRow k z i) ∧
        (r.op = 10 → r.raced = false →
          let scale := fun a i => let v := s.readN .sp (k * 2 ^ 24 + a + 4 * i) 4; if fld v 23 8 = 0 then v / 2 ^ 31 * 2 ^ 31 else v
          u.bank r.bank = { b with u := (List.range 128).map (scale (fld (r.desc.getD 2 0) 0 24)),
                                   v := (List.range 128).map (scale (fld (r.desc.getD 2 0) 24 24)) }) ∧
        (r.op = 1 ∨ r.op = 2 → ∀ fa fb, (r.edgeA (r.o.kk + 1)).fam = some fa → r.edgeB.fam = some fb →
          let la := s.feed k (r.edgeA (r.o.kk + 1)) fa ((r.gather s k).map (fun g => g.2))
          let lb := s.feed k r.edgeB fb none
          (u.bank r.bank).sums = stepSums (fa == .ts8) (fb == .ts8) (fa == .fl16 && !bitAt r.mfmt 8) la lb ∧
          (u.bank r.bank).aexp = la.map (fun l => l.1) ∧ (u.bank r.bank).bexp = lb.map (fun l => l.1) ∧
          (u.bank r.bank).faulted = false ∧ (u.bank r.bank).u = b.u ∧ (u.bank r.bank).v = b.v ∧ u.z = e.z ∧
          (u.bank r.bank).twin = (fa == .ts8 || fb == .ts8) ∧
          (u.bank r.bank).frac = (if fa = .ts8 then fb.frac + 7 else if fb = .ts8 then fa.frac + 7 else 2 * fa.frac + 1) ∧
          (fa ≠ .ts8 → fb ≠ .ts8 → (∀ h, r.hitA = some h → (u.bank r.bank).r = h) ∧ (∀ h, r.hitB = some h → (u.bank r.bank).c = h) ∧
            (r.raced = false → (r.hitA = none → CorrectionsOf la (u.bank r.bank).r) ∧ (r.hitB = none → CorrectionsOf lb (u.bank r.bank).c)))) ∧
        (r.op = 3 → (s.ctx r.iss.ctx).seq.run ≠ .halted → ∀ f, r.edgeB.fam = some f →
          ∃ v, u.stat = some ⟨r.iss.ctx, r.o.kk + 1, r.edgeB.fmt, r.edgeB.scaled, s.feed k r.edgeB f none, v, r.raced⟩ ∧
            (f ≠ .ts8 → ∀ h, r.hitB = some h → v = h) ∧
            (f ≠ .ts8 → r.hitB = none → r.raced = false → CorrectionsOf (s.feed k r.edgeB f none) v)) ∧
        (r.op = 4 → ∀ w fa fb, e.stat = some w → (r.edgeA 1).fam = some fa → famOf w.fmt w.scaled = some fb →
          let la := s.feed k (r.edgeA w.k) fa none
          (u.bank r.bank).sums = stepSums (fa == .ts8) (fb == .ts8) (fa == .fl16 && !bitAt r.mfmt 8) la w.lanes ∧
          (u.bank r.bank).aexp = la.map (fun l => l.1) ∧ (u.bank r.bank).bexp = w.lanes.map (fun l => l.1) ∧
          (u.bank r.bank).faulted = false ∧ (u.bank r.bank).u = b.u ∧ (u.bank r.bank).v = b.v ∧ u.z = e.z ∧
          (u.bank r.bank).twin = (fa == .ts8 || fb == .ts8) ∧
          (u.bank r.bank).frac = (if fa = .ts8 then fb.frac + 7 else if fb = .ts8 then fa.frac + 7 else 2 * fa.frac + 1) ∧
          (fb ≠ .ts8 → fa ≠ .ts8 → (u.bank r.bank).c = w.corr)) ∧
        (r.op = 7 → ∀ f, r.edge.fam = some f → u.bank0 = e.bank0 ∧ u.bank1 = e.bank1 ∧ u.z = e.z ∧
          (f = .ts8 → t.mem = s.mem ∧ u.corr = e.corr) ∧
          (f ≠ .ts8 → r.raced = false → ∃ v, (r.fed = true → ∀ h, r.hitA = some h → v = h) ∧
            (r.fed = false ∨ r.hitA = none → CorrectionsOf (s.feed k r.edge f none) v ∧
              (r.o.cmode ≠ 2 ∨ s.mem.loose = [] → u.corr.head? = some (r.edge.corr none r.iss v))) ∧ (r.o.cmode ≠ 2 → t.mem = s.mem) ∧
            (r.o.cmode = 2 → (∀ i < 128, t.readN .sp (k * 2 ^ 24 + r.recAddr + 8 * i) 8 = v.getD i 0 % 2 ^ 64) ∧
              SameBytesBut s t .sp (k * 2 ^ 24 + r.recAddr) 1024))) ∧
        (r.op = 8 → r.raced = false → t.mem = s.mem ∧ u.bank0 = e.bank0 ∧ u.bank1 = e.bank1 ∧ (r.fed = true → u.corr = e.corr) ∧
          (r.fed = false → u.corr.head? = some (r.edge.corr none r.iss ((List.range 128).map (fun l => s.readN .sp (k * 2 ^ 24 + r.recAddr + 8 * l) 8))))) ∧
        (r.op = 9 → t.mem = s.mem ∧ u.z = e.z ∧
          let gone := r.edge.extent :: r.edge.scaleRange ++ (if r.o.zb = 0 then [(r.gidx, 2 * r.edge.k)] else [])
          u.corr = if r.fed then e.corr else if r.o.zb = 2 then [] else e.corr.filter (fun c => !c.ranges.any (fun x => gone.any (fun y =>
            overlap x.1 x.2 y.1 y.2)))))))

/-- R158, R161 to R164, R171, R182: the values of aligned lanes, of the sums of a step and of what `mfin` delivers; with the corrections, the
sums are those of the products, but for the squares cut off. -/
def Obligations.MatrixSums : Prop :=
  (∀ (fmt : Nat) (scaled : Bool) (fam : Fam) (xs : List Fed), famOf fmt scaled = some fam → fam ≠ .ts8 →
    let l := feedLane fmt fam xs
    let x := fun (k : Nat) => fedRat fmt fam (xs.getD k none)
    let marked := ∃ c s, some (c, s) ∈ xs ∧ (s % 512 = 511 ∨ (fam.isInt = false ∧ (blkRead fmt c).special = true))
    l.2.1.length = xs.length ∧ (marked → l.1 = none) ∧
    (¬ marked → ∃ e, l.1 = some e ∧ (fam.isInt = true → e = 0) ∧
      (fam.isInt = false → (∀ k < xs.length, x k = 0) → e = 0) ∧
      (fam.isInt = false → (∃ k < xs.length, x k ≠ 0) → (∀ k < xs.length, |x k| < 2 ^ (e + 1)) ∧ ∃ k < xs.length, 2 ^ e ≤ |x k|) ∧
      ∀ k < xs.length, let v := x k * 2 ^ (fam.frac - e)
        let α := l.2.1.getD k 0
        |(α : ℚ) - v| ≤ 1 / 2 ∧ (|(α : ℚ) - v| = 1 / 2 → α % 2 = 0))) ∧
  (∀ (cut : Bool) (a b : List Lane) (i j n : Nat), i < 128 → j < 128 →
    let α := fun k => (a.getD i zeroLane).2.1.getD k 0
    let β := fun k => (b.getD j zeroLane).2.1.getD k 0
    (a.getD i zeroLane).2.1.length ≤ n → (b.getD j zeroLane).2.1.length ≤ n →
    let sum := (stepSums false false cut a b).getD (128 * i + j) 0
    let rest := sum - sumSquares (a.getD i zeroLane).2.1 - sumSquares (b.getD j zeroLane).2.1
    let dot := ((List.range n).map (fun k => α k * β k)).sum
    sum = ((List.range n).map (fun k => let σ := α k + β k; if cut then 2 ^ 15 * (σ * σ / 2 ^ 15) else σ * σ)).sum ∧
    (cut = false → rest = 2 * dot) ∧ (cut = true → rest ≤ 2 * dot ∧ (0 < n → 2 * dot - n * 2 ^ 15 < rest))) ∧
  (∀ (a : List Lane) (xs : List Fed) (i j : Nat) (f : Int), i < 128 → j < 128 → xs.length = (a.getD i zeroLane).2.1.length →
    (∀ x ∈ xs, ∀ c s, x = some (c, s) → s % 512 ≠ 511 ∧ ((s % 512 : Nat) : Int) - 255 ≤ f) →
    (∃ c s, some (c, s) ∈ xs ∧ ((s % 512 : Nat) : Int) - 255 = f) →
    let α := (a.getD i zeroLane).2.1
    let term := fun (k : Nat) => match xs.getD k none with
      | none => 0
      | some (c, s) => ⌊(α.getD k 0 : ℚ) * ((if c.testBit 7 then -1 else 1) * 2 ^ (7 - fld c 4 3) + (if c.testBit 3 then -1 else 1) * 2 ^ (7 - fld c 0 3))
          / 2 ^ (f - (((s % 512 : Nat) : Int) - 255))⌋
    let b := fun (m : Nat) => List.replicate m zeroLane ++ [feedLane 0xC .ts8 xs]
    (feedLane 0xC .ts8 xs).1 = some f ∧
    (stepSums false true false a (b j)).getD (128 * i + j) 0 = ((List.range xs.length).map term).sum ∧
    (stepSums true false false (b j) a).getD (128 * j + i) 0 = ((List.range xs.length).map term).sum) ∧
  (∀ (b : Bank) (mode : Rnd) (acc : Bool) (i j z : Nat) (sums : List Int) (h : Int), j < 128 → b.frac = (if b.twin then h else 2 * h + 1) →
    let y := (finRow b mode acc i z sums).getD j (0, 0)
    let u := f32.readFlush (b.u.getD i 0x3F800000)
    let v := f32.readFlush (b.v.getD j 0x3F800000)
    (b.aexp.getD i (some 0) = none ∨ b.bexp.getD j (some 0) = none → y = (f32.nanCode, flINV)) ∧
    (∀ e f, b.aexp.getD i (some 0) = some e → b.bexp.getD j (some 0) = some f → u.special = false → v.special = false →
      let c : ℚ := if b.twin then (sums.getD j 0 : ℚ) * 2 ^ (e + f - h)
        else ((sums.getD j 0 : ℚ) - b.r.getD i 0 - b.c.getD j 0) / 2 * 2 ^ (e + f - 2 * h)
      let x := c * valRat u * valRat v
      let old := f32.read (fld z (32 * j) 32)
      (acc = false → x ≠ 0 → RoundsOnce f32 mode false (decide (x < 0)) |x| y) ∧
      (acc = false → c = 0 → y = (f32.signed (u.neg != v.neg) 0, 0)) ∧
      (acc = true → old.special = false → x + valRat old ≠ 0 → RoundsOnce f32 mode false (decide (x + valRat old < 0)) |x + valRat old| y)))

/-- R218, R221, R222, R226, R228, R241, R250, R42: a copy or named-line instruction is queued. That the stochastic state it takes along is
that of the start of its bundle is log entry 60. -/
def Obligations.CopyIssue : Prop :=
  ∀ (s : State) (o : CpOps), CanIssue s →
    let b := begun s
    let x := me s
    let k := coreOf s.cur
    let pat := x.pattern o.cp
    let queues := fun (i : Instr) (op ways : Nat) => Gives i s (fun t =>
      (t.eng k).cpq = (s.eng k).cpq ++ [{
        iss := ⟨s.cur, x.sched.job, x.sched.place, s.seqno, x.seq.pc,
          if o.stg || (decide (op < 0x10 ∨ op = 0x18) && patStg pat) then some x.seq.wstep else none, ways, .queued, false⟩
        op := op, o := o, pat := pat, counter := x.a o.a, cvtctl := x.fmts.cvtctl, region := x.win.nreg
        install := (s.region x.win.nreg).install, order := 0, pos := 0, block := 0, data := [], ended := false, fault := none, todo := []
        got := [], left := [], lost := [], gone := 0, wrote := 0, wet := [], acts := 0, acc := [] }] ∧
      ({ t.eng k with cpq := [] } : Engines) = { s.eng k with cpq := [] } ∧ SameBesideQueue s t ∧
      (t.ctx s.cur).regs = (x.setTok o.tout false false).regs ∧ (t.ctx s.cur).ports.zdue = x.ports.zdue ∧
      (t.ctx s.cur).fmts = (if op = 3 ∧ fld x.fmts.cvtctl 4 3 = 4 then (x.setSr (srStep (x.fmts.cvtctl / 2 ^ 32))).fmts
        else x.fmts).tickShadow)
    (∀ p ∈ copyRows o, CopyAccepts s (copyCands b p.2 o) o → queues p.1 p.2 (copyWays b p.2 o)) ∧
    (∀ p ∈ namedRows o, CopyAccepts s (namedCands b p.2 o) o → queues p.1 p.2 (namedWays b p.2 o)) ∧
    (∀ p ∈ namedRows o, (s.region x.win.nreg).inst = false → TrapsAtIssue p.1 s 0x04 2) ∧
    (∀ op ∈ [2, 4, 5, 7, 8, 0x10, 0x11, 0x12, 0x13, 0x14, 0x15, 0x16], ∀ w < 2 ^ 64, fld w 58 6 = op → bitAt w 20 = true →
      decodeSlot 2 w = none)

/-- R223, R224, R232, R235, R236, R256: an instruction of the copy queue starts, a storage copy with its NVMe commands, `nout` with the
read of its root; a block of a Flume stream is expanded. The order of starts is log entry 54; that a destination exactly full at the end
of a block not marked last may also end in a stream fault is log entry 61. -/
def Obligations.CopyStarts : Prop :=
  ∀ (s : State) (k n : Nat) (r : CpRun), (s.eng k).cpq.find? (fun p => p.iss.seq == n) = some r →
    let e := s.eng k
    let bad := (s.ownerCtx r.iss).tinsErr r.tins
    (cpReady s k n = true → (r.op = 8 ∨ r.op = 0x15 → r.spanHeld s = false) → Gives (.copyEngineStart k n) s (fun t =>
      (t.eng k).cpq.map (fun p => p.iss.seq) = e.cpq.map (fun p => p.iss.seq) ∧
      (∀ p ∈ (t.eng k).cpq, p.iss.seq = n → p.iss.stage = .running ∧ p.iss.poisoned = bad ∧
        (r.op < 0x10 ∨ r.op = 0x18 → bad = false → p.todo = r.firstReads ∧ p.left = List.range r.writes.length)) ∧
      (bad = true ∨ (r.op ≠ 7 ∧ r.op ≠ 8 ∧ r.op ≠ 0x15) → t.mem = s.mem ∧ t.ctxs = s.ctxs ∧ t.links = s.links ∧ t.miller = s.miller ∧
        t.cores = s.cores ∧ (t.eng k).cpq.filter (fun p => p.iss.seq != n) = e.cpq.filter (fun p => p.iss.seq != n) ∧
        ({ t.eng k with cpq := [] } : Engines) = { e with cpq := [] }) ∧
      (bad = false → s.nvmeOf k n = [] → s.handleValid (patHandle r.pat) = true →
        let bs := s.blockSize (patHandle r.pat)
        let lba := pw r.pat 0 % 2 ^ 48
        let blocks := fld (pw r.pat 0) 48 16 + 1
        let sent := fun (op : Nat) (data : List Nat) => (t.nvmeOf k n).map (fun c => (c.handle, c.op, c.lba, c.blocks, c.data)) =
          (cutBlocks (2 ^ 20 / bs) bs (blocks + 1) lba blocks data).map (fun c => (patHandle r.pat, op, c.1, c.2.1, c.2.2))
        (r.op = 7 → sent 2 []) ∧
        (∀ raw, r.op = 8 → (nestBytes r (patElems r.pat) s).2 = .ok raw →
          let data := if effFl 8 r.o r.pat = 1 then storedStream (raw.1.length / 1048576 + 1) raw.1 else raw.1
          (data.length = blocks * bs ∨ (effFl 8 r.o r.pat = 1 ∧ data.length ≤ blocks * bs) →
            sent 1 (data ++ List.replicate (blocks * bs - data.length) 0)))) ∧
      (bad = false → r.op = 7 ∨ r.op = 8 → s.handleValid (patHandle r.pat) = false →
        ∀ p ∈ (t.eng k).cpq, p.iss.seq = n → p.fault = some (0x58, 0xFFFE)) ∧
      (bad = false → r.op = 0x15 → coreOf r.iss.ctx = k → pw r.pat 0 % 16 = 0 → OwnRange s k r (pw r.pat 0) 16 →
        (∀ w, t.mem.store w = s.mem.store w) ∧
        ∀ p ∈ (t.eng k).cpq, p.iss.seq = n → p.acc = [ownBytes s k (pw r.pat 0) 16] ∧ p.fault = r.fault))) ∧
    ((r.iss.stage = .running ∨ (∃ i ∈ r.tins, i ≠ 63 ∧ (s.ownerCtx r.iss).tokSet i = false) ∨
        8 ≤ (e.cpq.filter (fun p => p.iss.stage == .running)).length ∨
        (∃ p ∈ e.cpq, p.iss.stage = .queued ∧ p.iss.job = r.iss.job ∧ p.iss.place = r.iss.place ∧ p.iss.seq < n)) →
      exec (.copyEngineStart k n) s = .next s) ∧
    (r.op = 8 ∨ r.op = 0x15 → r.spanHeld s = true → (∀ p ∈ e.cpq, p.iss.seq = n → p = r) → exec (.copyEngineStart k n) s = .next s) ∧
    (flumeTurn s k r = false ∨ flumeHeld s k r = true → exec (.flumeBlock k n) s = .next s) ∧
    (flumeTurn s k r = true → flumeHeld s k r = false → Gives (.flumeBlock k n) s (fun t => ∃ q, (t.eng k).cpq.find? (fun p => p.iss.seq == n) = some q ∧
      t.mem.sp = s.mem.sp ∧ q.pat = r.pat ∧ q.o = r.o ∧ (q.ended = true ∨ q.fault.isSome = true ∨ q.block = r.block + 1)))

/-- R219 to R223, R225, R228, R230 to R232, R237, R238: what an instruction of the copy engine leaves when it completes. A copy that has
performed none of its accesses is stated for one element, `sread` of raw blocks for a whole nest. -/
def Obligations.CopyCompletes : Prop :=
  ∀ (s : State) (k n c : Nat) (r : CpRun), RunsCp s k n r → Owner s r.iss c → r.o.tout < 64 →
    namedHeld s k r = false →
    let es := patEs r.pat
    let ends := fun (err : Bool) (p : State → Prop) => Gives (.copyComplete k n) s (fun t => TokenSet t c r.o.tout err ∧
      (t.eng k).cpq.map (fun p => p.iss.seq) = ((s.eng k).cpq.map (fun p => p.iss.seq)).filter (fun m => m != n) ∧ p t)
    let writes := fun (u : State) (a len v flags : Nat) => ∀ b, OnePiece u r a len .store b →
      let w := reached u r a len .store b
      let x := w.engineWrite r.iss r.o.tout b.space b.addr len (v % 2 ^ (8 * len))
      CounterOk x r → ends false (fun t => x.readN b.space b.addr len = v % 2 ^ (8 * len) ∧ SameBytesBut w x b.space b.addr len ∧
        Counts x r t ∧ (t.ctx c).fmts.fpstat = (s.ctx c).fmts.fpstat ||| flags)
    (cpDone s k r = false → exec (.copyComplete k n) s = .next s) ∧
    (r.iss.poisoned = true → ends true (fun t => t.mem = s.mem ∧ (t.ctx c).win = (s.ctx c).win)) ∧
    (cpDone s k r = true → ∃ err, ends err (fun _ => True)) ∧
    (∀ w, r.op < 0x10 ∨ r.op = 0x18 → cpDone s k r = true → r.iss.poisoned = false → r.gone = 0 → (s.lostWays r.iss).head? = some w →
      (s.ctx c).win.efclk ≠ s.clock + 1 → ends true (fun t => FaultRecord t c r 0x53 w)) ∧
    (Untouched s k r →
      (∀ e, OneElement r e →
        (r.op = 9 → writes s e.dst es (fillBytes r.o.fill (patFill r.pat) es) 0) ∧
        (r.op = 2 → r.ended = true → es ≤ r.data.length → writes s e.dst es (leNat (r.data.take es)) 0) ∧
        (r.op = 7 → effFl 7 r.o r.pat = 0 → (s.staged k n).length ≠ es → (s.ctx c).resident = true → (s.ctx c).win.efclk ≠ s.clock + 1 →
          ends true (fun t => FaultRecord t c r 0x58 0xFFFF ∧ ∀ w, t.mem.store w = s.mem.store w)) ∧
        (r.op = 7 → effFl 7 r.o r.pat ≠ 0 → r.ended = true → es ≤ r.data.length → writes s e.dst es (leNat (r.data.take es)) 0) ∧
        (∀ a, OnePiece s r e.src es .load a →
          let u := reached s r e.src es .load a
          let v := u.readN a.space a.addr es
          (r.op = 1 ∨ r.op = 6 → (r.op = 1 → patCarry r.pat = false) → writes u e.dst es v 0) ∧
          (r.op = 3 → memStream 3 r.o r.pat = false → patTop r.pat ≠ 2 → patRec r.pat = false →
            let f := transform r.pat r.cvtctl [some v]
            ∀ y fl, f.vals = [some y] → f.flags = [fl] → writes u e.dst (dstBytes 3 r.pat) y (divisorFlag r.pat ||| fl)) ∧
          (r.op = 0x18 → r.counter = 0 → ∀ b, OnePiece u r e.dst es .store b → ends false (fun t =>
            (∀ w, t.mem.store w = (reached u r e.dst es .store b).mem.store w) ∧
            t.mem.loose = (reached u r e.dst es .store b).mem.loose ++ [⟨r.iss.job, r.iss.place, r.iss.seq,
              match b.leaf with | some f => f.via | none => ⟨0, 0, 2, false⟩, e.dst, b.space.code, b.addr, es, v⟩]))) ∧
        (∀ cause detail, r.op = 1 ∨ r.op = 6 ∨ r.op = 0x18 → pieces e.src es = [(e.src, es)] →
          s.engHit r e.src .load = .fault cause detail → cause ≠ 0x59 → cause < 256 → (s.ctx c).resident = true →
          (s.ctx c).win.efclk ≠ s.clock + 1 →
          ends true (fun t => FaultRecord t c r cause detail ∧ (t.ctx c).win.efrec1 = 0 ∧ ∀ w, t.mem.store w = s.mem.store w))) ∧
      (r.op = 7 → effFl 7 r.o r.pat = 0 → r.counter = 0 → es ≤ 16 → (∀ e ∈ patElems r.pat, e.clip = false) →
        (s.staged k n).length = es * (patElems r.pat).length →
        let w := (patElems r.pat).zipIdx.foldl (fun w p => engWrites r false (pieces p.1.dst es)
          (leNat (((s.staged k n).drop (es * p.2)).take es)) w) (Wrote.start s)
        w.fault = none → w.gone = 0 → ends false (fun t => ∀ x, t.mem.store x = w.s.mem.store x)) ∧
      (r.op = 8 → r.counter = 0 → ends false (fun t => t.mem = s.mem)) ∧
      (r.op = 4 → r.counter = 0 → lblkBad s r (pw r.pat 0) (patLevel r.pat 0).n = [] →
        (∀ z, (engRead s r (pw r.pat 0) (128 * (patLevel r.pat 0).n)).2 = .ok z → (s.core k).blocks.length < 64 → coreOf r.iss.ctx = k →
          (∃ w < 16, s.way k w = .cache) → (∀ w < 16, s.way k w = .cache → lockedIn s k w + (patLevel r.pat 0).n ≤ 8192) →
          ends false (fun t => ∃ ways, ways.length = (patLevel r.pat 0).n ∧ (∀ w ∈ ways, w < 16 ∧ s.way k w = .cache) ∧
            (t.core k).blocks = ⟨pw r.pat 0, (patLevel r.pat 0).n, s.asidOf r.iss.job, ways⟩ :: (s.core k).blocks)) ∧
        (64 ≤ (s.core k).blocks.length → coreOf r.iss.ctx = k → (s.ctx c).resident = true → (s.ctx c).win.efclk ≠ s.clock + 1 →
          ends true (fun t => FaultRecord t c r 0x5A 0 ∧ (t.core k).blocks = (s.core k).blocks))) ∧
      (r.op = 5 → r.counter = 0 → coreOf r.iss.ctx = k →
        let mine := fun (b : LoadBlock) => b.va == pw r.pat 0 && b.asid == s.asidOf r.iss.job
        ends false (fun t => (t.core k).blocks = (s.core k).blocks.filter (fun b => !mine b) ∧
          t.mem = ({ s.mem with l1 := s.mem.l1.filter (fun e => !(e.core == k && ((s.core k).blocks.filter mine).any (fun b =>
            (⟨r.iss.job, r.iss.place, false, b.va, 128 * b.lines⟩ : Maint).meets s k e.place))) } : Mem))))

/-- R251 to R257, Tables 11.3 to 11.5: what a named-line instruction leaves whose actions are all before it, for one line or name; lines,
names, slot and records in own scratchpad, to which no `xcpy` write is still to become visible. That its actions are single events, which
those of others may come between, is log entry 29. -/
def Obligations.NamedCompletes : Prop :=
  ∀ (s : State) (k n c : Nat) (r : CpRun), RunsCp s k n r → Owner s r.iss c → r.o.tout < 64 → namedHeld s k r = false →
    s.mem.loose.any (Loose.meets Space.sp.code (k * 2 ^ 24) (2 ^ 24)) = false →
    cpDone s k r = true → r.iss.poisoned = false → r.fault = none → r.acts = 0 → r.got = [] → r.lost = [] → r.gone = 0 →
    s.lostWays r.iss = [] → r.removed s = false → coreOf r.iss.ctx = k → r.counter = 0 → namedN r.pat = 1 →
    (∀ g ∈ namedOwn r.op r.pat, g.1 % g.2.1 = 0 ∧ OwnRange s k r g.1 g.2.2) →
    let p0 := pw r.pat 0
    let p1 := pw r.pat 1
    let reg := s.region r.region
    let ends := fun (err : Bool) (g : Region) (p : State → Prop) => Gives (.copyComplete k n) s (fun t => TokenSet t c r.o.tout err ∧
      (t.eng k).cpq.map (fun q => q.iss.seq) = ((s.eng k).cpq.map (fun q => q.iss.seq)).filter (fun m => m != n) ∧
      t.region r.region = g ∧ (∀ q, q ≠ r.region → t.region q = s.region q) ∧ p t)
    let fails := fun (g : Region) (cause detail : Nat) => (s.ctx c).resident = true → (s.ctx c).win.efclk ≠ s.clock + 1 →
      ends true g (fun t => FaultRecord t c r cause detail)
    let spBut := fun (t : State) (l : List (Nat × Nat)) => ∀ a, (∀ g ∈ l, a < k * 2 ^ 24 + g.1 ∨ k * 2 ^ 24 + g.1 + g.2 ≤ a) →
      memByte t.mem.sp a = memByte s.mem.sp a
    (r.op = 0x10 → r.acc = [] → (p1 + 16 ≤ patRecs r.pat ∨ patRecs r.pat + 64 ≤ p1) →
      let line := ownBytes s k p0 128
      let node := pw r.pat 3 % 2 == 1
      let named := fun (v code new : Nat) (g : Region) => ends false g (fun t => (code = 0 → ownBytes t k p1 16 = v % 2 ^ 128) ∧
        ownBytes t k (patRecs r.pat) 64 = code + 2 ^ 8 * (if code = 0 then 1 else 0) + 2 ^ 24 * new ∧
        spBut t ((if code = 0 then [(p1, 16)] else []) ++ [(patRecs r.pat, 64)]))
      (line = 0 → named 0 0 0 reg) ∧
      (line ≠ 0 → node = true → (∃ x ∈ children line, x ≠ 0 ∧ reg.known x = false) → fails reg 0x60 0) ∧
      (line ≠ 0 → (node = true → ∀ x ∈ children line, x ≠ 0 → reg.known x = true) →
        (∀ v new, (reg.lookup node line).2 = .name v new → named v 0 new.toNat (reg.lookup node line).1) ∧
        ((reg.lookup node line).2 = .collex → named 0 2 0 (reg.lookup node line).1) ∧
        ((reg.lookup node line).2 = .nfull → named 0 3 0 (reg.lookup node line).1))) ∧
    (r.op = 0x11 → r.todo = [0] → r.left = List.range 8 →
      let v := ownBytes s k p0 16
      (v = 0 → ends false reg (fun t => ownBytes t k p1 128 = 0 ∧ spBut t [(p1, 128)])) ∧
      (∀ l, v ≠ 0 → reg.find v = some l → l.bad = false → ends false reg (fun t => ownBytes t k p1 128 = l.data % 2 ^ 1024 ∧
        spBut t [(p1, 128)])) ∧
      (v ≠ 0 → reg.find v = none → fails reg 0x60 0)) ∧
    (r.op = 0x12 ∨ r.op = 0x13 → r.acc = [] →
      let v := ownBytes s k p0 16
      (v = 0 → ends false reg (fun t => t.mem = s.mem)) ∧
      (v ≠ 0 → reg.find v = none → fails reg 0x60 0) ∧
      (∀ l, v ≠ 0 → reg.find v = some l → l.bad = false →
        ends false (if r.op = 0x12 then reg.inc v else reg.dec v) (fun t => t.mem.sp = s.mem.sp))) ∧
    (r.op = 0x14 → r.acc = [] → p0 % 32 = 0 → OwnRange s k r p0 32 → (p0 + 32 ≤ patRecs r.pat ∨ patRecs r.pat + 64 ≤ p0) →
      let expected := ownBytes s k p1 32
      let new := ownBytes s k (p1 + 32) 32
      let seen := ownBytes s k p0 32
      let name := new % 2 ^ 128
      let counted := if name = 0 then reg else reg.inc name
      let old := if seen = expected then expected % 2 ^ 128 else name
      (name ≠ 0 → reg.known name = false → fails reg 0x60 0) ∧
      ((name = 0 ∨ reg.known name = true) → ends false (if old = 0 then counted else counted.dec old) (fun t =>
        ownBytes t k p0 32 = (if seen = expected then new else seen) ∧
        ownBytes t k (patRecs r.pat) 64 = (if seen = expected then 0 else 1) + 2 ^ 256 * seen ∧
        spBut t [(p0, 32), (patRecs r.pat, 64)]))) ∧
    (∀ v, r.op = 0x15 → r.acc = [v] → r.todo = [] → r.left = List.range 8 → r.depth = 0 → p1 % 128 = 0 → OwnRange s k r p1 128 →
      (v = 0 → ends false reg (fun t => ownBytes t k p1 128 = 0 ∧ spBut t [(p1, 128)])) ∧
      (∀ l, v ≠ 0 → nameNode v = false → reg.find v = some l → l.bad = false → ends false reg (fun t =>
        ownBytes t k p1 128 = l.data % 2 ^ 1024 ∧ spBut t [(p1, 128)])) ∧
      (v ≠ 0 → nameNode v = true → fails reg 0x61 0)) ∧
    (r.op = 0x16 → r.todo = [0] → r.left = [0] →
      ends false reg (fun t => ownBytes t k p1 16 = reg.stat (ownBytes s k p0 16) % 2 ^ 128 ∧ spBut t [(p1, 16)]))

/-- R248. -/
def Obligations.NameCounts : Prop :=
  ∀ (g : Region) (v : Nat) (l : Line), g.find v = some l → (∀ x ∈ g.lines, x.named v = true → x = l) → g.stats.length = 7 → l.count < 2 ^ 24 →
    (l.count = 0xFFFFFF → g.inc v = g ∧ g.dec v = g) ∧
    (l.count < 0xFFFFFF → (g.inc v).find v = some { l with count := l.count + 1 } ∧ l.count + 1 < 2 ^ 24 ∧
      (g.inc v).stats.getD 2 0 = (if l.count + 1 = 0xFFFFFF then (g.stats.getD 2 0 + 1) % 2 ^ 64 else g.stats.getD 2 0)) ∧
    (1 < l.count → l.count < 0xFFFFFF → (g.dec v).find v = some { l with count := l.count - 1 }) ∧
    (l.count ≤ 1 → (g.dec v).find v = none) ∧
    (∀ u, (nameHash u, nameNode u, nameOrd u) ≠ (nameHash v, nameNode v, nameOrd v) →
      (g.inc v).find u = g.find u ∧ (g.dec v).find u = g.find u)

/-- R243, R246, R247, R249, R258, Table 11.1: one lookup-or-allocate; the reclaimer, its pending decrements and freed ordinals taken in
any order, as log entry 29 says. -/
def Obligations.NameTable : Prop :=
  (∀ (g : Region) (node : Bool) (line : Nat),
    let h := lineHash g.salt g.hwidth node line
    let taken := fun (i : Nat) => i ∈ g.used h node ∨ (h = 0 ∧ node = false ∧ i = 0)
    ((∃ l ∈ g.lines, l.hash = h ∧ l.node = node ∧ l.bad = true) → g.lookup node line = (g, .bad)) ∧
    ((∀ l ∈ g.lines, l.hash = h → l.node = node → l.bad = false) →
      (∀ l, g.lines.find? (fun x => x.hash == h && x.node == node && x.data == line) = some l →
        g.lookup node line = (g.inc (mkName h node l.ord), .name (mkName h node l.ord) false)) ∧
      (g.lines.find? (fun x => x.hash == h && x.node == node && x.data == line) = none →
        ((∀ i < 128, taken i) → (g.lookup node line).2 = .collex ∧ (g.lookup node line).1.lines = g.lines) ∧
        (∀ i, i < 128 → ¬ taken i → (∀ j < i, taken j) →
          let held := g.lines.length + g.freeing.length
          (g.tentries ≤ held ∨ g.hsize / 128 ≤ held → (g.lookup node line).2 = .nfull ∧ (g.lookup node line).1.lines = g.lines) ∧
          (held < g.tentries → held < g.hsize / 128 → (g.lookup node line).2 = .name (mkName h node i) true ∧
            ((g.lookup node line).1.lines.map (fun x => (x.hash, x.node, x.ord, x.data)) =
              (g.lines ++ [(⟨h, node, i, line, 1, false⟩ : Line)]).map (fun x => (x.hash, x.node, x.ord, x.data))) ∧
            (node = false → (g.lookup node line).1.lines = g.lines ++ [⟨h, node, i, line, 1, false⟩])))))) ∧
  (∀ (s : State) (r n : Nat), let g := s.region r
    let done := fun (t : State) (g' : Region) => t.region r = g' ∧ (∀ q, q ≠ r → t.region q = s.region q) ∧ t.ctxs = s.ctxs ∧
      (s.mem.loose.any (Loose.meets Space.dram.code (g.desc + 0x30) 56) = false →
        ∀ i < 7, g.stats.getD i 0 ≠ g'.stats.getD i 0 → t.readN .dram (g.desc + 0x30 + 8 * i) 8 = g'.stats.getD i 0 % 2 ^ 64)
    (∀ v, g.pend[n]? = some v → Gives (.reclaimDecrement r n) s (fun t =>
      done t ((({ g with pend := g.pend.eraseIdx n } : Region).bump 6 (-1)).dec v))) ∧
    (g.pend[n]? = none → Gives (.reclaimDecrement r n) s (fun t => t.mem = s.mem ∧ done t g)) ∧
    Gives (.ordinalRelease r n) s (fun t => done t { g with freeing := g.freeing.eraseIdx n }))

/-- R54, R58 to R60, R65, R69 to R73, R179, Tables 3.7 to 3.17 and 6.3. -/
def Obligations.RoundTrip : Prop :=
  ∀ (i : Instr) (k w : Nat), i.word = some (k, w) → i.wf = true →
    decodeSlot k w = some (some i) ∧ w < 2 ^ (slotPlace k).2 ∧
    (i.isNop = false → ∃ b, decodeLiteral (encode i) = .ok (b, []) ∧ b.hdr = Header.none ∧ b.slots.filter (fun p => !p.2.isNop) = [(k, i)] ∧
      b.instr = i)

/-- The worked encodings of chapters 3, 6, 8, 10 and 11. -/
def Obligations.DecodeWords : Prop :=
  decodeSlot 4 0x140D00300000 = some (some (.copyMove 0x40D 0x003)) ∧
  decodeSlot 5 0x331000100296 = some (some (.vaLut3 ⟨0, 1, 2, 0x96⟩)) ∧
  decodeSlot 6 0x430500000003 = some (some (.immediateMove 0x305 3)) ∧
  decodeSlot 4 0x202338638600 = some (some (.saMov ⟨0x386, 0x386, false, false, 0⟩)) ∧
  decodeSlot 4 0x221134138800 = some (some (.vst ⟨0x341, 0x388, 0, 0, 0⟩)) ∧
  decodeSlot 3 0x18C08000C000 = some (some (.loop 0x302 3 false)) ∧
  decodeSlot 1 0x05310141FFF7F000 = some (some (.mstep ⟨1, 3, false, false, false, true, false, 0, false, 5, 1, 63, 63, 127, 0⟩)) ∧
  decodeSlot 1 0x141201BFFFF00620 = some (some (.mfin ⟨0, 1, false, false, true, false, false, 0, false, 6, 63, 63, 63, 0, 98⟩)) ∧
  decodeSlot 2 0x04CA103FFE800000 = some (some (.cpy ⟨3, 5, 2, 1, 63, 63, false, 4, false, 0⟩)) ∧
  decodeSlot 2 0x04000FFFFE000000 = some (some (.cpy ⟨0, 0, 1, 63, 63, 63, false, 0, false, 0⟩)) ∧
  decodeSlot 2 0x404027FFFE000000 = some (some (.nput ⟨1, 0, 4, 63, 63, 63, false, 0, false, 0⟩)) ∧
  decodeSlot 2 0x5080309FFE800000 = some (some (.nswap ⟨2, 0, 6, 4, 63, 63, false, 4, false, 0⟩))

/-- R54. -/
def Obligations.LiteralOrder : Prop :=
  ∀ (ws rest : List Nat), ws.length = 24 → (∀ w ∈ ws, w < 65536) →
    (∀ k < 24, fld (ofWords16 ws) (16 * k) 16 = ws.getD k 0) ∧ slotBits (ofWords16 ws) 0 = ws.getD 23 0 ∧
    decodeLiteral (0xFFFF :: ws ++ rest) = (match decodeBundle (ofWords16 ws) with
      | .ok b => .ok (b, rest)
      | .error e => .error (.illegalBundle e)) ∧
    ∀ (s : State) (c w : Nat), (∀ k < 24, s.fetchWord c (w + k) = .word (ws.getD k 0)) → s.fetchLiteral c w 24 [] = .bundle (ofWords16 ws) 25

/-- R72, R74. -/
def Obligations.NopSlots : Prop :=
  (∀ (w : Nat), (w < 2 ^ 64 → fld w 58 6 = 0 →
        decodeSlot 1 w = (if w = 0 then some (some .mxNop) else none) ∧ decodeSlot 2 w = (if w = 0 then some (some .cpNop) else none)) ∧
      (w < 2 ^ 48 → fld w 42 6 = 0 → decodeSlot 3 w = if w = 0 then some (some .ctNop) else none)) ∧
  (∀ (b : Nat), ((slotBits b 1 ≠ 0 ∧ fld (slotBits b 1) 58 6 = 0) ∨ (slotBits b 2 ≠ 0 ∧ fld (slotBits b 2) 58 6 = 0) ∨
        (slotBits b 3 ≠ 0 ∧ fld (slotBits b 3) 42 6 = 0)) →
      ∃ e, decodeBundle b = .error e ∧ ∀ (s : State) (c len : Nat), issueBits s c b len = trapBundle s c 0x01 e (if len = 25 then 1 else 0)) ∧
  (∃ g, decodeBundle 0 = .ok g ∧ g.hdr = Header.none ∧ ∀ p ∈ g.slots, p.2.isNop = true) ∧
  (∀ (s : State), CanIssue s → ¬ AtLoopEnd s →
    (∃ t, issueBits (begun s) s.cur 0 (lenOf s) = t ∧ OnlyContext s t ∧ FallsThrough s t ∧ SamePorts s t ∧ SameRegs s t) ∧
    ∀ i ∈ [Instr.mxNop, .cpNop, .ctNop], Gives i s (fun t => OnlyContext s t ∧ FallsThrough s t ∧ SamePorts s t ∧ SameRegs s t))

/-- R52, R53, R58, R86. That a step performs an input by its meaning, or lets the device go on, in an order of the model's own, is log
entry 1; that what goes on beside the bundles comes before either is log entry 65. -/
def Obligations.StepRunsDecoded : Prop :=
  ∀ (s : State),
    (∀ i rest, s.inputs = i :: rest → step s = exec i { s.progress with inputs := rest }) ∧
    (s.moves = [] → s.progress = s) ∧
    (∀ c b len g k i w, let v := s.progress
      s.inputs = [] → v.forced = none → v.pick = some (.issue c) →
      let u := ({ v with cur := c } : State).settled c
      (v.ctx c).resident = true → (v.ctx c).seq.wake ≤ v.clock → (v.ctx c).seq.wait = none → (u.ctx c).seq.pend = none →
      (u.ctx c).seq.fpx = none → u.fetch c = .bundle b len → decodeBundle b = .ok g → g.hdr = Header.none → bundleWork g = [(k, i)] →
      i.word = some (k, w) → step s = exec i { v with cur := c })

/-- R53, R55, R57, R58, R66, R74, R293, R294, R50. That an FP exception enters alone where the next bundle would wait for a fetch or a walk
is log entry 25; that a bundle which is not fetched yet waits with slack 0 is log entry 53. -/
def Obligations.BundleIssue : Prop :=
  ∀ (s : State) (c : Nat),
    let u := ({ s with cur := c } : State).settled c
    let x := s.ctx c
    ((x.resident = false ∨ s.clock < x.seq.wake) → exec (.bundleIssue c) s = .next s) ∧
    (∀ w, x.resident = true → x.seq.wake ≤ s.clock → x.seq.wait = some w →
      (w.stalls = false ∨ x.sched.stall.isSome = true → exec (.bundleIssue c) s = .next s) ∧
      (w.stalls = true → x.sched.stall = none → exec (.bundleIssue c) s = .next (beginStall s c (s.nextHeader c) []))) ∧
    (x.resident = true → x.seq.wake ≤ s.clock → x.seq.wait = none →
      (∀ p, (u.ctx c).seq.pend = some p → exec (.bundleIssue c) s = .next (trapBundle u c p.cause p.tval (u.litAt c x.seq.pc))) ∧
      ((u.ctx c).seq.pend = none → ∀ pc, (u.ctx c).seq.fpx = some pc →
        (u.nextTrap c = none → exec (.bundleIssue c) s = .next (trapBundle u c 0x0E pc (u.litAt c (u.ctx c).seq.pc))) ∧
        (∀ a v l, u.nextTrap c = some (a, v, l) → exec (.bundleIssue c) s = .next (trapBundle u c a v l))) ∧
      ((u.ctx c).seq.pend = none → (u.ctx c).seq.fpx = none →
        (∀ a v l, u.fetch c = .trap a v l → exec (.bundleIssue c) s = .next (trapBundle u c a v l)) ∧
        (u.fetch c = .words → exec (.bundleIssue c) s = .next (beginStall u c Header.none [])) ∧
        (∀ n, u.fetch c = .refill n → x.sched.stall = none → Gives (.bundleIssue c) s (fun t => (t.ctx c).sched.stall = some (s.clock, 0) ∧
          (t.ctx c).regs = x.regs ∧ (t.ctx c).seq.pc = x.seq.pc ∧ t.mem = s.mem ∧ Fetch.refill c n ∈ look [] t.fetches (coreOf c))) ∧
        (∀ b len, u.fetch c = .bundle b len →
          (∀ e, decodeBundle b = .error e → exec (.bundleIssue c) s = .next (trapBundle u c 0x01 e (if len = 25 then 1 else 0))) ∧
          (∀ g, decodeBundle b = .ok g →
            let l := bundleSems u (bundleWork g)
            (∀ a v, attemptSlots u c g.hdr l = .trap a v → exec (.bundleIssue c) s = .next (trapBundle u c a v (if len = 25 then 1 else 0))) ∧
            (attemptSlots u c g.hdr l = .go →
              exec (.bundleIssue c) s = .next (finishBundle (holdUnits (runPhases l u) c l) c len g.hdr l).draw) ∧
            (∀ ws, attemptSlots u c g.hdr l = .stall ws → exec (.bundleIssue c) s = .next (beginStall u c g.hdr ws))))))

/-- The model's own fault (R86 issues no slot of such a context). -/
def Obligations.NextOrNoContext : Prop :=
  (∀ (i : Instr) (s : State), (∃ t, exec i s = .next t) ∨
      (exec i s = .fault .noContext ∧ (s.ctx s.cur).resident = false ∧ i.word.isSome = true)) ∧
  (∀ (i : Instr) (s : State), i.word.isSome = true → (s.ctx s.cur).resident = false → exec i s = .fault .noContext) ∧
  (∀ (s : State), s.inputs = [] → ∃ t, step s = .next t)

/-- R117 to R120, R128, R132, R304. That `ewait` reports the error of any token is log entry 32; that with a request outstanding a wait
which is a point is not gone on from is R304, that beside a weir wait both are to be points is log entry 56. -/
def Obligations.WaitsEnd : Prop :=
  ∀ (s : State) (c : Nat), let x := s.ctx c
    let k := coreOf c
    let ends := fun (i : Instr) (p : State → Prop) => Gives i s (fun t => (t.ctx c).seq.wait = afterWait x ∧ (t.ctx c).regs = x.regs ∧
      (t.ctx c).traps = x.traps ∧ (t.ctx c).win = x.win ∧ (t.ctx c).ports = x.ports ∧ (t.ctx c).seq.pc = x.seq.pc ∧ p t)
    let mine := fun (f : Fresh) => f.ofOwner x.sched.job x.sched.place = true
    x.resident = true →
    (∀ mask soft, x.seq.wait = some (.tokens mask soft) →
      let low := (List.range 64).find? (fun t => bitAt mask t && x.tokErr t)
      ((∃ t < 64, bitAt mask t = true ∧ x.tokSet t = false) ∨ x.stopped = true → exec (.twaitComplete c) s = .next s) ∧
      ((∀ t < 64, bitAt mask t = true → x.tokSet t = true) → x.stopped = false → ends (.twaitComplete c) (fun t => t.mem = s.mem ∧
        (∀ f ∈ (t.core k).fresh, bitAt x.win.ways f.way = true → ∀ n, bitAt mask n = true → n ∉ f.acq ∧ (mine f → n ∉ f.touts)) ∧
        (soft = true → (t.ctx c).seq.kcond = setK x.seq.kcond 15 low.isSome ∧ (t.ctx c).seq.pend = x.seq.pend) ∧
        (soft = false → (t.ctx c).seq.kcond = x.seq.kcond ∧
          (t.ctx c).seq.pend = (match low with | some n => some ⟨0x0F, n⟩ | none => x.seq.pend))))) ∧
    (x.seq.wait = some .engines → let busy := s.engineBusy x.sched.job x.sched.place (fun _ _ _ => true)
      (busy = true → exec (.ewaitComplete c) s = .next s) ∧
      (busy = false → ends (.ewaitComplete c) (fun t => t.mem = s.mem ∧
        (∀ f ∈ (t.core k).fresh, bitAt x.win.ways f.way = true → ¬ mine f ∧ f.acq = []) ∧
        (t.ctx c).seq.kcond = setK x.seq.kcond 15 ((List.range 64).any (fun n => x.tokErr n))))) ∧
    (∀ a thr v, x.seq.wait = some (.counter a thr) → watchRead s c a = some v →
      let u := watchMark s c a
      ((∀ f, (watchTarget s c a).bind (·.leaf) = some f → bitAt f.pte 11 = true) → u = s) ∧
      (v < thr ∨ x.stopped = true → exec (.cwaitComplete c) s = .next u) ∧
      (thr ≤ v → x.stopped = false → ends (.cwaitComplete c) (fun t => t.mem = u.mem ∧
        ∀ f ∈ (t.core k).fresh, bitAt x.win.ways f.way = true → mine f ∧ f.counter = 0))) ∧
    (∀ a thr, x.seq.wait = some (.counter a thr) → watchRead s c a = none → exec (.cwaitComplete c) s = .next s) ∧
    (x.seq.wait = some .drain → (x.remotePending = true → exec (.drainComplete c) s = .next s) ∧
      (x.remotePending = false → ends (.drainComplete c) (fun t => t.mem = s.mem))) ∧
    (x.seq.wait = some .xfence → (s.xcpyPending x = true → exec (.xfenceComplete c) s = .next s) ∧
      (s.xcpyPending x = false →
        ((∀ d ∈ s.mem.loose, ¬ OwnLoose x d) → ends (.xfenceComplete c) (fun t => t.mem = s.mem)) ∧
        (∀ d, s.mem.loose.filter (fun e => e.job == x.sched.job && e.place == x.sched.place) = [d] → d.space < 4 →
          Gives (.xfenceComplete c) s (fun t => (t.ctx c).seq.wait = afterWait x ∧ (t.ctx c).regs = x.regs ∧
            (∀ e ∈ t.mem.loose, ¬ OwnLoose x e) ∧ t.readN (Space.ofCode d.space) d.addr d.len = d.val % 2 ^ (8 * d.len) ∧
            SameBytesBut s t (Space.ofCode d.space) d.addr d.len)))) ∧
    (x.seq.wait = some .fsync → ends (.fsyncComplete c) (fun t => ({ t.mem with l1 := [] } : Mem) = { s.mem with l1 := [] } ∧
      (∀ d ∈ ctxsOf k, (t.ctx d).seq.path = none) ∧
      ∀ j, (∀ m ∈ (t.core j).maint, m.ofOwner x.sched.job x.sched.place = false) ∧
        ∀ m ∈ (s.core j).maint, m.ofOwner x.sched.job x.sched.place = true →
          (m.inv = true → (∀ e ∈ (t.core j).dict, m.covers s j e.2.va = true → e.2.valid = false) ∧
            ∀ e ∈ (t.core j).icache, m.covers s j (e.1 % 2 ^ 55) = false) ∧
          (m.inv = false → ∀ e ∈ t.mem.l1, e.core = j → m.meets s j e.place = false))) ∧
    (∀ q pkt, x.seq.wait = some (.push q pkt) → (s.hasSlot q = false → exec (.qpushSlotFree c) s = .next s) ∧
      (s.hasSlot q = true → Gives (.qpushSlotFree c) s (fun t => t.ctxs = (s.modCtx c (fun y => y.endWait s.clock)).ctxs ∧
        (t.ctx c).seq.wait = afterWait x ∧
        t.mem = (s.pushSlot q pkt x.sched.job).mem ∧ t.miller = (s.pushSlot q pkt x.sched.job).miller)))

/-- R127, R197, R199, R200: ways; which ways a context takes while others wait to take some is log entry 31. R125, R126, R190, R335: weir
barriers; a weir wait stands beside a wait of the same bundle's control slot, as log entry 56 says. -/
def Obligations.WaysAndWeirs : Prop :=
  (
  ∀ (s : State) (c : Nat), let x := s.ctx c
    let k := coreOf c
    let inWay := fun (w b : Nat) => k * 2 ^ 24 + w * 2 ^ 20 ≤ b ∧ b < k * 2 ^ 24 + (w + 1) * 2 ^ 20
    x.resident = true →
    (∀ new, x.seq.wait = some (.split new) → new < 65536 → x.win.ways < 65536 → Gives (.splitConvert c) s (fun t =>
      (t.ctx c).win.ways = new ∧ (t.ctx c).win.wb ≤ 8192 * popcount 16 (new &&& notBits 16 x.win.ways) ∧
      (t.ctx c).seq.wait = afterWait x ∧ (t.ctx c).regs = x.regs ∧
      (∀ w < 16, t.way k w = if new.testBit w && !x.win.ways.testBit w then .owned x.sched.job c
        else if x.win.ways.testBit w && !new.testBit w then .cache else s.way k w) ∧
      (∀ v b, memByte (t.mem.store v) b = (if v = .sp ∧ ∃ w < 16, new.testBit w ≠ x.win.ways.testBit w ∧ inWay w b then memByte [] b
        else memByte (s.mem.store v) b)))) ∧
    (∀ mask, x.seq.wait = some (.ways mask) → mask < 65536 →
      ((∃ w < 16, mask.testBit w = true ∧ wayFree s c w = false) → exec (.bacqGrant c) s = .next s) ∧
      ((∀ w < 16, mask.testBit w = true → wayFree s c w = true) → Gives (.bacqGrant c) s (fun t =>
        (t.ctx c).win.ways = x.win.ways ||| mask ∧ (t.ctx c).seq.wait = afterWait x ∧ (t.ctx c).regs = x.regs ∧
        (∀ w < 16, t.way k w = if mask.testBit w then .owned x.sched.job c else s.way k w) ∧
        ((∀ w < 16, mask.testBit w = true → s.way k w = .owned x.sched.job c) → t.mem = s.mem ∧ t.engines = s.engines) ∧
        (∀ v b, memByte (t.mem.store v) b = (if v = .sp ∧ ∃ w < 16, mask.testBit w = true ∧ s.way k w = .cache ∧ inWay w b then memByte [] b
          else memByte (s.mem.store v) b)))))
  ) ∧
  (
  ∀ (s : State) (c g n : Nat) (step ppt : Bool), let x := s.ctx c
    x.resident = true → (x.seq.behind.isSome = true → x.weir = x.seq.behind) →
    (x.weir = some (.weir g n step ppt false) →
      (x.remotePending = true ∨ s.xcpyPending x = true → exec (.weirArrive c) s = .next s) ∧
      (x.remotePending = false → s.xcpyPending x = false → Gives (.weirArrive c) s (fun t =>
        look 0 (t.ctx c).sched.arrivals g = n ∧ WeirAt x (t.ctx c) (.weir g n step ppt true) ∧ (t.ctx c).regs = x.regs ∧
        (t.ctx c).ports = x.ports ∧ (∀ d ∈ t.mem.loose, ¬ OwnLoose x d) ∧
        (∀ j, ∀ m ∈ (t.core j).maint, m.ofOwner x.sched.job x.sched.place = true → m.inv = true) ∧
        ((∀ d ∈ s.mem.loose, ¬ OwnLoose x d) → (∀ w, t.mem.store w = s.mem.store w) ∧ ∀ d, d ≠ c → t.ctx d = s.ctx d)))) ∧
    (x.weir = some (.weir g n step ppt true) →
      let all := ∀ i ∈ gmPlaces s x g, ∀ y, s.ctxAt x.sched.job i = some y →
        y.seq.run = .halted ∨ y.seq.run = .killed ∨ n ≤ look 0 y.sched.arrivals g
      let known := ∀ i ∈ gmPlaces s x g, (s.ctxAt x.sched.job i).isSome = true
      let i := if step then Instr.superstepRelease c else .weirRelease c
      (known → all → (step = true → taggedBusy s x g = false) → x.stopped = false → releasePaused s c g = false → Gives i s (fun t =>
        (t.ctx c).seq.wait = (if x.seq.behind.isSome then x.seq.wait else afterWait x) ∧ (t.ctx c).seq.behind = none ∧
        (t.ctx c).regs = x.regs ∧ (t.ctx c).ports = x.ports ∧ (t.ctx c).seq.pc = x.seq.pc ∧
        (t.ctx c).seq.wstep = (if step then (x.seq.wstep + 1) % 2 ^ 32 else x.seq.wstep) ∧ t.mem = s.mem ∧
        ∀ d, d ≠ c → t.ctx d = s.ctx d)) ∧
      (¬ all ∨ (step = true ∧ taggedBusy s x g = true) ∨ x.stopped = true ∨ releasePaused s c g = true → exec i s = .next s) ∧
      (exec (if step then Instr.weirRelease c else .superstepRelease c) s = .next s))
  )

/-- R51, R77, R80, R109, R209, R214, R335, R356: results land, data arrive, stores are accepted, the wait for flag-raising operations ends.
A store to another core of the cluster is accepted at once, as log entry 12 says; which cycle of its window a result takes is free (log
entry 46). -/
def Obligations.Landings : Prop :=
  ∀ (s : State) (c n : Nat) (f : Flight), let x := s.ctx c
    x.bound = true → x.ports.flights[n]? = some f →
    let same := fun (t : State) => (t.ctx c).regs = x.regs ∧ (t.ctx c).traps = x.traps ∧ (t.ctx c).win = x.win ∧ t.mem.sp = s.mem.sp ∧
      (∀ d, d ≠ c → t.ctx d = s.ctx d)
    let arrives := fun (i : Instr) (g : Flight) (p : State → Prop) => Gives i s (fun t => same t ∧ p t ∧
      (x.seq.wait = none → ∃ draw, t.ctx c = (x.setFlight n g).settle draw) ∧
      (x.seq.wait ≠ none → (t.ctx c).ports.flights = x.ports.flights.set n g ∧ (t.ctx c).seq = x.seq))
    (x.mayLand n f = false → exec (.fuResultLand c n) s = .next s) ∧
    (x.mayLand n f = true → x.missing x.seq.cyc = false → Gives (.fuResultLand c n) s (fun t => same t ∧
      (t.ctx c).ports.flights.length < x.ports.flights.length ∧ (t.ctx c).fmts.fpstat ||| f.flags = (t.ctx c).fmts.fpstat)) ∧
    (f.landing.isNone = true → exec (.landingDataArrival c n false) s = .next s ∧ exec (.landingStoreAccepted c n) s = .next s ∧
      exec (.landingDue c n) s = .next s) ∧
    (∀ l err, f.landing = some l →
      (s.comes c l = false → exec (.landingDataArrival c n err) s = .next s ∧ exec (.landingStoreAccepted c n) s = .next s) ∧
      (s.comes c l = true → (∀ dst upto, x.seq.wait ≠ some (.fpstat dst upto)) →
        (f.val.isSome = true → (err = false ∨ l.hostOp = none) →
          arrives (.landingDataArrival c n err) { f with landing := some { l with arrived := true } } (fun t => t.mem = s.mem)) ∧
        (f.val.isNone = true →
          arrives (.landingStoreAccepted c n) { f with landing := some { l with arrived := true } } (fun t => t.mem = s.mem)) ∧
        (l.hostOp.isSome = true → err = true → s.miller.events.room = false → s.miller.events.buffer.length < 4096 →
          s.miller.events.folded = [] →
          arrives (.landingDataArrival c n err) { f with landing := some { l with arrived := true }, val := f.val.map (fun _ => PVal.zero) }
            (fun t => ∃ r, t.miller.events.buffer = s.miller.events.buffer ++ [r] ∧ r % 256 = 3))) ∧
      (∀ dst upto, s.comes c l = true → x.resident = true → x.seq.wait = some (.fpstat dst upto) → 0x300 ≤ dst → dst < 0x370 →
        err = false → f.val.isSome = true →
        let y := x.setFlight n { f with landing := some { l with arrived := true } }
        (y.missing upto = true → Gives (.landingDataArrival c n err) s (fun t => (t.ctx c).seq.wait = x.seq.wait ∧ (t.ctx c).regs = x.regs)) ∧
        (y.missing upto = false → Gives (.landingDataArrival c n err) s (fun t => (t.ctx c).seq.wait = afterWait x ∧
          (t.ctx c).seq.cyc = upto + 1 ∧ (t.ctx c).fmts.fpstat = (y.runOn (s.landDraw c) upto).fmts.fpstat ∧
          (t.ctx c).regs = (withScalar x dst (y.runOn (s.landDraw c) upto).fmts.fpstat).regs)))) ∧
    (f.landing.isSome = true → f.hi ≤ x.seq.cyc → x.missing x.seq.cyc = true → s.ready c = true → x.seq.wait = none →
      Gives (.landingDue c n) s (fun t => same t ∧ (t.ctx c).sched.stall.isSome = true ∧ (t.ctx c).ports = x.ports ∧ (t.ctx c).seq = x.seq)) ∧
    (f.landing.isSome = true → f.hi ≤ x.seq.cyc → x.missing x.seq.cyc = false → Gives (.landingDue c n) s (fun t => same t ∧ t.mem = s.mem ∧
      t.ctx c = x.settle (s.landDraw c) ∧ ∀ g ∈ (t.ctx c).ports.flights, x.seq.cyc < g.hi)) ∧
    (f.landing.isSome = true → x.seq.cyc < f.hi → exec (.landingDue c n) s = .next s)

/-- R83, R86, R88, R131: slack, yields, format shadows, starvation. R55, R57, R105, R320, R323: walks, refills, index words. Which of the
memory's and of the held table entries a walk reads is log entry 30. -/
def Obligations.SelectorAndFetch : Prop :=
  (
  ∀ (s : State) (c : Nat), let x := s.ctx c
    (∀ a n, x.sched.stall = some (a, n) →
      (a + n ≤ s.clock → Gives (.slackExpire c) s (fun t => t = s.modCtx c (fun y => { y with sched := { y.sched with yielded := true } }) ∧
        t.holds c = false)) ∧
      (s.clock < a + n → exec (.slackExpire c) s = .next s)) ∧
    (x.sched.stall = none → exec (.slackExpire c) s = .next s) ∧
    (∀ a, x.sched.yieldAt = some a →
      (a + 64 ≤ s.clock → Gives (.yieldExpire c) s (fun t =>
        t = s.modCtx c (fun y => { y with sched := { y.sched with yieldAt := none } }))) ∧
      (s.clock < a + 64 → exec (.yieldExpire c) s = .next s)) ∧
    (x.sched.yieldAt = none → exec (.yieldExpire c) s = .next s) ∧
    (Gives (.formatShadowEnd c) s (fun t => (t.ctx c).fmts = { (x.fmts.shadow.filter (fun w => w.2.2 == 0)).foldl
        (fun h w => h.applyWrite w.1 w.2.1) x.fmts with shadow := x.fmts.shadow.filter (fun w => w.2.2 != 0) } ∧
      (t.ctx c).regs = x.regs ∧ (t.ctx c).ports = x.ports ∧ (t.ctx c).seq = x.seq ∧ t.mem = s.mem ∧ ∀ d, d ≠ c → t.ctx d = s.ctx d)) ∧
    (s.ready c = true → x.sched.readySince + 4096 ≤ s.clock → Gives (.starvationIssue c) s (fun t => exec (.bundleIssue c) s = .next t)) ∧
    (s.ready c = false ∨ s.clock < x.sched.readySince + 4096 → exec (.starvationIssue c) s = .next s)
  ) ∧
  (
  ∀ (s : State), (∀ (k n asid root page : Nat), s.fetchAt k n = some (.walk asid root page) →
      let w := Fetch.walk asid root page
      let d := dieOf k
      (w ∉ (s.die d).walks.take 256 → exec (.pageWalkComplete k n) s = .next s) ∧
      (w ∈ (s.die d).walks.take 256 → Gives (.pageWalkComplete k n) s (fun t =>
        look [] t.fetches k = (look [] s.fetches k).erase w ∧ (t.die d).walks = (s.die d).walks.erase w ∧ t.mem = s.mem ∧
        (∀ f, s.walkBy d asid root (page * 65536) = some f → (t.core k).tlb.head? = some ⟨asid, page, f.level, f.pte, f.addr⟩ ∧
          ((s.core k).tlb.length ≤ 256 → (t.core k).tlb.length ≤ 256)) ∧
        (s.walkBy d asid root (page * 65536) = none → (t.core k).tlb = (s.core k).tlb ∧ ∀ c ∈ ctxsOf k,
          (s.ctx c).bound = true → (s.ctx c).sched.asid = asid → (s.ctx c).sched.stall.isSome = true → page ∈ (t.ctx c).sched.faults) ∧
        ∀ d, (t.ctx d).regs = (s.ctx d).regs ∧ (t.ctx d).seq = (s.ctx d).seq ∧ (t.ctx d).ports = (s.ctx d).ports))) ∧
    (∀ d asid root va, (s.die d).tables = [] →
      s.walkBy d asid root va = (walk s.mem.dram root va).map (fun f => { f with asid := asid })) ∧
    (∀ (k n c m : Nat) (e r : DictEntry), s.fetchAt k n = some (.refill c m) → (s.core k).dict.find? (fun p => p.1 == m) = some (m, e) →
      s.refilled k e = some r → s.mem.l1 = [] → Gives (.dictRefillComplete k n) s (fun t =>
        look [] t.fetches k = (look [] s.fetches k).eraseIdx n ∧ (t.core k).dict = put (s.core k).dict m r ∧ r.valid = true ∧
        r.bundle = ofWords16 ((List.range 24).map (fun i => s.readPlace (r.wordPlace i) 2)))) ∧
    (∀ (c : Nat) (f : Leaf), let x := s.ctx c
      let w := x.seq.pc
      let va := x.seq.base + 2 * w
      x.resident = true → x.seq.wait = none → x.seq.pend = none → x.seq.fpx = none → s.fetch c = .words → s.fetchWord c w = .miss →
      s.inSegment x w = true → s.fetchLeaf (coreOf c) x.sched.job va = some f →
      s.readPlace (leafTarget f va).place 2 ≠ 0xFFFF → (s.codeRead (coreOf c) x.sched.job va 2).mem = s.mem → s.mem.l1 = [] →
      Gives (.indexWordFetchComplete c) s (fun t => t.mem = s.mem ∧ (t.ctx c).regs = x.regs ∧ (t.ctx c).sched.stall = none ∧
        t.fetchWord c w = .word (s.readPlace (leafTarget f va).place 2))) ∧
    (∀ (c : Nat), let x := s.ctx c
      x.resident = true → s.fetch c ≠ .words → exec (.indexWordFetchComplete c) s = .next s) ∧
    (∀ (c : Nat), let x := s.ctx c
      (x.seq.limit ≤ x.seq.pc ∨ (∀ r ∈ (s.loaded x.sched.job).sections, ¬ (r.1 ≤ x.seq.base + 2 * x.seq.pc ∧
        x.seq.base + 2 * x.seq.pc + 2 ≤ r.1 + r.2))) → s.fetch c = .trap 0x09 x.seq.pc 0)
  )

/-- R339 to R348, R325, R326, Tables 20.3 to 20.7: packets are checked and taken. What the Miller translates by is log entry 30; that a NODE is
accepted whatever its waits is log entry 42. -/
def Obligations.PacketsStart : Prop :=
  ∀ (s : State) (q : Nat),
    let u := s.queue q
    let r := s.readIndex u
    let p := s.headPacket q
    let f := pktField p
    let job := s.headJob q
    let moved := fun (t : State) => t.readN u.lineSpace (u.line + 64) 4 = (r + s.headSlots q) % 2 ^ 32
    let live := s.queueLive q = true ∧ u.valid ≠ some r ∧ 1 ≤ s.held u ∧ s.headSlots q ≤ s.held u
    let reason := s.badReason p (fld u.qcfg 8 3) (bitAt u.qcfg 4) job (decide (u.slots < s.held u))
    (¬ live → exec (.packetValidate q) s = .next s) ∧
    (live → reason = none → Gives (.packetValidate q) s (fun t => t.queue q = { u with valid := some r } ∧ OtherQueues s t q ∧
      t.mem = ((s.meetHead q).useWaits job p).mem ∧ (job = none → t.mem = s.mem))) ∧
    (∀ e, live → reason = some e → Gives (.packetValidate q) s (fun t => t.queue q = { u with st := 2, reason := e, slot := r, valid := none } ∧
      OtherQueues s t q ∧ t.miller.taken = s.miller.taken ∧ t.mem.dram = s.mem.dram)) ∧
    (s.hasTurn q 1 = false → exec (.launch q) s = .next s) ∧ (s.hasTurn q 2 = false → exec (.wait q) s = .next s) ∧
    (s.hasTurn q 3 = false → exec (.signal q) s = .next s) ∧ (s.hasTurn q 4 = false → exec (.node q) s = .next s) ∧
    (s.hasTurn q 5 = false → exec (.copy q) s = .next s) ∧ (s.hasTurn q 6 = false → exec (.tlbi q) s = .next s) ∧
    (∀ i ∈ [(Instr.wait q, 2), (.signal q, 3)], s.hasTurn q i.2 = true → Gives i.1 s (fun t =>
      Takes s t q job (some ((s.addressStatus job p).getD 0, 0)) ∧ moved t ∧ t.ctxs = s.ctxs ∧ t.miller.nodes = s.miller.nodes)) ∧
    (s.hasTurn q 1 = true → Gives (.launch q) s (fun t => t.mem.sp = s.mem.sp ∧
      (job = none → bitAt (f 0x54 2) (f 0x52 1) = false ∨ (s.region (f 0x52 1)).inst = false → t.mem = s.mem) ∧ t.miller.taken = s.miller.taken ∧ SameContexts s t ∧
      ∃ b, t.job (s.miller.count + 1) = some b ∧ b.st = 0 ∧ b.id = q * 2 ^ 32 + r ∧ b.prio = pktPrio p ∧ b.pkt = p ∧ b.parent = job)) ∧
    (s.hasTurn q 4 = true → Gives (.node q) s (fun t => moved t ∧ t.ctxs = s.ctxs ∧
      let id := f 0x40 2
      if (s.node id).defined then Takes s t q job (some (5, 0)) ∧ t.miller.nodes = s.miller.nodes
      else Takes s t q job none ∧ t.node id = ⟨count32 ((s.node id).count + (f 0x42 2 : Int)), true, q, s.miller.count + 1,
        (List.range (min 8 (f 0x44 1))).map (fun i => f (0x48 + 2 * i) 2), f 0x58 8, job, false⟩)) ∧
    (s.hasTurn q 6 = true → Gives (.tlbi q) s (fun t =>
      let page := tlbiPage (f 0x40 1) (f 0x42 2) (f 0x48 8) (f 0x44 4)
      let via := fun (v : Via) => page v.asid v.page v.level v.glob
      let stays := fun (e : TlbEntry) => !page e.asid e.page e.level (bitAt e.pte 10)
      (s.mem.loose = [] → moved t) ∧ Takes s t q none (some ((s.addressStatus none p).getD 0, 0)) ∧
      (∀ k, (t.core k).tlb = (s.core k).tlb.filter stays) ∧ (∀ d n, (t.die d).tlb n = ((s.die d).tlb n).filter stays) ∧
      (∀ d, ∀ e ∈ (t.die d).tables, e ∈ (s.die d).tables ∧ f 0x40 1 = 2 ∧ e.1 ≠ f 0x42 2) ∧
      (∀ k, (∀ e ∈ (t.core k).dict, via e.2.via = true ∨ via e.2.viab = true → e.2.valid = false) ∧
        ∀ e ∈ (t.core k).icache, via e.2.via = false) ∧
      t.mem.locked = s.mem.locked.filter (fun l => !via l.via) ∧ (∀ e ∈ t.mem.l1, ∀ v ∈ e.vias, via v = false) ∧
      ∀ d ∈ t.mem.loose, d.space ≠ 1 → via d.via = false)) ∧
    (s.hasTurn q 5 = true →
      let plain := f 0x58 1 == 0
      (∀ e, s.addressStatus job p = some e → Gives (.copy q) s (fun t => Takes s t q job (some (e, 0)) ∧ moved t)) ∧
      (s.addressStatus job p = none → Gives (.copy q) s (fun t => Takes s t q job none ∧ moved t ∧ t.mem = (s.takeHead q).mem ∧ t.ctxs = s.ctxs ∧
        ∃ ordered, t.miller.copies = s.miller.copies ++ [{
          n := s.miller.count + 1, job := job, fl := f 0x58 1, src := f 0x40 8, dst := f 0x48 8, len := f 0x50 8, ordered := ordered,
          todo := if plain then [(0, f 0x50 8)] else [], got := [], pos := 0, block := 0, out := 0, ended := plain, was := [], fault := none }])))

/-- R92, R93, R129, R200, R342, R345 to R348, R351, R353 to R355, Tables 20.5 and 20.9: packets complete, jobs bind and end, nodes run their
work. Which packets a node may run, and when, is read as log entry 42 says. -/
def Obligations.PacketsEnd : Prop :=
  ∀ (s : State),
    (∀ n o st, s.takenOf n = some o → o.status = some st → (∀ m ∈ s.miller.copies, m.n ≠ n) →
      let tells := pktNotify o.pkt || st.1 != 0
      let sig := pktSigAddr o.pkt
      (tells = true → s.miller.events.buffer.length < 4096) → Gives (.packetComplete n) s (fun t =>
        (∀ x ∈ t.miller.taken, x.n ≠ n) ∧ t.ctxs = s.ctxs ∧ (tells = false → t.miller.events = s.miller.events) ∧
        (sig = 0 ∨ (st.1 ≠ 0 ∧ pktSigerr o.pkt = false) → t.mem.dram = s.mem.dram) ∧
        (∀ w a f, sig ≠ 0 → (st.1 = 0 ∨ pktSigerr o.pkt = true) → s.millerHit o.job sig .atomic = .ok w a f → w ≠ .host →
          let u := (s.millerUse o.job sig f true 8).meetBad w a 8
          t.readN w a 8 = ((u.passLoose w a 8).readN w a 8 + pktSigVal o.pkt) % 2 ^ 64) ∧
        (∀ i, o.node = some i → t.node i = Node.free ∧ ∀ x ∈ t.miller.taken, x.n = (s.node i).taken → x.status.isSome = true))) ∧
    (∀ n, (∀ o, s.takenOf n = some o → o.status = none) → (∀ m ∈ s.miller.copies, m.n ≠ n) → exec (.packetComplete n) s = .next s) ∧
    (∀ n o m, s.takenOf n = some o → (∀ x ∈ s.miller.taken, x.n = n → x = o) → o.status = none → pktType o.pkt = 5 → o.node = none →
      s.miller.copies.find? (fun m => m.n == n) = some m →
      (m.next s = none → m.over = false → exec (.packetComplete n) s = .next s) ∧
      (m.fl = 0 → m.todo = [(0, m.len)] → m.got = [] → m.ended = true → m.ordered = false → m.was = [] → m.fault = none → 0 < m.len →
        m.src < 2 ^ 64 → m.dst < 2 ^ 64 → m.src % 65536 + m.len ≤ 65536 → m.dst % 65536 + m.len ≤ 65536 → s.paused (crossMask 0 3) = false →
        let gone := fun (t : State) => (∀ x ∈ t.miller.taken, x.n ≠ n) ∧ (∀ c ∈ t.miller.copies, c.n ≠ n) ∧ t.ctxs = s.ctxs
        (∀ c d, s.millerHit m.job m.src .load = .fault c d → c ≠ 0x59 → pktSigAddr o.pkt = 0 ∨ pktSigerr o.pkt = false →
          s.miller.events.room = false → s.miller.events.buffer.length < 4096 → s.miller.events.folded = [] →
          Gives (.packetComplete n) s (fun t => gone t ∧ t.mem = s.mem ∧
            t.miller.events.buffer = s.miller.events.buffer ++ [eventRec 1 4 o.q (pktTag o.pkt) o.ridx (c + 2 ^ 32 * d)])) ∧
        (∀ wa xa fa wb xb fb, let v := s.millerUse m.job m.src fa false m.len
          s.millerHit m.job m.src .load = .ok wa xa fa → v.millerHit m.job m.dst .store = .ok wb xb fb → Sound s wa xa m.len →
          pktSigAddr o.pkt = 0 → pktNotify o.pkt = false → wb ≠ .sp → Gives (.packetComplete n) s (fun t => gone t ∧
            t.readN wb xb m.len = v.readN wa xa m.len ∧ SameBytesBut (v.millerUse m.job m.dst fb true m.len) t wb xb m.len)))) ∧
    (∀ j b, s.job j = some b →
      let over' := (b.st = 1 ∨ b.st = 2) ∧ s.allEnded j = true ∧ s.engineWork j = false ∧ s.hasChild j = false
      (¬ over' → exec (.jobComplete j) s = .next s) ∧
      (over' → Gives (.jobComplete j) s (fun t => (t.job j).map (fun b => b.st) = some 3 ∧ (∀ d, (t.ctx d).ofJob j = false) ∧
        (∀ k w d, w < 16 → t.way k w ≠ .owned j d) ∧ (∀ d ∈ t.mem.loose, d.job ≠ j) ∧
        (∀ k, (∀ m ∈ (t.core k).maint, m.job ≠ j) ∧ ∀ f ∈ (t.core k).fresh, f.job ≠ j) ∧ (∀ o ∈ t.miller.taken, o.n = b.taken → o.status.isSome = true)))) ∧
    (∀ i o, let n := s.node i
      s.takenOf n.taken = some o →
      let ready := n.defined = true ∧ n.count = 0 ∧ n.running = false ∧ s.miller.snap = none ∧ (s.waitsHold n.job o.pkt).getD true = true ∧
        (pktFence o.pkt = false ∨ ∀ x ∈ s.miller.taken, x.q = o.q → o.n ≤ x.n)
      let ends := fun (st reason : Nat) => Gives (.nodeRun i) s (fun t => t.node i = Node.free ∧
        ∀ x ∈ s.miller.taken, x.n = n.taken → x.status = none → { x with status := some (st, reason) } ∈ t.miller.taken)
      (¬ ready → exec (.nodeRun i) s = .next s) ∧
      (ready → (s.addressStatus n.job o.pkt).isSome = true ∨ s.workOf n = none → ends 3 0) ∧
      (∀ w, ready → s.addressStatus n.job o.pkt = none → s.workOf n = some w →
        let allowed := pktType w = 1 ∨ pktType w = 3 ∨ pktType w = 5
        let bad := s.badReason w (fld (s.queue n.q).qcfg 8 3) (bitAt (s.queue n.q).qcfg 4) n.job false
        (¬ allowed → ends 9 3) ∧ (∀ e, allowed → bad = some e → ends 9 e) ∧
        (allowed → bad = none → s.workTurn i = false → exec (.nodeRun i) s = .next s) ∧
        (allowed → bad = none → s.workTurn i = true → Gives (.nodeRun i) s (fun t =>
          t.node i = { n with running := true } ∧
          (pktType w = 1 → ∃ b, t.job (s.miller.count + 1) = some b ∧ b.st = 0 ∧ b.node = some i ∧ b.pkt = w ∧ b.prio = pktPrio o.pkt) ∧
          (pktType w ≠ 1 → ∃ st, t.miller.taken = s.miller.taken ++ [⟨s.miller.count + 1, o.q, o.ridx, w, n.job, some i, st⟩] ∧
            (st = none → pktType w = 5 ∧ ∃ m, t.miller.copies = s.miller.copies ++ [m] ∧ m.n = s.miller.count + 1)))))) ∧
    (∀ j b, s.job j = some b →
      let may := b.st = 0 ∧ s.heldBack j b = false ∧ s.miller.snap = none ∧ s.miller.events.buffer.length < 4096
      (¬ may → exec (.jobBind j) s = .next s) ∧
      (∀ e, may → s.jobError b j = some e → Gives (.jobBind j) s (fun t =>
        (t.job j).map (fun b => b.st) = some 1 ∧ (t.loaded j).error = e ∧ t.miller.taken.length = s.miller.taken.length + 1)) ∧
      (∀ m, may → s.jobError b j = none → s.jobMap j = some m → s.shapeFits m.dies = false → exec (.jobBind j) s = .next s) ∧
      (∀ m ps l m', may → s.jobError b j = none → s.jobMap j = some m → s.shapeFits m.dies = true → (s.loaded j).places = [] →
        s.plan j [] [] m.places = some ps → loadJob (s.readList j b) j b ((s.loadList j b.loadlist).getD []) = .ok l → l.map = some m' →
        (ps.map (fun p => p.bound)).Nodup → Gives (.jobBind j) s (fun t => (t.job j).map (fun b => b.st) = some 1 ∧
          ∀ i p, ps[i]? = some p →
            let x := t.ctx p.bound
            x.seq.run = .resident ∧ x.seq.pc = p.entry ∧ x.sched.job = j ∧ x.sched.place = i ∧ x.sched.asid = b.asid ∧
              x.s 0 = b.param % 2 ^ 64 ∧ x.s 1 = i % 2 ^ 64 ∧ x.win.ways = p.ways ∧ x.traps.level = 0 ∧ x.ports.flights = [])))

/-- R349, R350, R360, R368 to R372, Tables 20.14, 21.3 and 21.4: recovery points, QUERY, the completions of storage commands. What a point's
image holds is read as log entry 36 says, what QUERY gives for open fields as log entry 37. -/
def Obligations.PointsAndStorage : Prop :=
  ∀ (s : State),
    (∀ q, let p := s.headPacket q
      let f := pktField p
      let u := s.takeHead q
      let m := f 0x50 8
      (s.hasTurn q 8 = false → exec (.snap q) s = .next s) ∧
      (s.hasTurn q 8 = true → s.addressStatus none p = none →
        (s.jobList.any (fun j => j.2.st == 2) = true → Gives (.snap q) s (fun t => LastStatus t (some (8, 0)) ∧ t.readN .dram (m + 6) 1 = 4)) ∧
        (s.jobList.any (fun j => j.2.st == 2) = false → f 0x40 1 = 1 → (s.region (f 0x42 1)).inst = false →
          Gives (.snap q) s (fun t => LastStatus t (some (7, 0)) ∧ t.mem = u.mem)) ∧
        (s.jobList.any (fun j => j.2.st == 2) = false → f 0x40 1 = 0 ∨ (s.region (f 0x42 1)).inst = true →
          Gives (.snap q) s (fun t => LastStatus t none ∧ t.mem = u.mem ∧ SameContexts s t ∧ ∃ v, t.miller.snap = some v ∧
            v.taken = s.miller.count + 1 ∧ v.kind = f 0x40 1 ∧ v.handles = f 0x41 1 ∧ v.manifest = m ∧ v.start = s.clock ∧ v.stage = 0 ∧
            v.lba0 = u.readN .dram (m + 0x18) 8 ∧ v.share = u.readN .dram (m + 0x10) 4 * 2 ^ 30 ∧ v.kept = [])))) ∧
    (∀ v, s.miller.snap = some v →
      (v.stage = 0 → v.kind = 0 → ∃ w, (snapWork s).miller.snap = some w ∧ w.stage = 1 ∧ w.image = s.paddedBlock ∧ w.total = fullBytes ∧
        w.share = min v.share fullBytes ∧ (snapWork s).mem.l1 = [] ∧ ∀ x, (snapWork s).mem.store x = s.mem.store x) ∧
      (v.stage = 1 → v.kind = 0 → v.kept = [] → v.image.length = 2 ^ 20 → v.share = fullBytes → s.snapWindow v + fullBytes ≤ 2 ^ 52 →
        (∀ i, i < 2 ^ 20 → memByte (snapWork s).mem.host (s.snapWindow v + i) = BitVec.ofNat 8 (v.image.getD i 0)) ∧
        (∀ a, a < dramEnd → memByte (snapWork s).mem.host (s.snapWindow v + 2 ^ 20 + a) = memByte s.mem.dram a)) ∧
      (v.stage = 2 → v.stripes ≤ v.next → v.open_ = 0 → v.kind = 0 ∨ v.status ≠ 0 →
        (snapWork s).miller.snap = none ∧ (snapWork s).readN .dram (v.manifest + 6) 1 = v.status % 256 ∧
        (s.mem.loose.any (Loose.meets Space.dram.code v.manifest 128) = false →
          (snapWork s).readN .dram (v.manifest + 0x40) 8 = v.wrote % 2 ^ 64) ∧
        ∀ o ∈ (snapWork s).miller.taken, o.n = v.taken → o.status.isSome = true) ∧
      (∀ a n x b, (∀ c ∈ v.kept, c.1 % 16 = 0) → b % 16 = 0 → let t := s.writeN .dram a n x
        ∃ w, t.miller.snap = some w ∧
          (memNat (t.imageDram w) b 16 = memNat (s.imageDram v) b 16 ∨ memNat (t.imageDram w) b 16 = t.readN .dram b 16))) ∧
    (∀ q, let p := s.headPacket q
      let f := pktField p
      let u := if bitAt (f 0x40 1) 4 then countSent (s.takeHead q) else s.takeHead q
      let l := u.queryBlocks (f 0x40 1) (f 0x50 8)
      let n := (l.map (fun e => e.2)).sum
      (s.hasTurn q 9 = false → exec (.query q) s = .next s) ∧
      (s.hasTurn q 9 = true → s.addressStatus none p = none →
        (∀ w b g w' b' g', u.millerHit none (f 0x48 8) .store = .ok w b g → u.millerHit none (f 0x48 8 + (n - 1)) .store = .ok w' b' g' →
          s.mem.loose.any (Loose.meets w.code b n) = false →
          Gives (.query q) s (fun t => Takes s t q none (some (0, 0)) ∧ t.readN w b n = packWidths (l.map (fun e => (e.2, e.1))) ∧
            SameBytesBut u t w b n)) ∧
        (∀ c d, u.millerHit none (f 0x48 8) .store = .fault c d → Gives (.query q) s (fun t =>
          Takes s t q none (some (3, 0)) ∧ t.mem = u.mem)))) ∧
    (∀ n c, s.links.nvme.find? (fun c => c.n == n && c.sent.isSome && !c.done) = some c → c.core ≠ 512 → ∀ status data,
      Gives (.nvmeCompletion n status data) s (fun t =>
        (status % 2048 ≠ 0 ∨ c.op ≠ 1 → ∀ d ∈ t.links.nvme, d.n = n → d.done = true ∧ d.slice = none) ∧
        (status % 2048 = 0 → c.op = 2 → let bytes := c.blocks * s.blockSize c.handle
          ∀ d ∈ t.links.nvme, d.n = n → d.data = (data ++ List.replicate (bytes - data.length) 0).take bytes) ∧
        (status % 2048 ≠ 0 → ∀ r ∈ (t.eng c.core).cpq, r.iss.seq = c.seq → ∃ r' ∈ (s.eng c.core).cpq, r'.iss.seq = c.seq ∧
          r.fault = (if r'.fault.isNone then some (0x58, status % 2048) else r'.fault)))) ∧
    (∀ n c a, s.links.nvme.find? (fun c => c.n == n && !c.done) = some c → c.core ≠ 512 → c.sent = some a →
      (s.clock < a + s.handleLimit c.handle → exec (.storageTimeout n) s = .next s) ∧
      (a + s.handleLimit c.handle ≤ s.clock → Gives (.storageTimeout n) s (fun t => t.mem = s.mem ∧ t.links = s.links ∧
        (t.eng c.core).cpq = (s.eng c.core).cpq.map (fun r =>
          if r.iss.seq = c.seq then (if r.fault.isNone then { r with fault := some (0x58, 0xFFFD) } else r) else r))))

/-- R302 to R310, R354: saves, deadlines, resumptions. What an image keeps, and where a saved context resumes, is read as log entry 21
says. -/
def Obligations.Preemption : Prop :=
  ∀ (s : State),
    (∀ c a d, let x := s.ctx c
      let killed := fun (t : State) => (t.ctx c).seq.run = .killed ∧ (t.ctx c).regs = x.regs ∧ (t.ctx c).ports.flights = [] ∧
        (t.loaded x.sched.job).error ≠ 0
      (x.sched.preempt = none → exec (.preemptDeadline c) s = .next s) ∧
      (x.sched.preempt = some (a, d) →
        (x.resident = false ∨ s.clock ≤ d → exec (.preemptDeadline c) s = .next s) ∧
        (x.resident = true → d < s.clock → Gives (.preemptDeadline c) s killed) ∧
        (s.saveReady c = false → exec (.preemptSave c) s = .next s) ∧
        (s.saveReady c = true → x.resident = true → d < s.clock → Gives (.preemptSave c) s killed) ∧
        (s.saveReady c = true → x.resident = false ∨ s.clock ≤ d → Gives (.preemptSave c) s (fun t => (t.ctx c).bound = false ∧
          ∃ v, (t.loaded x.sched.job).saved.getLast? = some v ∧ v.place = x.sched.place ∧
            v.ctx.regs = x.regs ∧ v.ctx.traps = x.traps ∧ v.ctx.ports.flights = [] ∧ v.tiles = s.windowTiles c ∧ v.core = coreOf c ∧
            ((s.eng (coreOf c)).corr = [] → (t.loaded x.sched.job).saved = (s.loaded x.sched.job).saved ++ [v] ∧
              v.ctx = x.image (s.landDraw c)))))) ∧
    (∀ j b, s.job j = some b →
      let may := (b.st = 2 ∨ (b.st = 1 ∧ (s.loaded j).saved ≠ [])) ∧ s.heldBack j b = false ∧
        ∀ p ∈ s.ctxs, p.2.ofJob j = true → p.2.sched.preempt = none
      (¬ may → exec (.jobResume j) s = .next s) ∧ (s.resumePlan j = none → exec (.jobResume j) s = .next s) ∧
      (∀ l, may → s.resumePlan j = some l → (l.map (fun p => p.2)).Nodup → Gives (.jobResume j) s (fun t =>
        (t.job j).map (fun b => b.st) = some 1 ∧ (t.loaded j).saved = [] ∧
        ∀ p ∈ l, let y := t.ctx p.2
          y.regs = p.1.ctx.regs ∧ y.ports = p.1.ctx.ports ∧ y.fmts = p.1.ctx.fmts ∧ y.traps = p.1.ctx.traps ∧ y.seq.pc = p.1.ctx.seq.pc ∧
            y.seq.run = p.1.ctx.seq.run ∧ y.seq.loops = p.1.ctx.seq.loops ∧ y.seq.wait = p.1.ctx.seq.wait ∧ y.seq.wake = s.clock)))

/-- R240, R258, R338, R340, R352, R357, R363, R365, Tables 20.1 to 20.3: queue control, regions, BAR0, attestation. The sizes and alignments
that BAR0 takes are read as log entry 33 says. R364: before the host port is ready, what the host asks for does not happen. -/
def Obligations.QueuesAndRegions : Prop :=
  ∀ (s : State),
    (bitAt s.boot.ready 33 = false → ∀ q r v off size nonce, ∀ i ∈ [Instr.queueEnable q, .queueDisable q, .queueReset q, .regionInstallRequest r,
      .regionRemoveRequest r, .evrdWrite v, .attestRequest nonce, .bar0Write off size v], exec i s = .next s) ∧
    (∀ r, let g := s.region r
      (g.inst = true → g.req = false → s.regionHeld r = false → Gives (.regionRemove r) s (fun t => (∀ k, k ≠ r → t.region k = s.region k) ∧
        t.region r = { Region.reset with desc := g.desc, install := g.install } ∧ t.mem = s.mem)) ∧
      (g.inst = false ∨ g.req = true ∨ s.regionHeld r = true → exec (.regionRemove r) s = .next s)) ∧
    (bitAt s.boot.ready 33 = true →
    (∀ q, let u := s.queue q
      Gives (.queueEnable q) s (fun t => OtherQueues s t q ∧ t.mem = s.mem ∧
        t.queue q = if u.st = 0 then { u with en := true, st := 1, valid := none } else { u with en := true }) ∧
      Gives (.queueDisable q) s (fun t => OtherQueues s t q ∧ t.mem = s.mem ∧ t.miller.taken = s.miller.taken ∧
        t.queue q = if u.st = 1 then { u with en := false, st := 0, valid := none } else { u with en := false }) ∧
      Gives (.queueReset q) s (fun t => OtherQueues s t q ∧ t.miller.taken = s.miller.taken ∧
        t.readN u.lineSpace (u.line + 64) 4 = s.writeIndex u ∧ SameBytesBut s t u.lineSpace (u.line + 64) 4 ∧
        t.queue q = { u with en := false, st := 0, reason := 0, slot := 0, valid := none })) ∧
    (∀ r, let g := s.region r
      let f := fun n len => s.readN .dram (g.desc + n) len
      let others := fun (t : State) => ∀ k, k ≠ r → t.region k = s.region k
      (g.inst = false → 6 ≤ s.boot.stage → s.descOk g.desc = true → Gives (.regionInstallRequest r) s (fun t => others t ∧
        t.region r = { desc := g.desc, req := true, inst := true, salt := f 0 16, hwidth := f 0x2C 1, tentries := f 0x28 4
                       hsize := f 0x18 8, hbase := f 0x10 8, install := g.install + 1, lines := [], freeing := [], pend := []
                       stats := [0, 0, 0, 0, 0, 0, 0] } ∧
        t.readN .dram (g.desc + 0x30) 56 = 0 ∧ SameBytesBut s t .dram (g.desc + 0x30) 56)) ∧
      (g.inst = false → 6 ≤ s.boot.stage → s.descOk g.desc = false → Gives (.regionInstallRequest r) s (fun t => others t ∧
        t.region r = { g with req := true } ∧ t.mem.dram = s.mem.dram)) ∧
      (g.inst = true ∨ s.boot.stage < 6 → Gives (.regionInstallRequest r) s (fun t => others t ∧ t.region r = { g with req := true } ∧ t.mem = s.mem)) ∧
      Gives (.regionRemoveRequest r) s (fun t => others t ∧ t.region r = { g with req := false } ∧ t.mem = s.mem)) ∧
    (∀ v, Gives (.evrdWrite v) s (fun t => t.miller.events.evrd = v % 2 ^ 64 ∧ t.mem.dram = s.mem.dram ∧ t.ctxs = s.ctxs)) ∧
    (∀ nonce, let r := s.report (leBytes 64 (leNat (nonce.take 64)))
      Gives (.attestRequest nonce) s (fun t => memNat t.boot.mailbox 0x3F8 4 = 1 ∧
        memNat t.boot.mailbox 0x40 r.length = leNat r % 2 ^ (8 * r.length) ∧ t.mem = s.mem ∧ t.ctxs = s.ctxs)) ∧
    (∀ off size val, (size ≠ 1 ∧ size ≠ 2 ∧ size ≠ 4 ∧ size ≠ 8) ∨ off % size ≠ 0 ∨ 2 ^ 20 ≤ off ∨ (0x10000 ≤ off ∧ off < 0x11000 ∧ size < 4) →
      exec (.bar0Write off size val) s = .next s) ∧
    (∀ q val, q < 64 → let u := s.queue q
      let base := 0x10000 + 64 * q
      Gives (.bar0Write base 8 val) s (fun t => OtherQueues s t q ∧
        t.queue q = if u.st = 0 then { u with qbase := val % 2 ^ 64 &&& (2 ^ 63 + (2 ^ 52 - 2 ^ 6)) } else u) ∧
      exec (.bar0Write (base + 24) 8 val) s = (if val.testBit 1 then exec (.queueReset q) s
        else if val.testBit 0 then exec (.queueEnable q) s else exec (.queueDisable q) s)) ∧
    (∀ val, Gives (.bar0Write 0x4000 8 val) s (fun t => t.links.lexp = val % 2 ^ 64 &&& (2 ^ 64 - 2 ^ 30 + 255) ∧ t.mem = s.mem)))

/-- R12, R14, R329 to R332, R361, R362, R364, Tables 19.7 and 19.8: role changes, reset, boot. What reset keeps is log entry 22; that the role
refused at boot is reported in State.boot.refused is log entry 63. -/
def Obligations.RolesAndBoot : Prop :=
  ∀ (s : State),
    (∀ q, let p := s.headPacket q
      let f := pktField p
      let u := s.takeHead q
      (s.hasTurn q 7 = false → exec (.role q) s = .next s) ∧
      (∀ e, s.hasTurn q 7 = true → s.addressStatus none p = some e → Gives (.role q) s (fun t => Takes s t q none (some (e, 0)) ∧ t.boot = s.boot)) ∧
      (s.hasTurn q 7 = true → s.addressStatus none p = none → f 0x48 8 + 8 ≤ dramEnd →
        (∀ c, s.roleCode (f 0x40 1) = some c → Gives (.role q) s (fun t => LastStatus t (some (if c = 1 then 0 else 6, 0)) ∧
          t.readN .dram (f 0x48 8) 8 = c ∧ t.boot = s.boot ∧ SameBytesBut u t .dram (f 0x48 8) 8)) ∧
        (s.roleCode (f 0x40 1) = none → Gives (.role q) s (fun t => LastStatus t none ∧ t.boot.cmask = s.boot.cmask ∧
          t.boot.chg = some ⟨f 0x40 1, f 0x41 1, f 0x44 4, f 0x48 8, s.clock, if f 0x41 1 = 1 then 0 else 1, s.miller.count + 1⟩ ∧
          ∀ d < 4, (f 0x40 1).testBit d ≠ s.boot.cmask.testBit d → t.boot.ready.testBit d = false)))) ∧
    (s.boot.chg = none → exec .roleGraceExpire s = .next s ∧ exec .roleDrainEnd s = .next s ∧ exec .roleFlushEnd s = .next s) ∧
    (∀ g, s.boot.chg = some g →
      (¬ (g.phase = 0 ∧ g.since + g.grace ≤ s.clock) → exec .roleGraceExpire s = .next s) ∧
      (g.phase = 0 → g.since + g.grace ≤ s.clock → Gives .roleGraceExpire s (fun t => t.boot.chg = some { g with phase := 1 } ∧ t.mem = s.mem ∧
        ∀ d, s.dieLeaving (dieOf (coreOf d)) = true → (s.ctx d).resident = true → (t.ctx d).sched.preempt.isSome = true)) ∧
      (¬ (g.phase = 1 ∧ s.drained = true) → exec .roleDrainEnd s = .next s) ∧
      (g.phase = 1 → s.drained = true → Gives .roleDrainEnd s (fun t => t.boot.chg = some { g with phase := 2 } ∧
        ∀ k, k < 512 → s.dieLeaving (dieOf k) = true → (t.core k).blocks = [] ∧ (∀ w < 16, t.way k w = .cache) ∧ ∀ l ∈ t.mem.locked, l.core ≠ k)) ∧
      (g.phase ≠ 2 → exec .roleFlushEnd s = .next s) ∧
      (g.phase = 2 → Gives .roleFlushEnd s (fun t => t.boot.chg = none ∧ t.boot.cmask = g.cmask ∧ t.readN .dram g.status 8 = 0 ∧
        (∀ o ∈ t.miller.taken, o.n = g.taken → o.status.isSome = true) ∧
        ∀ k, dieOf k < 4 → g.cmask.testBit (dieOf k) ≠ s.boot.cmask.testBit (dieOf k) → t.core k = Core.reset ∧ t.eng k = Engines.reset))) ∧
    (Gives .deviceReset s (fun t => (∀ d, t.ctx d = Ctx.reset) ∧ (∀ k, t.core k = Core.reset ∧ t.eng k = Engines.reset) ∧
      t.miller = State.reset.miller ∧ t.dies = State.reset.dies ∧ t.boot.stage = 0 ∧ t.boot.ready = 0 ∧ t.clock = 0 ∧ t.mem.dram = s.mem.dram ∧
      t.mem.sp = [] ∧ t.boot.fwImage = s.boot.fwImage ∧ t.boot.config = s.boot.config)) ∧
    (s.boot.err ≠ 0 ∨ 6 ≤ s.boot.stage → exec .bootStage s = .next s) ∧
    (s.boot.err = 0 → s.boot.stage < 6 → Gives .bootStage s (fun t => t.boot.stage = s.boot.stage + 1 ∧
      (s.boot.stage = 1 → t.boot.fwDigest = beNat (sha512 s.boot.fwImage) ∧ t.boot.err = if ecdsaVerify rootKey (sha512 s.boot.fwImage)
        (beNat (s.boot.fwSig.take 66)) (beNat ((s.boot.fwSig.drop 66).take 66)) then 0 else 1) ∧
      (s.boot.stage = 2 → if configOk s.boot.operKey s.boot.config then t.boot.active = s.boot.config ∧ t.boot.err = 0 else t.boot.err = 2) ∧
      (s.boot.stage = 4 → let legal := s.cfg 6 = 8 ∨ s.cfg 6 = 12 ∨ (s.cfg 6 = 14 ∧ s.coolOk = true)
        (legal → t.boot.cmask = s.cfg 6 ∧ t.boot.refused = s.boot.refused) ∧
        (¬ legal → t.boot.cmask = 8 ∧ t.boot.prof = 0 ∧ t.boot.refused = some (s.cfg 6))) ∧ (s.boot.stage ≠ 1 → s.boot.stage ≠ 2 → t.boot.err = 0)))

/-- R329, R333 to R336, R356 to R358, R364, R367, R374, R375: vertical links, leat ports, errors and counters. When retrainings count is log
entry 40; the numbers of scrubbed pieces are log entry 15, the length of a limited interval log entry 64. -/
def Obligations.LinksAndCounters : Prop :=
  ∀ (s : State),
    (∀ i, i < 3 → s.links.vlinks.length = 3 → let v := s.vlink i
      let only := fun (t : State) => t.mem.dram = s.mem.dram ∧ t.ctxs = s.ctxs ∧ ∀ j, j ≠ i → t.vlink j = s.vlink j
      (s.boot.stage < 4 ∨ v.busy = true ∨ s.clock < v.due → exec (.retrainDue i) s = .next s) ∧
      (4 ≤ s.boot.stage → v.busy = false → v.due ≤ s.clock →
        (s.holdsRetrain = true → Gives (.retrainDue i) s (fun t => only t ∧ t.vlink i = { v with deferred := true })) ∧
        (s.holdsRetrain = false → s.linkTurn i 0 = true → Gives (.retrainDue i) s (fun t => only t ∧ t.vlink i = { v with
          due := s.clock, busy := true, deferred := false, nDeferred := (v.nDeferred + v.deferred.toNat) % 2 ^ 32,
          nForced := v.nForced % 2 ^ 16 }))) ∧
      (v.deferred = false → exec (.retrainForced i) s = .next s) ∧
      (4 ≤ s.boot.stage → v.busy = false → v.deferred = true → v.due + 1200000 ≤ s.clock → s.linkTurn i 1200000 = true →
        Gives (.retrainForced i) s (fun t => only t ∧ t.vlink i = { v with
          due := s.clock, busy := true, deferred := false, nDeferred := (v.nDeferred + 1) % 2 ^ 32, nForced := (v.nForced + 1) % 2 ^ 16 })) ∧
      (∀ pause fail, (v.busy = false → exec (.retrainEnd i pause fail) s = .next s) ∧
        (v.busy = true → Gives (.retrainEnd i pause fail) s (fun t => only t ∧ (t.vlink i).busy = false ∧
          (t.vlink i).due = s.clock + 150000000 ∧ (t.vlink i).nRetrain = (v.nRetrain + 1) % 2 ^ 32 ∧
          (t.vlink i).nFail = (v.nFail + fail.toNat) % 2 ^ 16 ∧ (t.vlink i).pause = max v.pause (min pause 36000))))) ∧
    (∀ p err, let q := s.port p
      (q.lanes = 0 → exec (.flitReceive p err) s = .next s ∧ exec (.leatPortDown p) s = .next s) ∧
      (q.lanes ≠ 0 → Gives (.flitReceive p err) s (fun t => t.port p = (if err then { q with retries := (q.retries + 1) % 2 ^ 16 }
          else { q with recv := (q.recv + 1) % 2 ^ 48 }) ∧ (∀ k, k ≠ p → t.port k = s.port k) ∧ t.mem = s.mem) ∧
        (p < 16 → Gives (.leatPortDown p) s (fun t => (t.port p) = { q with lanes := 0 } ∧ t.boot.ready.testBit (35 + p) = false ∧
          t.ctxs = s.ctxs ∧ t.mem.dram = s.mem.dram)))) ∧
    (∀ p lanes, let may := p < 16 ∧ 1 ≤ lanes ∧ lanes ≤ 8 ∧ (s.cfg 10 + 256 * s.cfg 11).testBit p = true
      (¬ may → exec (.leatPortTrained p lanes) s = .next s) ∧
      (may → Gives (.leatPortTrained p lanes) s (fun t => t.port p = { s.port p with lanes := lanes } ∧ t.boot.ready.testBit (35 + p) = true ∧
        t.ctxs = s.ctxs ∧ t.mem.dram = s.mem.dram))) ∧
    (∀ info, Gives (.aerUncorrectableError info) s (fun t => t.mem.dram = s.mem.dram ∧ t.mem.sp = s.mem.sp ∧ t.ctxs = s.ctxs ∧ t.cores = s.cores ∧
      t.links = s.links ∧ t.boot = s.boot ∧
      (s.miller.events.room = false → s.miller.events.buffer.length < 4096 → s.miller.events.folded = [] →
        ∃ e, t.miller.events.buffer = s.miller.events.buffer ++ [e] ∧ e % 256 = 4))) ∧
    Gives .powerLimitInterval s (fun t => t.tele.pcapms = (s.tele.pcapms + 1) % 2 ^ 64 ∧ t.mem = s.mem ∧ t.ctxs = s.ctxs ∧
      ∀ d < 4, look 0 t.tele.limit d = s.clock + 600000) ∧
    (∀ d, Gives (.thermalLimitInterval d) s (fun t => look 0 t.tele.therm d = (look 0 s.tele.therm d + 1) % 2 ^ 16 ∧
      look 0 t.tele.limit d = s.clock + 600000 ∧
      (∀ k, k ≠ d → look 0 t.tele.therm k = look 0 s.tele.therm k ∧ look 0 t.tele.limit k = look 0 s.tele.limit k) ∧
      t.mem = s.mem ∧ t.ctxs = s.ctxs)) ∧
    (∀ a kind, let b := a % 2 ^ 52 / 16 * 16
      let array := a / 2 ^ 52
      let within := (array = 0 ∧ b + 16 ≤ dramEnd) ∨ ((array = 1 ∨ array = 2) ∧ b + 16 ≤ 2 ^ 33) ∨ (array = 3 ∧ b + 16 ≤ 2 ^ 29)
      (kind = 1 → Gives (.scrubVisit a kind) s (fun t => t.tele.ce = (s.tele.ce + 1) % 2 ^ 32 ∧ t.mem = s.mem ∧ t.ctxs = s.ctxs)) ∧
      (kind = 2 → within → Gives (.scrubVisit a kind) s (fun t => t.tele.ue = (s.tele.ue + 1) % 2 ^ 32 ∧ t.ctxs = s.ctxs ∧
        (array = 0 → t.badIn .dram b 16 ≠ [] ∧ SameBytesBut s t .dram b 16) ∧ (array = 1 → t.badIn .sp b 16 ≠ [] ∧ SameBytesBut s t .sp b 16) ∧
        (2 ≤ array → t.mem = s.mem) ∧
        (array ≠ 3 → ∀ k, (t.core k).dict = (s.core k).dict) ∧
        (∀ k n, array ≠ 2 ∨ k ≠ b / 2 ^ 24 ∨ n ≠ b % 2 ^ 24 / 2048 → look 0 (t.core k).tiles n = look 0 (s.core k).tiles n) ∧
        (array = 2 → ∀ e < 1024, e / 8 ≠ b % 2048 / 16 → elemAt (look 0 (t.core (b / 2 ^ 24)).tiles (b % 2 ^ 24 / 2048)) e =
          elemAt (look 0 (s.core (b / 2 ^ 24)).tiles (b % 2 ^ 24 / 2048)) e) ∧
        (array = 3 → ∀ p ∈ (s.core (b / 2 ^ 20)).dict, p.1 ≠ b % 2 ^ 20 / 48 → p ∈ (t.core (b / 2 ^ 20)).dict))) ∧
      (kind ≠ 1 → kind ≠ 2 ∨ ¬ within → exec (.scrubVisit a kind) s = .next s))

/-- R275 to R277, R356 to R358, R364, Table 20.10: what the host and peers do to device memory once it is ready. How accesses that the spec
does not describe are answered is log entry 34. -/
def Obligations.OutsideAccesses : Prop :=
  ∀ (s : State),
    (∀ a data ro, let n := data.length
      (s.hostReady = true → a + n ≤ dramEnd → Gives (.hostPostedWrite a data ro) s (fun t =>
        t.readN .dram a n = leNat data % 2 ^ (8 * n) ∧ SameBytesBut s t .dram a n ∧ t.ctxs = s.ctxs ∧ t.cores = s.cores)) ∧
      (s.hostReady = false ∨ dramEnd < a + n → exec (.hostPostedWrite a data ro) s = .next s)) ∧
    (∀ a n, (s.hostReady = true → a + n ≤ dramEnd → Gives (.hostRead a n) s (fun t => t.reply = leBytes n (s.readN .dram a n) ∧ t.mem = s.mem ∧
        t.ctxs = s.ctxs)) ∧
      (s.hostReady = false ∨ dramEnd < a + n → Gives (.hostRead a n) s (fun t => t.reply = [] ∧ t.mem = s.mem))) ∧
    (∀ kind a size v c, let ok := (kind < 2 ∧ (size = 4 ∨ size = 8)) ∨ (kind = 2 ∧ (size = 4 ∨ size = 8 ∨ size = 16))
      let old := (s.passLoose .dram a size).readN .dram a size
      let m := 2 ^ (8 * size)
      (s.hostReady = true → ok → a + size ≤ dramEnd → a % size = 0 → Gives (.hostAtomicop kind a size v c) s (fun t =>
        t.reply = leBytes size old ∧ SameBytesBut s t .dram a size ∧ t.ctxs = s.ctxs ∧
        t.readN .dram a size = if kind = 0 then (old + v) % m else if kind = 1 then v % m
          else if old = c % m then v % m else old)) ∧
      (s.hostReady = false ∨ ¬ ok ∨ dramEnd < a + size ∨ a % size ≠ 0 → Gives (.hostAtomicop kind a size v c) s (fun t =>
        t.reply = [] ∧ t.mem = s.mem))) ∧
    (∀ kind x data, let n := data.length
      let a := fld s.links.lexp 30 22 * 2 ^ 30 + x
      let within := x + n ≤ s.links.lexp % 256 * 2 ^ 30
      (¬ within → Gives (.peerAccess kind x data) s (fun t => t.reply = [] ∧ t.mem = s.mem)) ∧
      (within → s.peerReady = true → a + n ≤ dramEnd →
        Gives (.peerAccess 0 x data) s (fun t => t.reply = leBytes n (s.readN .dram a n) ∧ t.mem = s.mem ∧ t.ctxs = s.ctxs) ∧
        Gives (.peerAccess 1 x data) s (fun t => t.readN .dram a n = leNat data % 2 ^ (8 * n) ∧ SameBytesBut s t .dram a n ∧ t.ctxs = s.ctxs) ∧
        (a % n = 0 → n = 4 ∨ n = 8 → let old := (s.passLoose .dram a n).readN .dram a n
          Gives (.peerAccess 2 x data) s (fun t => t.reply = leBytes n old ∧ SameBytesBut s t .dram a n ∧
            t.readN .dram a n = (old + leNat data) % 2 ^ (8 * n)))) ∧
      (within → s.peerReady = false ∨ dramEnd < a + n → Gives (.peerAccess 0 x data) s (fun t => t.reply = [] ∧ t.mem = s.mem) ∧
        exec (.peerAccess 1 x data) s = .next s)) ∧
    (∀ a data, let n := data.length
      (data ≠ [] → a + n ≤ 2 ^ 52 → Gives (.cxlCacheSnoop a data) s (fun t => t.readN .host a n = leNat data % 2 ^ (8 * n) ∧
        SameBytesBut s t .host a n ∧ t.ctxs = s.ctxs)) ∧
      (data = [] ∨ 2 ^ 52 < a + n → exec (.cxlCacheSnoop a data) s = .next s))

/-- Tables 2.10 to 2.12, 3.2, 4.3, 6.6, 9.3, 17.1, 17.6, 20.2, R119, R331, R361. -/
def Obligations.ResetState : Prop :=
  MemOk State.reset ∧ State.reset.clock = 0 ∧ State.reset.boot.stage = 0 ∧ State.reset.boot.err = 0 ∧ State.reset.boot.ready = 0 ∧
  (∀ (c : Nat), let x := State.reset.ctx c
    x.bound = false ∧ x.traps.level = 0 ∧ x.traps.tvec = 0 ∧ x.traps.predl = 65536 ∧ x.fmts.mfmt = 0x22 ∧ x.fmts.cvtctl = 2 ^ 32 ∧
    x.fmts.fpctl = 0x20 ∧ x.fmts.fpstat = 0 ∧ x.seq.ldepth = 0 ∧ x.seq.wstep = 0 ∧ (∀ n < 64, x.tokSet n = true ∧ x.tokErr n = false) ∧
    (∀ n < 16, x.k n = false ∧ look (0, 0, 0) x.regs.gm n = (0, 0, 0)) ∧ (∀ n, x.s n = 0 ∧ x.a n = 0 ∧ x.o n = 0) ∧
    (List.range 8).map (fun n => look 0 x.regs.lnd n) = [12, 32, 64, 128, 256, 512, 1024, 4096]) ∧
  (∀ (k w : Nat), State.reset.way k w = .cache) ∧
  (∀ (q : Nat), let u := State.reset.queue q
    u.st = 0 ∧ u.en = false ∧ u.qcfg = 2 ∧ u.reason = 0 ∧ u.slot = 0 ∧ u.qbase = 0 ∧ u.qidx = 0) ∧
  (∀ (r : Nat), (State.reset.region r).inst = false ∧ (State.reset.region r).req = false) ∧
  (∀ (w : Space) (a : Nat), memByte (State.reset.mem.store w) a = memByte [] a)

/-- The canonical form of the model's byte stores. -/
def Obligations.MemoryStaysCanonical : Prop :=
  ∀ (s t : State), MemOk s → step s = .next t → MemOk t
end

