-- ==== Sys2Proof/Laws/Map.lean ====
section
/-! SUPPORT. Laws of sparse stores and of byte memory: read after write, and that every write keeps the canonical form. -/

namespace Sys2Proof.Machine

variable {α : Type}

/-! ## Read after write -/

@[simp] theorem look_nil (d : α) (k : Nat) : look d [] k = d := rfl

theorem look_cons (d : α) (p : Nat × α) (r : Sparse α) (k : Nat) :
    look d (p :: r) k = if p.1 = k then p.2 else look d r k := rfl

theorem look_put (d : α) (m : Sparse α) (k : Nat) (v : α) (i : Nat) :
    look d (put m k v) i = if k = i then v else look d m i := by
  induction m with
  | nil => rfl
  | cons p r ih =>
    obtain ⟨k', v'⟩ := p
    by_cases h1 : k' = k
    · subst h1; simp only [put, if_true, look]; split <;> rfl
    · by_cases h2 : k < k'
      · simp only [put, if_neg h1, if_pos h2, look]
      · simp only [put, if_neg h1, if_neg h2, look, ih]
        by_cases h3 : k' = i
        · subst h3; simp [Ne.symm h1]
        · simp [h3]

@[simp] theorem look_put_self (d : α) (m : Sparse α) (k : Nat) (v : α) : look d (put m k v) k = v := by
  simp [look_put]

theorem look_put_ne (d : α) (m : Sparse α) {k i : Nat} (v : α) (h : k ≠ i) : look d (put m k v) i = look d m i := by
  simp [look_put, h]

@[simp] theorem put_put (m : Sparse α) (k : Nat) (v w : α) : put (put m k v) k w = put m k w := by
  induction m with
  | nil => simp [put]
  | cons p r ih =>
    obtain ⟨k', v'⟩ := p
    by_cases h1 : k' = k
    · subst h1; simp [put]
    · by_cases h2 : k < k'
      · simp [put, h1, h2]
      · simp [put, h1, h2, ih]

theorem look_del (d : α) (m : Sparse α) (k i : Nat) : look d (del m k) i = if k = i then d else look d m i := by
  induction m with
  | nil => simp [del]
  | cons p r ih =>
    obtain ⟨k', v'⟩ := p
    simp only [del, List.filter_cons] at ih ⊢
    by_cases h1 : k' = k
    · subst h1
      simp only [bne_self_eq_false, Bool.false_eq_true, if_false, ih, look]
      split <;> rfl
    · simp only [bne_iff_ne, ne_eq, h1, not_false_eq_true, if_true, look, ih]
      by_cases h2 : k' = i
      · subst h2; simp [Ne.symm h1]
      · simp [h2]

theorem look_setv [DecidableEq α] (d : α) (m : Sparse α) (k : Nat) (v : α) (i : Nat) :
    look d (setv d m k v) i = if k = i then v else look d m i := by
  unfold setv
  split
  · next h => subst h; exact look_del v m k i
  · exact look_put d m k v i

@[simp] theorem look_setv_self [DecidableEq α] (d : α) (m : Sparse α) (k : Nat) (v : α) : look d (setv d m k v) k = v := by
  simp [look_setv]

theorem look_map (d : α) (m : Sparse α) (f : Nat → α → α) (k : Nat) (h : f k d = d) :
    look d (m.map (fun p => (p.1, f p.1 p.2))) k = f k (look d m k) := by
  induction m with
  | nil => simp [h]
  | cons p r ih =>
    simp only [List.map_cons, look_cons, ih]
    split
    · next e => subst e; rfl
    · rfl

/-! ## Canonical form -/

theorem mem_put {m : Sparse α} {k : Nat} {v : α} {p : Nat × α} (h : p ∈ put m k v) : p = (k, v) ∨ p ∈ m := by
  induction m with
  | nil => simpa [put] using h
  | cons q r ih =>
    obtain ⟨k', v'⟩ := q
    simp only [put] at h
    split at h
    · rcases List.mem_cons.mp h with h | h
      · exact .inl h
      · exact .inr (List.mem_cons_of_mem _ h)
    · split at h
      · rcases List.mem_cons.mp h with h | h
        · exact .inl h
        · exact .inr h
      · rcases List.mem_cons.mp h with h | h
        · exact .inr (h ▸ List.mem_cons_self)
        · rcases ih h with h | h
          · exact .inl h
          · exact .inr (List.mem_cons_of_mem _ h)

theorem canon_iff [DecidableEq α] (d : α) (m : Sparse α) :
    canon d m = true ↔ m.Pairwise (fun p q => p.1 < q.1) ∧ ∀ p ∈ m, p.2 ≠ d := by
  simp [canon]

@[simp] theorem canon_nil [DecidableEq α] (d : α) : canon d ([] : Sparse α) = true := by simp [canon]

theorem canon_filter [DecidableEq α] (d : α) (m : Sparse α) (p : Nat × α → Bool) (h : canon d m = true) :
    canon d (m.filter p) = true := by
  rw [canon_iff] at *
  exact ⟨h.1.filter _, fun q hq => h.2 q ((List.mem_filter.mp hq).1)⟩

theorem canon_put [DecidableEq α] (d : α) (m : Sparse α) (k : Nat) (v : α) (h : canon d m = true) (hv : v ≠ d) :
    canon d (put m k v) = true := by
  rw [canon_iff] at *
  refine ⟨?_, fun p hp => ?_⟩
  · obtain ⟨hp, -⟩ := h
    induction m with
    | nil => simp [put]
    | cons q r ih =>
      obtain ⟨k', v'⟩ := q
      rw [List.pairwise_cons] at hp
      simp only [put]
      split
      · next e => subst e; exact List.pairwise_cons.mpr ⟨fun a ha => hp.1 a ha, hp.2⟩
      · split
        · next e1 e2 =>
          refine List.pairwise_cons.mpr ⟨fun a ha => ?_, List.pairwise_cons.mpr hp⟩
          rcases List.mem_cons.mp ha with ha | ha
          · subst ha; exact e2
          · exact Nat.lt_trans e2 (hp.1 a ha)
        · next e1 e2 =>
          refine List.pairwise_cons.mpr ⟨fun a ha => ?_, ih hp.2⟩
          rcases mem_put ha with ha | ha
          · subst ha; exact Nat.lt_of_le_of_ne (Nat.le_of_not_lt e2) e1
          · exact hp.1 a ha
  · rcases mem_put hp with hp | hp
    · subst hp; exact hv
    · exact h.2 p hp

theorem canon_setv [DecidableEq α] (d : α) (m : Sparse α) (k : Nat) (v : α) (h : canon d m = true) :
    canon d (setv d m k v) = true := by
  unfold setv
  split
  · exact canon_filter d m _ h
  · next hv => exact canon_put d m k v h hv

/-! ## Bytes -/

theorem memByte_memPut (m : Memory) (a : Nat) (b : BitVec 8) (i : Nat) :
    memByte (memPut m a b) i = if a = i then b else memByte m i := look_setv 0#8 m a b i

theorem wf_memPut (m : Memory) (a : Nat) (b : BitVec 8) (h : Memory.wf m = true) : Memory.wf (memPut m a b) = true :=
  canon_setv 0#8 m a b h

theorem wf_memPutNat (m : Memory) (a n v : Nat) (h : Memory.wf m = true) : Memory.wf (memPutNat m a n v) = true := by
  induction n generalizing m a v with
  | zero => exact h
  | succ n ih => exact ih _ _ _ (wf_memPut m a _ h)

/-- A store changes the bytes it names and no other. -/
theorem memByte_memPutNat (m : Memory) (a n v i : Nat) :
    memByte (memPutNat m a n v) i = if a ≤ i ∧ i < a + n then BitVec.ofNat 8 (v / 256 ^ (i - a)) else memByte m i := by
  induction n generalizing m a v with
  | zero => rw [if_neg (by omega)]; rfl
  | succ n ih =>
    simp only [memPutNat, ih, memByte_memPut]
    by_cases h1 : a = i
    · subst h1; rw [if_neg (by omega), if_pos rfl, if_pos (by omega)]; simp
    · by_cases h2 : a + 1 ≤ i ∧ i < a + 1 + n
      · rw [if_pos h2, if_pos (by omega), Nat.div_div_eq_div_mul, show i - a = (i - (a + 1)) + 1 by omega, Nat.pow_succ,
          Nat.mul_comm]
      · rw [if_neg h2, if_neg h1, if_neg (by omega)]

/-- A read after a write of the same bytes gives the value written. -/
theorem memNat_memPutNat (m : Memory) (a n v : Nat) : memNat (memPutNat m a n v) a n = v % 256 ^ n := by
  suffices h : ∀ (k b : Nat) (w : Nat) (m' : Memory),
      (∀ i, b ≤ i → i < b + k → memByte m' i = BitVec.ofNat 8 (w / 256 ^ (i - b))) → memNat m' b k = w % 256 ^ k by
    apply h
    intro i h1 h2
    rw [memByte_memPutNat, if_pos ⟨h1, h2⟩]
  intro k
  induction k with
  | zero => intro b w m' _; simp [memNat, Nat.mod_one]
  | succ k ih =>
    intro b w m' hb
    simp only [memNat]
    rw [ih (b + 1) (w / 256) m', hb b (Nat.le_refl b) (by omega)]
    · rw [Nat.sub_self, Nat.pow_zero, Nat.div_one, BitVec.toNat_ofNat, Nat.pow_succ 256, Nat.mul_comm (256 ^ k), Nat.mod_mul]
    · intro i h1 h2
      rw [hb i (by omega) (by omega), Nat.div_div_eq_div_mul, show i - b = (i - (b + 1)) + 1 by omega, Nat.pow_succ, Nat.mul_comm]

/-- A read of bytes that a store does not touch. -/
theorem memNat_memPutNat_ne (m : Memory) (a n v b k : Nat) (h : b + k ≤ a ∨ a + n ≤ b) :
    memNat (memPutNat m a n v) b k = memNat m b k := by
  induction k generalizing b with
  | zero => rfl
  | succ k ih => simp only [memNat, memByte_memPutNat]; rw [if_neg (by omega), ih (b + 1) (by omega)]

end Sys2Proof.Machine
end

