-- ==== Sys2Proof/Laws/State.lean ====
section
/-! SUPPORT. One lemma per field for each update of the state: what an update leaves, and what it puts where it writes. -/

namespace Sys2Proof.Machine

/-! ## setCtx -/

@[simp] theorem setCtx_cores (s : State) (c : Nat) (x : Ctx) : (s.setCtx c x).cores = s.cores := rfl
@[simp] theorem setCtx_engines (s : State) (c : Nat) (x : Ctx) : (s.setCtx c x).engines = s.engines := rfl
@[simp] theorem setCtx_fetches (s : State) (c : Nat) (x : Ctx) : (s.setCtx c x).fetches = s.fetches := rfl
@[simp] theorem setCtx_mem (s : State) (c : Nat) (x : Ctx) : (s.setCtx c x).mem = s.mem := rfl
@[simp] theorem setCtx_miller (s : State) (c : Nat) (x : Ctx) : (s.setCtx c x).miller = s.miller := rfl
@[simp] theorem setCtx_links (s : State) (c : Nat) (x : Ctx) : (s.setCtx c x).links = s.links := rfl
@[simp] theorem setCtx_boot (s : State) (c : Nat) (x : Ctx) : (s.setCtx c x).boot = s.boot := rfl
@[simp] theorem setCtx_tele (s : State) (c : Nat) (x : Ctx) : (s.setCtx c x).tele = s.tele := rfl
@[simp] theorem setCtx_dies (s : State) (c : Nat) (x : Ctx) : (s.setCtx c x).dies = s.dies := rfl
@[simp] theorem setCtx_clock (s : State) (c : Nat) (x : Ctx) : (s.setCtx c x).clock = s.clock := rfl
@[simp] theorem setCtx_seqno (s : State) (c : Nat) (x : Ctx) : (s.setCtx c x).seqno = s.seqno := rfl
@[simp] theorem setCtx_inputs (s : State) (c : Nat) (x : Ctx) : (s.setCtx c x).inputs = s.inputs := rfl
@[simp] theorem setCtx_tick (s : State) (c : Nat) (x : Ctx) : (s.setCtx c x).tick = s.tick := rfl
@[simp] theorem setCtx_cur (s : State) (c : Nat) (x : Ctx) : (s.setCtx c x).cur = s.cur := rfl
@[simp] theorem setCtx_reply (s : State) (c : Nat) (x : Ctx) : (s.setCtx c x).reply = s.reply := rfl

/-! ## modCtx -/

@[simp] theorem modCtx_cores (s : State) (c : Nat) (f : Ctx → Ctx) : (s.modCtx c f).cores = s.cores := rfl
@[simp] theorem modCtx_engines (s : State) (c : Nat) (f : Ctx → Ctx) : (s.modCtx c f).engines = s.engines := rfl
@[simp] theorem modCtx_fetches (s : State) (c : Nat) (f : Ctx → Ctx) : (s.modCtx c f).fetches = s.fetches := rfl
@[simp] theorem modCtx_mem (s : State) (c : Nat) (f : Ctx → Ctx) : (s.modCtx c f).mem = s.mem := rfl
@[simp] theorem modCtx_miller (s : State) (c : Nat) (f : Ctx → Ctx) : (s.modCtx c f).miller = s.miller := rfl
@[simp] theorem modCtx_links (s : State) (c : Nat) (f : Ctx → Ctx) : (s.modCtx c f).links = s.links := rfl
@[simp] theorem modCtx_boot (s : State) (c : Nat) (f : Ctx → Ctx) : (s.modCtx c f).boot = s.boot := rfl
@[simp] theorem modCtx_tele (s : State) (c : Nat) (f : Ctx → Ctx) : (s.modCtx c f).tele = s.tele := rfl
@[simp] theorem modCtx_dies (s : State) (c : Nat) (f : Ctx → Ctx) : (s.modCtx c f).dies = s.dies := rfl
@[simp] theorem modCtx_clock (s : State) (c : Nat) (f : Ctx → Ctx) : (s.modCtx c f).clock = s.clock := rfl
@[simp] theorem modCtx_seqno (s : State) (c : Nat) (f : Ctx → Ctx) : (s.modCtx c f).seqno = s.seqno := rfl
@[simp] theorem modCtx_inputs (s : State) (c : Nat) (f : Ctx → Ctx) : (s.modCtx c f).inputs = s.inputs := rfl
@[simp] theorem modCtx_tick (s : State) (c : Nat) (f : Ctx → Ctx) : (s.modCtx c f).tick = s.tick := rfl
@[simp] theorem modCtx_cur (s : State) (c : Nat) (f : Ctx → Ctx) : (s.modCtx c f).cur = s.cur := rfl
@[simp] theorem modCtx_reply (s : State) (c : Nat) (f : Ctx → Ctx) : (s.modCtx c f).reply = s.reply := rfl

/-! ## modCore -/

@[simp] theorem modCore_ctxs (s : State) (k : Nat) (f : Core → Core) : (s.modCore k f).ctxs = s.ctxs := rfl
@[simp] theorem modCore_engines (s : State) (k : Nat) (f : Core → Core) : (s.modCore k f).engines = s.engines := rfl
@[simp] theorem modCore_fetches (s : State) (k : Nat) (f : Core → Core) : (s.modCore k f).fetches = s.fetches := rfl
@[simp] theorem modCore_mem (s : State) (k : Nat) (f : Core → Core) : (s.modCore k f).mem = s.mem := rfl
@[simp] theorem modCore_miller (s : State) (k : Nat) (f : Core → Core) : (s.modCore k f).miller = s.miller := rfl
@[simp] theorem modCore_links (s : State) (k : Nat) (f : Core → Core) : (s.modCore k f).links = s.links := rfl
@[simp] theorem modCore_boot (s : State) (k : Nat) (f : Core → Core) : (s.modCore k f).boot = s.boot := rfl
@[simp] theorem modCore_tele (s : State) (k : Nat) (f : Core → Core) : (s.modCore k f).tele = s.tele := rfl
@[simp] theorem modCore_dies (s : State) (k : Nat) (f : Core → Core) : (s.modCore k f).dies = s.dies := rfl
@[simp] theorem modCore_clock (s : State) (k : Nat) (f : Core → Core) : (s.modCore k f).clock = s.clock := rfl
@[simp] theorem modCore_seqno (s : State) (k : Nat) (f : Core → Core) : (s.modCore k f).seqno = s.seqno := rfl
@[simp] theorem modCore_inputs (s : State) (k : Nat) (f : Core → Core) : (s.modCore k f).inputs = s.inputs := rfl
@[simp] theorem modCore_tick (s : State) (k : Nat) (f : Core → Core) : (s.modCore k f).tick = s.tick := rfl
@[simp] theorem modCore_cur (s : State) (k : Nat) (f : Core → Core) : (s.modCore k f).cur = s.cur := rfl
@[simp] theorem modCore_reply (s : State) (k : Nat) (f : Core → Core) : (s.modCore k f).reply = s.reply := rfl

/-! ## modEng -/

@[simp] theorem modEng_ctxs (s : State) (k : Nat) (f : Engines → Engines) : (s.modEng k f).ctxs = s.ctxs := rfl
@[simp] theorem modEng_cores (s : State) (k : Nat) (f : Engines → Engines) : (s.modEng k f).cores = s.cores := rfl
@[simp] theorem modEng_fetches (s : State) (k : Nat) (f : Engines → Engines) : (s.modEng k f).fetches = s.fetches := rfl
@[simp] theorem modEng_mem (s : State) (k : Nat) (f : Engines → Engines) : (s.modEng k f).mem = s.mem := rfl
@[simp] theorem modEng_miller (s : State) (k : Nat) (f : Engines → Engines) : (s.modEng k f).miller = s.miller := rfl
@[simp] theorem modEng_links (s : State) (k : Nat) (f : Engines → Engines) : (s.modEng k f).links = s.links := rfl
@[simp] theorem modEng_boot (s : State) (k : Nat) (f : Engines → Engines) : (s.modEng k f).boot = s.boot := rfl
@[simp] theorem modEng_tele (s : State) (k : Nat) (f : Engines → Engines) : (s.modEng k f).tele = s.tele := rfl
@[simp] theorem modEng_dies (s : State) (k : Nat) (f : Engines → Engines) : (s.modEng k f).dies = s.dies := rfl
@[simp] theorem modEng_clock (s : State) (k : Nat) (f : Engines → Engines) : (s.modEng k f).clock = s.clock := rfl
@[simp] theorem modEng_seqno (s : State) (k : Nat) (f : Engines → Engines) : (s.modEng k f).seqno = s.seqno := rfl
@[simp] theorem modEng_inputs (s : State) (k : Nat) (f : Engines → Engines) : (s.modEng k f).inputs = s.inputs := rfl
@[simp] theorem modEng_tick (s : State) (k : Nat) (f : Engines → Engines) : (s.modEng k f).tick = s.tick := rfl
@[simp] theorem modEng_cur (s : State) (k : Nat) (f : Engines → Engines) : (s.modEng k f).cur = s.cur := rfl
@[simp] theorem modEng_reply (s : State) (k : Nat) (f : Engines → Engines) : (s.modEng k f).reply = s.reply := rfl

/-! ## modMem -/

@[simp] theorem modMem_ctxs (s : State) (f : Mem → Mem) : (s.modMem f).ctxs = s.ctxs := rfl
@[simp] theorem modMem_cores (s : State) (f : Mem → Mem) : (s.modMem f).cores = s.cores := rfl
@[simp] theorem modMem_engines (s : State) (f : Mem → Mem) : (s.modMem f).engines = s.engines := rfl
@[simp] theorem modMem_fetches (s : State) (f : Mem → Mem) : (s.modMem f).fetches = s.fetches := rfl
@[simp] theorem modMem_miller (s : State) (f : Mem → Mem) : (s.modMem f).miller = s.miller := rfl
@[simp] theorem modMem_links (s : State) (f : Mem → Mem) : (s.modMem f).links = s.links := rfl
@[simp] theorem modMem_boot (s : State) (f : Mem → Mem) : (s.modMem f).boot = s.boot := rfl
@[simp] theorem modMem_tele (s : State) (f : Mem → Mem) : (s.modMem f).tele = s.tele := rfl
@[simp] theorem modMem_dies (s : State) (f : Mem → Mem) : (s.modMem f).dies = s.dies := rfl
@[simp] theorem modMem_clock (s : State) (f : Mem → Mem) : (s.modMem f).clock = s.clock := rfl
@[simp] theorem modMem_seqno (s : State) (f : Mem → Mem) : (s.modMem f).seqno = s.seqno := rfl
@[simp] theorem modMem_inputs (s : State) (f : Mem → Mem) : (s.modMem f).inputs = s.inputs := rfl
@[simp] theorem modMem_tick (s : State) (f : Mem → Mem) : (s.modMem f).tick = s.tick := rfl
@[simp] theorem modMem_cur (s : State) (f : Mem → Mem) : (s.modMem f).cur = s.cur := rfl
@[simp] theorem modMem_reply (s : State) (f : Mem → Mem) : (s.modMem f).reply = s.reply := rfl

/-! ## modLoaded -/

@[simp] theorem modLoaded_ctxs (s : State) (j : Nat) (f : Loaded → Loaded) : (s.modLoaded j f).ctxs = s.ctxs := rfl
@[simp] theorem modLoaded_cores (s : State) (j : Nat) (f : Loaded → Loaded) : (s.modLoaded j f).cores = s.cores := rfl
@[simp] theorem modLoaded_engines (s : State) (j : Nat) (f : Loaded → Loaded) : (s.modLoaded j f).engines = s.engines := rfl
@[simp] theorem modLoaded_fetches (s : State) (j : Nat) (f : Loaded → Loaded) : (s.modLoaded j f).fetches = s.fetches := rfl
@[simp] theorem modLoaded_mem (s : State) (j : Nat) (f : Loaded → Loaded) : (s.modLoaded j f).mem = s.mem := rfl
@[simp] theorem modLoaded_links (s : State) (j : Nat) (f : Loaded → Loaded) : (s.modLoaded j f).links = s.links := rfl
@[simp] theorem modLoaded_boot (s : State) (j : Nat) (f : Loaded → Loaded) : (s.modLoaded j f).boot = s.boot := rfl
@[simp] theorem modLoaded_tele (s : State) (j : Nat) (f : Loaded → Loaded) : (s.modLoaded j f).tele = s.tele := rfl
@[simp] theorem modLoaded_dies (s : State) (j : Nat) (f : Loaded → Loaded) : (s.modLoaded j f).dies = s.dies := rfl
@[simp] theorem modLoaded_clock (s : State) (j : Nat) (f : Loaded → Loaded) : (s.modLoaded j f).clock = s.clock := rfl
@[simp] theorem modLoaded_seqno (s : State) (j : Nat) (f : Loaded → Loaded) : (s.modLoaded j f).seqno = s.seqno := rfl
@[simp] theorem modLoaded_inputs (s : State) (j : Nat) (f : Loaded → Loaded) : (s.modLoaded j f).inputs = s.inputs := rfl
@[simp] theorem modLoaded_tick (s : State) (j : Nat) (f : Loaded → Loaded) : (s.modLoaded j f).tick = s.tick := rfl
@[simp] theorem modLoaded_cur (s : State) (j : Nat) (f : Loaded → Loaded) : (s.modLoaded j f).cur = s.cur := rfl
@[simp] theorem modLoaded_reply (s : State) (j : Nat) (f : Loaded → Loaded) : (s.modLoaded j f).reply = s.reply := rfl

/-! ## draw -/

@[simp] theorem draw_ctxs (s : State) : (s.draw).ctxs = s.ctxs := rfl
@[simp] theorem draw_cores (s : State) : (s.draw).cores = s.cores := rfl
@[simp] theorem draw_engines (s : State) : (s.draw).engines = s.engines := rfl
@[simp] theorem draw_fetches (s : State) : (s.draw).fetches = s.fetches := rfl
@[simp] theorem draw_mem (s : State) : (s.draw).mem = s.mem := rfl
@[simp] theorem draw_miller (s : State) : (s.draw).miller = s.miller := rfl
@[simp] theorem draw_links (s : State) : (s.draw).links = s.links := rfl
@[simp] theorem draw_boot (s : State) : (s.draw).boot = s.boot := rfl
@[simp] theorem draw_tele (s : State) : (s.draw).tele = s.tele := rfl
@[simp] theorem draw_dies (s : State) : (s.draw).dies = s.dies := rfl
@[simp] theorem draw_clock (s : State) : (s.draw).clock = s.clock := rfl
@[simp] theorem draw_seqno (s : State) : (s.draw).seqno = s.seqno := rfl
@[simp] theorem draw_inputs (s : State) : (s.draw).inputs = s.inputs := rfl
@[simp] theorem draw_cur (s : State) : (s.draw).cur = s.cur := rfl
@[simp] theorem draw_reply (s : State) : (s.draw).reply = s.reply := rfl

/-! ## setWay -/

@[simp] theorem setWay_ctxs (s : State) (k w : Nat) (x : Way) : (s.setWay k w x).ctxs = s.ctxs := rfl
@[simp] theorem setWay_engines (s : State) (k w : Nat) (x : Way) : (s.setWay k w x).engines = s.engines := rfl
@[simp] theorem setWay_fetches (s : State) (k w : Nat) (x : Way) : (s.setWay k w x).fetches = s.fetches := rfl
@[simp] theorem setWay_mem (s : State) (k w : Nat) (x : Way) : (s.setWay k w x).mem = s.mem := rfl
@[simp] theorem setWay_miller (s : State) (k w : Nat) (x : Way) : (s.setWay k w x).miller = s.miller := rfl
@[simp] theorem setWay_links (s : State) (k w : Nat) (x : Way) : (s.setWay k w x).links = s.links := rfl
@[simp] theorem setWay_boot (s : State) (k w : Nat) (x : Way) : (s.setWay k w x).boot = s.boot := rfl
@[simp] theorem setWay_tele (s : State) (k w : Nat) (x : Way) : (s.setWay k w x).tele = s.tele := rfl
@[simp] theorem setWay_dies (s : State) (k w : Nat) (x : Way) : (s.setWay k w x).dies = s.dies := rfl
@[simp] theorem setWay_clock (s : State) (k w : Nat) (x : Way) : (s.setWay k w x).clock = s.clock := rfl
@[simp] theorem setWay_seqno (s : State) (k w : Nat) (x : Way) : (s.setWay k w x).seqno = s.seqno := rfl
@[simp] theorem setWay_inputs (s : State) (k w : Nat) (x : Way) : (s.setWay k w x).inputs = s.inputs := rfl
@[simp] theorem setWay_tick (s : State) (k w : Nat) (x : Way) : (s.setWay k w x).tick = s.tick := rfl
@[simp] theorem setWay_cur (s : State) (k w : Nat) (x : Way) : (s.setWay k w x).cur = s.cur := rfl
@[simp] theorem setWay_reply (s : State) (k w : Nat) (x : Way) : (s.setWay k w x).reply = s.reply := rfl

/-! ## setTile -/

@[simp] theorem setTile_ctxs (s : State) (k p : Nat) (t : Tile) : (s.setTile k p t).ctxs = s.ctxs := rfl
@[simp] theorem setTile_engines (s : State) (k p : Nat) (t : Tile) : (s.setTile k p t).engines = s.engines := rfl
@[simp] theorem setTile_fetches (s : State) (k p : Nat) (t : Tile) : (s.setTile k p t).fetches = s.fetches := rfl
@[simp] theorem setTile_mem (s : State) (k p : Nat) (t : Tile) : (s.setTile k p t).mem = s.mem := rfl
@[simp] theorem setTile_miller (s : State) (k p : Nat) (t : Tile) : (s.setTile k p t).miller = s.miller := rfl
@[simp] theorem setTile_links (s : State) (k p : Nat) (t : Tile) : (s.setTile k p t).links = s.links := rfl
@[simp] theorem setTile_boot (s : State) (k p : Nat) (t : Tile) : (s.setTile k p t).boot = s.boot := rfl
@[simp] theorem setTile_tele (s : State) (k p : Nat) (t : Tile) : (s.setTile k p t).tele = s.tele := rfl
@[simp] theorem setTile_dies (s : State) (k p : Nat) (t : Tile) : (s.setTile k p t).dies = s.dies := rfl
@[simp] theorem setTile_clock (s : State) (k p : Nat) (t : Tile) : (s.setTile k p t).clock = s.clock := rfl
@[simp] theorem setTile_seqno (s : State) (k p : Nat) (t : Tile) : (s.setTile k p t).seqno = s.seqno := rfl
@[simp] theorem setTile_inputs (s : State) (k p : Nat) (t : Tile) : (s.setTile k p t).inputs = s.inputs := rfl
@[simp] theorem setTile_tick (s : State) (k p : Nat) (t : Tile) : (s.setTile k p t).tick = s.tick := rfl
@[simp] theorem setTile_cur (s : State) (k p : Nat) (t : Tile) : (s.setTile k p t).cur = s.cur := rfl
@[simp] theorem setTile_reply (s : State) (k p : Nat) (t : Tile) : (s.setTile k p t).reply = s.reply := rfl

/-! ## countUe -/

@[simp] theorem countUe_ctxs (s : State) (a : Nat) : (s.countUe a).ctxs = s.ctxs := rfl
@[simp] theorem countUe_cores (s : State) (a : Nat) : (s.countUe a).cores = s.cores := rfl
@[simp] theorem countUe_engines (s : State) (a : Nat) : (s.countUe a).engines = s.engines := rfl
@[simp] theorem countUe_fetches (s : State) (a : Nat) : (s.countUe a).fetches = s.fetches := rfl
@[simp] theorem countUe_mem (s : State) (a : Nat) : (s.countUe a).mem = s.mem := rfl
@[simp] theorem countUe_miller (s : State) (a : Nat) : (s.countUe a).miller = s.miller := rfl
@[simp] theorem countUe_links (s : State) (a : Nat) : (s.countUe a).links = s.links := rfl
@[simp] theorem countUe_boot (s : State) (a : Nat) : (s.countUe a).boot = s.boot := rfl
@[simp] theorem countUe_dies (s : State) (a : Nat) : (s.countUe a).dies = s.dies := rfl
@[simp] theorem countUe_clock (s : State) (a : Nat) : (s.countUe a).clock = s.clock := rfl
@[simp] theorem countUe_seqno (s : State) (a : Nat) : (s.countUe a).seqno = s.seqno := rfl
@[simp] theorem countUe_inputs (s : State) (a : Nat) : (s.countUe a).inputs = s.inputs := rfl
@[simp] theorem countUe_tick (s : State) (a : Nat) : (s.countUe a).tick = s.tick := rfl
@[simp] theorem countUe_cur (s : State) (a : Nat) : (s.countUe a).cur = s.cur := rfl
@[simp] theorem countUe_reply (s : State) (a : Nat) : (s.countUe a).reply = s.reply := rfl

/-! ## What the updates put -/

@[simp] theorem setCtx_ctx (s : State) (c : Nat) (x : Ctx) (d : Nat) : (s.setCtx c x).ctx d = if c = d then x else s.ctx d :=
  look_put _ _ _ _ _
theorem setCtx_ctx_self (s : State) (c : Nat) (x : Ctx) : (s.setCtx c x).ctx c = x := by simp
@[simp] theorem modCtx_ctx (s : State) (c : Nat) (f : Ctx → Ctx) (d : Nat) :
    (s.modCtx c f).ctx d = if c = d then f (s.ctx c) else s.ctx d := look_put _ _ _ _ _
@[simp] theorem setCtx_setCtx (s : State) (c : Nat) (x y : Ctx) : (s.setCtx c x).setCtx c y = s.setCtx c y := by
  simp [State.setCtx]
@[simp] theorem modCtx_modCtx (s : State) (c : Nat) (f g : Ctx → Ctx) : (s.modCtx c f).modCtx c g = s.modCtx c (fun x => g (f x)) := by
  simp [State.modCtx, State.setCtx, State.ctx]
@[simp] theorem setCtx_core (s : State) (c : Nat) (x : Ctx) (k : Nat) : (s.setCtx c x).core k = s.core k := rfl
@[simp] theorem modCtx_core (s : State) (c : Nat) (f : Ctx → Ctx) (k : Nat) : (s.modCtx c f).core k = s.core k := rfl
@[simp] theorem setCtx_eng (s : State) (c : Nat) (x : Ctx) (k : Nat) : (s.setCtx c x).eng k = s.eng k := rfl
@[simp] theorem modCtx_eng (s : State) (c : Nat) (f : Ctx → Ctx) (k : Nat) : (s.modCtx c f).eng k = s.eng k := rfl
@[simp] theorem modCore_core (s : State) (k : Nat) (f : Core → Core) (j : Nat) :
    (s.modCore k f).core j = if k = j then f (s.core k) else s.core j := look_put _ _ _ _ _
@[simp] theorem modCore_ctx (s : State) (k : Nat) (f : Core → Core) (c : Nat) : (s.modCore k f).ctx c = s.ctx c := rfl
@[simp] theorem modCore_eng (s : State) (k : Nat) (f : Core → Core) (j : Nat) : (s.modCore k f).eng j = s.eng j := rfl
@[simp] theorem modEng_eng (s : State) (k : Nat) (f : Engines → Engines) (j : Nat) :
    (s.modEng k f).eng j = if k = j then f (s.eng k) else s.eng j := look_put _ _ _ _ _
@[simp] theorem modEng_ctx (s : State) (k : Nat) (f : Engines → Engines) (c : Nat) : (s.modEng k f).ctx c = s.ctx c := rfl
@[simp] theorem modEng_core (s : State) (k : Nat) (f : Engines → Engines) (j : Nat) : (s.modEng k f).core j = s.core j := rfl
@[simp] theorem modMem_mem (s : State) (f : Mem → Mem) : (s.modMem f).mem = f s.mem := rfl
@[simp] theorem modMem_ctx (s : State) (f : Mem → Mem) (c : Nat) : (s.modMem f).ctx c = s.ctx c := rfl
@[simp] theorem modMem_core (s : State) (f : Mem → Mem) (k : Nat) : (s.modMem f).core k = s.core k := rfl
@[simp] theorem modMem_eng (s : State) (f : Mem → Mem) (k : Nat) : (s.modMem f).eng k = s.eng k := rfl
@[simp] theorem draw_ctx (s : State) (c : Nat) : s.draw.ctx c = s.ctx c := rfl
@[simp] theorem draw_core (s : State) (k : Nat) : s.draw.core k = s.core k := rfl
@[simp] theorem draw_eng (s : State) (k : Nat) : s.draw.eng k = s.eng k := rfl
@[simp] theorem draw_tick (s : State) : s.draw.tick = s.tick + 1 := rfl
@[simp] theorem modLoaded_ctx (s : State) (j : Nat) (f : Loaded → Loaded) (c : Nat) : (s.modLoaded j f).ctx c = s.ctx c := rfl
@[simp] theorem modLoaded_loaded (s : State) (j : Nat) (f : Loaded → Loaded) (i : Nat) :
    (s.modLoaded j f).loaded i = if j = i then f (s.loaded j) else s.loaded i := look_put _ _ _ _ _
@[simp] theorem modJob_mem (s : State) (j : Nat) (f : Job → Job) : (s.modJob j f).mem = s.mem := by
  unfold State.modJob; split <;> rfl
@[simp] theorem modJob_ctxs (s : State) (j : Nat) (f : Job → Job) : (s.modJob j f).ctxs = s.ctxs := by
  unfold State.modJob; split <;> rfl

/-! ## Byte stores -/

@[simp] theorem store_setStore (m : Mem) (w v : Space) (x : Memory) : (m.setStore w x).store v = if w = v then x else m.store v := by
  cases w <;> cases v <;> rfl

/-! ## Registers -/

theorem rd_wr (f : Sparse Word) (n v i : Nat) : rd (wr f n v) i = if n = i then v % 2 ^ 64 else rd f i := by
  unfold rd wr
  rw [look_setv]
  split <;> simp [BitVec.toNat_ofNat]

@[simp] theorem setS_s (x : Ctx) (n v i : Nat) : (x.setS n v).s i = if n = i then v % 2 ^ 64 else x.s i := rd_wr _ _ _ _

/-! ## Ways -/

theorem setWay_way (s : State) (k w : Nat) (x : Way) (k' w' : Nat) :
    (s.setWay k w x).way k' w' = if k = k' ∧ w = w' then x else s.way k' w' := by
  unfold State.way State.setWay
  rw [modCore_core]
  by_cases h : k = k'
  · subst h; simp [look_setv]
  · simp [h]

end Sys2Proof.Machine
end

