-- ==== Sys2Proof/Laws/Issue.lean ====
section
/-! SUPPORT. What the issue of a bundle of one slot can do: when it goes, and what it leaves of each part of the state. -/

namespace Sys2Proof.Machine

open Sys2Proof

/-! ## Landing keeps the registers -/

@[simp] theorem land_regs (x : Ctx) (f : Flight) : (x.land f).regs = x.regs := by
  rcases f with ⟨_, _, _, _, _, _ | v, _, _, _, _ | ⟨n, b⟩, _, _⟩ <;> simp only [Ctx.land, Ctx.orFlags, Ctx.setCond] <;> split_ifs <;> rfl
@[simp] theorem land_traps (x : Ctx) (f : Flight) : (x.land f).traps = x.traps := by
  rcases f with ⟨_, _, _, _, _, _ | v, _, _, _, _ | ⟨n, b⟩, _, _⟩ <;> simp only [Ctx.land, Ctx.orFlags, Ctx.setCond] <;> split_ifs <;> rfl
@[simp] theorem land_win (x : Ctx) (f : Flight) : (x.land f).win = x.win := by
  rcases f with ⟨_, _, _, _, _, _ | v, _, _, _, _ | ⟨n, b⟩, _, _⟩ <;> simp only [Ctx.land, Ctx.orFlags, Ctx.setCond] <;> split_ifs <;> rfl
@[simp] theorem land_sched (x : Ctx) (f : Flight) : (x.land f).sched = x.sched := by
  rcases f with ⟨_, _, _, _, _, _ | v, _, _, _, _ | ⟨n, b⟩, _, _⟩ <;> simp only [Ctx.land, Ctx.orFlags, Ctx.setCond] <;> split_ifs <;> rfl

/-- Landing keeps what neither a landing nor leaving the list of flights changes. -/
theorem landThe_keeps {β : Type} (g : Ctx → β) (hg : ∀ x f, g (Ctx.land x f) = g x)
    (hp : ∀ (x : Ctx) l, g { x with ports := { x.ports with flights := l } } = g x) (ok : Flight → Bool) (x : Ctx) (t n : Nat) :
    g (Ctx.landThe ok x t n) = g x := by
  induction n generalizing x with
  | zero => rfl
  | succ n ih =>
    unfold Ctx.landThe
    split
    · rfl
    · split
      · rfl
      · rw [ih, hg, hp]

theorem landUpTo_keeps {β : Type} (g : Ctx → β) (hg : ∀ x f, g (Ctx.land x f) = g x)
    (hp : ∀ (x : Ctx) l, g { x with ports := { x.ports with flights := l } } = g x) (x : Ctx) (t n : Nat) :
    g (x.landUpTo t n) = g x := landThe_keeps g hg hp _ x t n

@[simp] theorem landUpTo_regs (x : Ctx) (t n : Nat) : (x.landUpTo t n).regs = x.regs :=
  landUpTo_keeps (·.regs) (by simp) (by simp) x t n
@[simp] theorem landUpTo_traps (x : Ctx) (t n : Nat) : (x.landUpTo t n).traps = x.traps :=
  landUpTo_keeps (·.traps) (by simp) (by simp) x t n
@[simp] theorem landUpTo_win (x : Ctx) (t n : Nat) : (x.landUpTo t n).win = x.win :=
  landUpTo_keeps (·.win) (by simp) (by simp) x t n
@[simp] theorem landUpTo_sched (x : Ctx) (t n : Nat) : (x.landUpTo t n).sched = x.sched :=
  landUpTo_keeps (·.sched) (by simp) (by simp) x t n

@[simp] theorem endShadow_regs (x : Ctx) : x.endShadow.regs = x.regs := rfl
@[simp] theorem endShadow_traps (x : Ctx) : x.endShadow.traps = x.traps := rfl
@[simp] theorem endShadow_win (x : Ctx) : x.endShadow.win = x.win := rfl
@[simp] theorem endShadow_sched (x : Ctx) : x.endShadow.sched = x.sched := rfl

/-- Settling keeps what neither a landing nor leaving the list of flights changes, beside the time of the last gap. -/
theorem settle_keeps {β : Type} (g : Ctx → β) (hg : ∀ x f, g (Ctx.land x f) = g x)
    (hp : ∀ (x : Ctx) l, g { x with ports := { x.ports with flights := l } } = g x)
    (hs : ∀ (x : Ctx) n, g { x with seq := { x.seq with gap := n } } = g x) (x : Ctx) (f : Nat → Nat) : g (x.settle f) = g x := by
  unfold Ctx.settle
  simp only [hs, landThe_keeps g hg hp]
  split
  · rfl
  · exact hp _ _

@[simp] theorem settle_regs (x : Ctx) (f : Nat → Nat) : (x.settle f).regs = x.regs := settle_keeps (·.regs) (by simp) (by simp) (by simp) x f
@[simp] theorem settle_traps (x : Ctx) (f : Nat → Nat) : (x.settle f).traps = x.traps := settle_keeps (·.traps) (by simp) (by simp) (by simp) x f
@[simp] theorem settle_win (x : Ctx) (f : Nat → Nat) : (x.settle f).win = x.win := settle_keeps (·.win) (by simp) (by simp) (by simp) x f
@[simp] theorem settle_sched (x : Ctx) (f : Nat → Nat) : (x.settle f).sched = x.sched := settle_keeps (·.sched) (by simp) (by simp) (by simp) x f

/-! ## The start of a bundle -/

theorem settled_eq (s : State) (c : Nat) : ∃ x, s.settled c = s.setCtx c x ∧ x.regs = (s.ctx c).regs ∧ x.traps = (s.ctx c).traps ∧
    x.win = (s.ctx c).win ∧ x.sched = (s.ctx c).sched := by
  refine ⟨((s.ctx c).endShadow).settle ((s.modCtx c Ctx.endShadow).landDraw c), ?_, by simp, by simp, by simp, by simp⟩
  simp only [State.settled, State.modCtx, State.setCtx, State.ctx, look_put_self, put_put]
  rfl

@[simp] theorem begun_mem (s : State) : (begun s).mem = s.mem := by
  obtain ⟨x, h, -⟩ := settled_eq s s.cur; simp [begun, h]
@[simp] theorem begun_engines (s : State) : (begun s).engines = s.engines := by
  obtain ⟨x, h, -⟩ := settled_eq s s.cur; simp [begun, h]
@[simp] theorem begun_cores (s : State) : (begun s).cores = s.cores := by
  obtain ⟨x, h, -⟩ := settled_eq s s.cur; simp [begun, h]
@[simp] theorem begun_miller (s : State) : (begun s).miller = s.miller := by
  obtain ⟨x, h, -⟩ := settled_eq s s.cur; simp [begun, h]
@[simp] theorem begun_links (s : State) : (begun s).links = s.links := by
  obtain ⟨x, h, -⟩ := settled_eq s s.cur; simp [begun, h]
@[simp] theorem begun_boot (s : State) : (begun s).boot = s.boot := by
  obtain ⟨x, h, -⟩ := settled_eq s s.cur; simp [begun, h]
@[simp] theorem begun_tele (s : State) : (begun s).tele = s.tele := by
  obtain ⟨x, h, -⟩ := settled_eq s s.cur; simp [begun, h]
@[simp] theorem begun_dies (s : State) : (begun s).dies = s.dies := by
  obtain ⟨x, h, -⟩ := settled_eq s s.cur; simp [begun, h]
@[simp] theorem begun_fetches (s : State) : (begun s).fetches = s.fetches := by
  obtain ⟨x, h, -⟩ := settled_eq s s.cur; simp [begun, h]
@[simp] theorem begun_clock (s : State) : (begun s).clock = s.clock := by
  obtain ⟨x, h, -⟩ := settled_eq s s.cur; simp [begun, h]
@[simp] theorem begun_seqno (s : State) : (begun s).seqno = s.seqno := by
  obtain ⟨x, h, -⟩ := settled_eq s s.cur; simp [begun, h]
@[simp] theorem begun_inputs (s : State) : (begun s).inputs = s.inputs := by
  obtain ⟨x, h, -⟩ := settled_eq s s.cur; simp [begun, h]
@[simp] theorem begun_tick (s : State) : (begun s).tick = s.tick := by
  obtain ⟨x, h, -⟩ := settled_eq s s.cur; simp [begun, h]
@[simp] theorem begun_cur (s : State) : (begun s).cur = s.cur := by
  obtain ⟨x, h, -⟩ := settled_eq s s.cur; simp [begun, h]
@[simp] theorem begun_core (s : State) (k : Nat) : (begun s).core k = s.core k := by simp [State.core]
@[simp] theorem begun_eng (s : State) (k : Nat) : (begun s).eng k = s.eng k := by simp [State.eng]
theorem begun_ctx_ne (s : State) {d : Nat} (h : d ≠ s.cur) : (begun s).ctx d = s.ctx d := by
  obtain ⟨x, hx, -⟩ := settled_eq s s.cur; simp [begun, hx, Ne.symm h]
@[simp] theorem begun_me (s : State) : (begun s).me = me s := by simp [State.me, me]
@[simp] theorem begun_ctx_cur (s : State) : (begun s).ctx s.cur = me s := rfl
@[simp] theorem me_regs (s : State) : (me s).regs = (s.ctx s.cur).regs := by
  obtain ⟨x, hx, hr, -⟩ := settled_eq s s.cur; simp [me, begun, hx, hr]
@[simp] theorem me_traps (s : State) : (me s).traps = (s.ctx s.cur).traps := by
  obtain ⟨x, hx, -, hr, -⟩ := settled_eq s s.cur; simp [me, begun, hx, hr]
@[simp] theorem me_win (s : State) : (me s).win = (s.ctx s.cur).win := by
  obtain ⟨x, hx, -, -, hr, -⟩ := settled_eq s s.cur; simp [me, begun, hx, hr]
@[simp] theorem me_sched (s : State) : (me s).sched = (s.ctx s.cur).sched := by
  obtain ⟨x, hx, -, -, -, hr⟩ := settled_eq s s.cur; simp [me, begun, hx, hr]

/-! ## When a bundle of one slot goes -/

/-- The phases of R66. -/
def phases : List Nat := [20, 30, 35, 40, 50, 60]

theorem runPhases_one (k : Nat) (m : Sem) (h : m.phase ∈ phases) (s : State) : runPhases [(k, m)] s = m.act s := by
  simp only [phases, List.mem_cons, List.not_mem_nil, or_false] at h
  unfold runPhases
  rcases h with h | h | h | h | h | h <;> simp [h]

theorem chooseTrap_isNone (l : List SlotCand) : chooseTrap l = none ↔ l = [] := by
  cases l with
  | nil => simp [chooseTrap]
  | cons k r => simp only [chooseTrap, reduceCtorEq, iff_false]; split <;> (try split) <;> simp

theorem attempt_go_one (s : State) (k : Nat) (m : Sem) (hf : CanIssue s) (hc : Clear s m) :
    attemptSlots (begun s) s.cur Header.none [(k, m)] = .go := by
  obtain ⟨h1, h2, h3, h4, h5, h6, h7, h8⟩ := hc
  have hcand : allCands (begun s) s.cur Header.none [(k, m)] = [] := by
    unfold allCands
    have hh : headerCands (begun s) s.cur Header.none = [] := by simp [headerCands, Header.none, candIf]
    have hb : bundleCands [(k, m)] = [] := by
      cases ht : m.tout with
      | none => simp [bundleCands, firstPair, ht]
      | some t => simp [bundleCands, firstPair, ht, (h2 t ht).1]
    have hi : intervalCands ((begun s).ctx s.cur) [(k, m)] = [] := by
      cases hu : m.unit with
      | none => simp [intervalCands, hu]
      | some u => simp [intervalCands, hu, Nat.not_lt.mpr (h3 u hu).1]
    rw [hh, hb, hi]; simp [h1]
  have hs : bundleStalls (begun s) s.cur [(k, m)] = false := by
    have h9 : slotStalls (begun s) s.cur m = false := by
      simp only [slotStalls, h4, Bool.false_or, Bool.or_eq_false_iff]
      refine ⟨⟨?_, ?_⟩, ?_⟩
      · cases hu : m.unit with
        | none => rfl
        | some u =>
          have := (h3 u hu).2
          simp only [begun_clock, begun_core, Bool.and_eq_false_iff, decide_eq_false_iff_not, not_lt, bne_eq_false_iff_eq]
          exact this
      · split
        · next hq => simpa using h6 hq
        · next hq => simpa using h7 hq
        · rfl
      · cases ht : m.tout with
        | none => rfl
        | some t => exact (h2 t ht).2
    simp only [bundleStalls, List.any_cons, List.any_nil, h9, Bool.or_false, Bool.false_or, List.foldl_cons, List.foldl_nil,
      begun_ctx_cur]
    apply decide_eq_false
    omega
  have hm : ((begun s).ctx s.cur).missing ((begun s).ctx s.cur).seq.cyc = false := hf.2
  simp only [attemptSlots, hm, Bool.false_eq_true, if_false, hcand, chooseTrap, hs, h5, List.flatMap_cons, List.flatMap_nil,
    List.append_nil, List.isEmpty_nil]
  rfl

/-- A bundle of one slot that meets nothing completes, leaving `afterSlot`. -/
theorem issueOne_go (s : State) (k : Nat) (sem : State → State → Sem) (hf : CanIssue s)
    (hl : semsOf [(k, sem)] (begun s) = [(k, sem (begun s) (begun s))]) (hp : (sem (begun s) (begun s)).phase ∈ phases)
    (hc : Clear s (sem (begun s) (begun s))) :
    issueOne k sem s = .next (afterSlot s k (sem (begun s) (begun s))) := by
  have hb : s.settled s.cur = begun s := rfl
  simp only [issueOne, hf.1, if_true, hb, hl, issueSlots, attempt_go_one s k _ hf hc, afterSlot, runPhases_one k _ hp,
    lenOf, begun_ctx_cur]

/-- Triggers and control slots see no move of their own bundle. -/
theorem semsOf_one (k : Nat) (sem : State → State → Sem) (s : State) (h : (sem s s).phase ≠ 20) :
    semsOf [(k, sem)] s = [(k, sem s s)] := by
  simp [semsOf, latchState, h]

/-! ## What follows the slots -/

theorem endYields_keeps {β : Type} (g : State → β) (hg : ∀ s c f, g (State.modCtx s c f) = g s) (s : State) (c : Nat) :
    g (endYields s c) = g s := by
  unfold endYields
  generalize ctxsOf (coreOf c) = l
  have h : ∀ (l : List Nat) (t : State), g (l.foldl (fun t d =>
      if d ≠ c ∧ t.prio d ≤ t.prio c ∧ (t.ctx d).sched.yieldAt.isSome then
        t.modCtx d (fun x => { x with sched := { x.sched with yieldAt := none } })
      else t) t) = g t := by
    intro l
    induction l with
    | nil => intro t; rfl
    | cons d r ih => intro t; rw [List.foldl_cons, ih]; split
                     · exact hg _ _ _
                     · rfl
  exact h l s

theorem endYields_ctx (s : State) (c d : Nat) : (endYields s c).ctx d = s.ctx d ∨
    (d ≠ c ∧ (endYields s c).ctx d = { s.ctx d with sched := { (s.ctx d).sched with yieldAt := none } }) := by
  unfold endYields
  have h : ∀ (l : List Nat) (t : State), (t.ctx d = s.ctx d ∨
      (d ≠ c ∧ t.ctx d = { s.ctx d with sched := { (s.ctx d).sched with yieldAt := none } })) →
      ((l.foldl (fun t d => if d ≠ c ∧ t.prio d ≤ t.prio c ∧ (t.ctx d).sched.yieldAt.isSome then
        t.modCtx d (fun x => { x with sched := { x.sched with yieldAt := none } }) else t) t).ctx d = s.ctx d ∨
      (d ≠ c ∧ (l.foldl (fun t d => if d ≠ c ∧ t.prio d ≤ t.prio c ∧ (t.ctx d).sched.yieldAt.isSome then
        t.modCtx d (fun x => { x with sched := { x.sched with yieldAt := none } }) else t) t).ctx d =
        { s.ctx d with sched := { (s.ctx d).sched with yieldAt := none } })) := by
    intro l
    induction l with
    | nil => intro t ht; exact ht
    | cons e r ih =>
      intro t ht
      rw [List.foldl_cons]
      apply ih
      split
      · next hc =>
        by_cases he : e = d
        · subst he
          refine .inr ⟨hc.1, ?_⟩
          rcases ht with ht | ⟨_, ht⟩ <;> simp [ht]
        · simp only [modCtx_ctx, he, if_false]; exact ht
      · exact ht
  exact h _ s (.inl rfl)

theorem endYields_ctx_self (s : State) (c : Nat) : (endYields s c).ctx c = s.ctx c := by
  rcases endYields_ctx s c c with h | ⟨h, -⟩
  · exact h
  · exact absurd rfl h

@[simp] theorem endYields_mem (s : State) (c : Nat) : (endYields s c).mem = s.mem := endYields_keeps (·.mem) (by simp) s c
@[simp] theorem endYields_engines (s : State) (c : Nat) : (endYields s c).engines = s.engines := endYields_keeps (·.engines) (by simp) s c
@[simp] theorem endYields_miller (s : State) (c : Nat) : (endYields s c).miller = s.miller := endYields_keeps (·.miller) (by simp) s c
@[simp] theorem endYields_links (s : State) (c : Nat) : (endYields s c).links = s.links := endYields_keeps (·.links) (by simp) s c
@[simp] theorem endYields_boot (s : State) (c : Nat) : (endYields s c).boot = s.boot := endYields_keeps (·.boot) (by simp) s c
@[simp] theorem endYields_tele (s : State) (c : Nat) : (endYields s c).tele = s.tele := endYields_keeps (·.tele) (by simp) s c
@[simp] theorem endYields_dies (s : State) (c : Nat) : (endYields s c).dies = s.dies := endYields_keeps (·.dies) (by simp) s c
@[simp] theorem endYields_fetches (s : State) (c : Nat) : (endYields s c).fetches = s.fetches := endYields_keeps (·.fetches) (by simp) s c
@[simp] theorem endYields_clock (s : State) (c : Nat) : (endYields s c).clock = s.clock := endYields_keeps (·.clock) (by simp) s c
@[simp] theorem endYields_seqno (s : State) (c : Nat) : (endYields s c).seqno = s.seqno := endYields_keeps (·.seqno) (by simp) s c
@[simp] theorem endYields_inputs (s : State) (c : Nat) : (endYields s c).inputs = s.inputs := endYields_keeps (·.inputs) (by simp) s c
@[simp] theorem endYields_cur (s : State) (c : Nat) : (endYields s c).cur = s.cur := endYields_keeps (·.cur) (by simp) s c
@[simp] theorem endYields_reply (s : State) (c : Nat) : (endYields s c).reply = s.reply := endYields_keeps (·.reply) (by simp) s c
@[simp] theorem endYields_cores (s : State) (c : Nat) : (endYields s c).cores = s.cores := endYields_keeps (·.cores) (by simp) s c
@[simp] theorem endYields_tick (s : State) (c : Nat) : (endYields s c).tick = s.tick := endYields_keeps (·.tick) (by simp) s c

@[simp] theorem spendCycle_mem (s : State) (c : Nat) : (spendCycle s c).mem = s.mem := by simp [spendCycle]
@[simp] theorem spendCycle_engines (s : State) (c : Nat) : (spendCycle s c).engines = s.engines := by simp [spendCycle]
@[simp] theorem spendCycle_miller (s : State) (c : Nat) : (spendCycle s c).miller = s.miller := by simp [spendCycle]
@[simp] theorem spendCycle_links (s : State) (c : Nat) : (spendCycle s c).links = s.links := by simp [spendCycle]
@[simp] theorem spendCycle_boot (s : State) (c : Nat) : (spendCycle s c).boot = s.boot := by simp [spendCycle]
@[simp] theorem spendCycle_tele (s : State) (c : Nat) : (spendCycle s c).tele = s.tele := by simp [spendCycle]
@[simp] theorem spendCycle_dies (s : State) (c : Nat) : (spendCycle s c).dies = s.dies := by simp [spendCycle]
@[simp] theorem spendCycle_fetches (s : State) (c : Nat) : (spendCycle s c).fetches = s.fetches := by simp [spendCycle]
@[simp] theorem spendCycle_clock (s : State) (c : Nat) : (spendCycle s c).clock = s.clock := by simp [spendCycle]
@[simp] theorem spendCycle_seqno (s : State) (c : Nat) : (spendCycle s c).seqno = s.seqno := by simp [spendCycle]
@[simp] theorem spendCycle_inputs (s : State) (c : Nat) : (spendCycle s c).inputs = s.inputs := by simp [spendCycle]
@[simp] theorem spendCycle_cur (s : State) (c : Nat) : (spendCycle s c).cur = s.cur := by simp [spendCycle]
@[simp] theorem spendCycle_reply (s : State) (c : Nat) : (spendCycle s c).reply = s.reply := by simp [spendCycle]
@[simp] theorem spendCycle_tick (s : State) (c : Nat) : (spendCycle s c).tick = s.tick := by simp [spendCycle]

/-- Two states whose cores differ in units, selector and translations alone. -/
theorem sameCores_refl (s : State) : SameCores s s := ⟨fun _ => ⟨rfl, rfl, rfl, rfl, rfl, rfl, rfl⟩, fun _ => rfl⟩
theorem sameCoresBut_trans {s t u : State} (h1 : SameCoresBut s t) (h2 : SameCoresBut t u) : SameCoresBut s u := fun k => by
  obtain ⟨a1, a2, a3, a4, a5, a6, a7⟩ := h1 k
  obtain ⟨b1, b2, b3, b4, b5, b6, b7⟩ := h2 k
  exact ⟨b1.trans a1, b2.trans a2, b3.trans a3, b4.trans a4, b5.trans a5, b6.trans a6, b7.trans a7⟩
theorem sameCores_trans {s t u : State} (h1 : SameCores s t) (h2 : SameCores t u) : SameCores s u :=
  ⟨sameCoresBut_trans h1.1 h2.1, fun k => (h2.2 k).trans (h1.2 k)⟩
theorem sameCores_of_cores {s t : State} (h : t.cores = s.cores) : SameCores s t :=
  ⟨fun k => by simp [State.core, h], fun k => by simp [State.core, h]⟩
/-- A change of one core's units or selector. -/
theorem sameCores_modCore (s : State) (k : Nat) (f : Core → Core)
    (h : ∀ q, (f q).tiles = q.tiles ∧ (f q).ways = q.ways ∧ (f q).dict = q.dict ∧ (f q).icache = q.icache ∧ (f q).blocks = q.blocks ∧
      (f q).maint = q.maint ∧ (f q).tlb = q.tlb) (hf : ∀ q, (f q).fresh = q.fresh) : SameCores s (s.modCore k f) := by
  refine ⟨fun j => ?_, fun j => ?_⟩ <;> rw [modCore_core] <;> split
  · next e => subst e; exact h _
  · exact ⟨rfl, rfl, rfl, rfl, rfl, rfl, rfl⟩
  · next e => subst e; exact hf _
  · rfl

theorem sameCores_spendCycle (s : State) (c : Nat) : SameCores s (spendCycle s c) := by
  unfold spendCycle
  exact sameCores_trans (sameCores_modCore s _ (fun k => { k with nextIssue := s.clock + 1, turn := put k.turn (s.prio c) c })
    (fun _ => ⟨rfl, rfl, rfl, rfl, rfl, rfl, rfl⟩) (fun _ => rfl)) (sameCores_of_cores (endYields_cores _ _))
/-- A flow that neither halts nor traps. -/
def Flow.goesOn : Flow → Bool
  | .halt => false
  | .trap _ _ => false
  | _ => true

theorem finishBundle_goesOn (s : State) (c len : Nat) (h : Header) (l : List (Nat × Sem)) (hg : (flowOf l).goesOn = true) :
    finishBundle s c len h l = spendCycle (s.setCtx c (finishCtx (s.ctx c) s.clock len h l)) c := by
  unfold finishBundle
  cases hf : flowOf l <;> simp_all [Flow.goesOn]

theorem finish_ctx (s : State) (c len : Nat) (h : Header) (l : List (Nat × Sem)) (hg : (flowOf l).goesOn = true) :
    (finishBundle s c len h l).ctx c = finishCtx (s.ctx c) s.clock len h l := by
  rw [finishBundle_goesOn s c len h l hg, spendCycle, endYields_ctx_self, modCore_ctx, setCtx_ctx_self]

theorem finish_mem (s : State) (c len : Nat) (h : Header) (l : List (Nat × Sem)) (hg : (flowOf l).goesOn = true) :
    (finishBundle s c len h l).mem = s.mem := by simp [finishBundle_goesOn s c len h l hg]
theorem finish_engines (s : State) (c len : Nat) (h : Header) (l : List (Nat × Sem)) (hg : (flowOf l).goesOn = true) :
    (finishBundle s c len h l).engines = s.engines := by simp [finishBundle_goesOn s c len h l hg]
theorem finish_miller (s : State) (c len : Nat) (h : Header) (l : List (Nat × Sem)) (hg : (flowOf l).goesOn = true) :
    (finishBundle s c len h l).miller = s.miller := by simp [finishBundle_goesOn s c len h l hg]
theorem finish_links (s : State) (c len : Nat) (h : Header) (l : List (Nat × Sem)) (hg : (flowOf l).goesOn = true) :
    (finishBundle s c len h l).links = s.links := by simp [finishBundle_goesOn s c len h l hg]
theorem finish_boot (s : State) (c len : Nat) (h : Header) (l : List (Nat × Sem)) (hg : (flowOf l).goesOn = true) :
    (finishBundle s c len h l).boot = s.boot := by simp [finishBundle_goesOn s c len h l hg]
theorem finish_tele (s : State) (c len : Nat) (h : Header) (l : List (Nat × Sem)) (hg : (flowOf l).goesOn = true) :
    (finishBundle s c len h l).tele = s.tele := by simp [finishBundle_goesOn s c len h l hg]
theorem finish_dies (s : State) (c len : Nat) (h : Header) (l : List (Nat × Sem)) (hg : (flowOf l).goesOn = true) :
    (finishBundle s c len h l).dies = s.dies := by simp [finishBundle_goesOn s c len h l hg]
theorem finish_fetches (s : State) (c len : Nat) (h : Header) (l : List (Nat × Sem)) (hg : (flowOf l).goesOn = true) :
    (finishBundle s c len h l).fetches = s.fetches := by simp [finishBundle_goesOn s c len h l hg]
theorem finish_clock (s : State) (c len : Nat) (h : Header) (l : List (Nat × Sem)) (hg : (flowOf l).goesOn = true) :
    (finishBundle s c len h l).clock = s.clock := by simp [finishBundle_goesOn s c len h l hg]
theorem finish_seqno (s : State) (c len : Nat) (h : Header) (l : List (Nat × Sem)) (hg : (flowOf l).goesOn = true) :
    (finishBundle s c len h l).seqno = s.seqno := by simp [finishBundle_goesOn s c len h l hg]
theorem finish_inputs (s : State) (c len : Nat) (h : Header) (l : List (Nat × Sem)) (hg : (flowOf l).goesOn = true) :
    (finishBundle s c len h l).inputs = s.inputs := by simp [finishBundle_goesOn s c len h l hg]
theorem finish_cur (s : State) (c len : Nat) (h : Header) (l : List (Nat × Sem)) (hg : (flowOf l).goesOn = true) :
    (finishBundle s c len h l).cur = s.cur := by simp [finishBundle_goesOn s c len h l hg]
theorem finish_reply (s : State) (c len : Nat) (h : Header) (l : List (Nat × Sem)) (hg : (flowOf l).goesOn = true) :
    (finishBundle s c len h l).reply = s.reply := by simp [finishBundle_goesOn s c len h l hg]
theorem finish_tick (s : State) (c len : Nat) (h : Header) (l : List (Nat × Sem)) (hg : (flowOf l).goesOn = true) :
    (finishBundle s c len h l).tick = s.tick := by simp [finishBundle_goesOn s c len h l hg]

theorem finish_cores (s : State) (c len : Nat) (h : Header) (l : List (Nat × Sem)) (hg : (flowOf l).goesOn = true) :
    SameCores s (finishBundle s c len h l) := by
  rw [finishBundle_goesOn s c len h l hg]
  have h1 : SameCores s (s.setCtx c (finishCtx (s.ctx c) s.clock len h l)) := sameCores_of_cores rfl
  exact sameCores_trans h1 (sameCores_spendCycle _ c)

theorem finish_ctx_ne (s : State) (c len : Nat) (h : Header) (l : List (Nat × Sem)) (hg : (flowOf l).goesOn = true) {d : Nat} (hd : d ≠ c) :
    (finishBundle s c len h l).ctx d = s.ctx d ∨
      (finishBundle s c len h l).ctx d = { s.ctx d with sched := { (s.ctx d).sched with yieldAt := none } } := by
  rw [finishBundle_goesOn s c len h l hg, spendCycle]
  have h0 := endYields_ctx ((s.setCtx c (finishCtx (s.ctx c) s.clock len h l)).modCore (coreOf c) (fun k =>
    { k with nextIssue := (s.setCtx c (finishCtx (s.ctx c) s.clock len h l)).clock + 1,
             turn := put k.turn ((s.setCtx c (finishCtx (s.ctx c) s.clock len h l)).prio c) c })) c d
  rw [modCore_ctx, setCtx_ctx, if_neg (Ne.symm hd)] at h0
  exact h0.imp id (·.2)

@[simp] theorem holdUnits_one_mem (s : State) (c k : Nat) (m : Sem) : (holdUnits s c [(k, m)]).mem = s.mem := by
  simp only [holdUnits, List.foldl_cons, List.foldl_nil]; split <;> rfl
@[simp] theorem holdUnits_one_engines (s : State) (c k : Nat) (m : Sem) : (holdUnits s c [(k, m)]).engines = s.engines := by
  simp only [holdUnits, List.foldl_cons, List.foldl_nil]; split <;> rfl
@[simp] theorem holdUnits_one_miller (s : State) (c k : Nat) (m : Sem) : (holdUnits s c [(k, m)]).miller = s.miller := by
  simp only [holdUnits, List.foldl_cons, List.foldl_nil]; split <;> rfl
@[simp] theorem holdUnits_one_links (s : State) (c k : Nat) (m : Sem) : (holdUnits s c [(k, m)]).links = s.links := by
  simp only [holdUnits, List.foldl_cons, List.foldl_nil]; split <;> rfl
@[simp] theorem holdUnits_one_boot (s : State) (c k : Nat) (m : Sem) : (holdUnits s c [(k, m)]).boot = s.boot := by
  simp only [holdUnits, List.foldl_cons, List.foldl_nil]; split <;> rfl
@[simp] theorem holdUnits_one_tele (s : State) (c k : Nat) (m : Sem) : (holdUnits s c [(k, m)]).tele = s.tele := by
  simp only [holdUnits, List.foldl_cons, List.foldl_nil]; split <;> rfl
@[simp] theorem holdUnits_one_dies (s : State) (c k : Nat) (m : Sem) : (holdUnits s c [(k, m)]).dies = s.dies := by
  simp only [holdUnits, List.foldl_cons, List.foldl_nil]; split <;> rfl
@[simp] theorem holdUnits_one_fetches (s : State) (c k : Nat) (m : Sem) : (holdUnits s c [(k, m)]).fetches = s.fetches := by
  simp only [holdUnits, List.foldl_cons, List.foldl_nil]; split <;> rfl
@[simp] theorem holdUnits_one_clock (s : State) (c k : Nat) (m : Sem) : (holdUnits s c [(k, m)]).clock = s.clock := by
  simp only [holdUnits, List.foldl_cons, List.foldl_nil]; split <;> rfl
@[simp] theorem holdUnits_one_seqno (s : State) (c k : Nat) (m : Sem) : (holdUnits s c [(k, m)]).seqno = s.seqno := by
  simp only [holdUnits, List.foldl_cons, List.foldl_nil]; split <;> rfl
@[simp] theorem holdUnits_one_inputs (s : State) (c k : Nat) (m : Sem) : (holdUnits s c [(k, m)]).inputs = s.inputs := by
  simp only [holdUnits, List.foldl_cons, List.foldl_nil]; split <;> rfl
@[simp] theorem holdUnits_one_cur (s : State) (c k : Nat) (m : Sem) : (holdUnits s c [(k, m)]).cur = s.cur := by
  simp only [holdUnits, List.foldl_cons, List.foldl_nil]; split <;> rfl
@[simp] theorem holdUnits_one_reply (s : State) (c k : Nat) (m : Sem) : (holdUnits s c [(k, m)]).reply = s.reply := by
  simp only [holdUnits, List.foldl_cons, List.foldl_nil]; split <;> rfl
@[simp] theorem holdUnits_one_tick (s : State) (c k : Nat) (m : Sem) : (holdUnits s c [(k, m)]).tick = s.tick := by
  simp only [holdUnits, List.foldl_cons, List.foldl_nil]; split <;> rfl

theorem holdUnits_one_cores (s : State) (c k : Nat) (m : Sem) : SameCores s (holdUnits s c [(k, m)]) := by
  simp only [holdUnits, List.foldl_cons, List.foldl_nil]
  split
  · next u _ =>
    exact sameCores_trans (sameCores_of_cores rfl) (sameCores_modCore _ (coreOf c)
      (fun q => { q with units := put q.units u.1 (s.clock + u.2, c) }) (fun _ => ⟨rfl, rfl, rfl, rfl, rfl, rfl, rfl⟩) (fun _ => rfl))
  · exact sameCores_refl s

/-- A context with a unit held. -/
def Ctx.held (x : Ctx) (m : Sem) : Ctx :=
  match m.unit with
  | some u => { x with ports := { x.ports with busy := put x.ports.busy u.1 (x.seq.cyc + u.2) } }
  | none => x

theorem holdUnits_one_ctx (s : State) (c k : Nat) (m : Sem) (d : Nat) :
    (holdUnits s c [(k, m)]).ctx d = if c = d then (s.ctx c).held m else s.ctx d := by
  cases hu : m.unit with
  | none => simp only [holdUnits, List.foldl_cons, List.foldl_nil, Ctx.held, hu]; split <;> simp_all
  | some u => simp [holdUnits, Ctx.held, hu]

@[simp] theorem flowOf_one (k : Nat) (m : Sem) : flowOf [(k, m)] = m.flow := by
  unfold flowOf
  by_cases h : m.flow = .next
  · simp [h]
  · simp [h]

end Sys2Proof.Machine
end

