-- ==== Sys2Proof/Laws/After.lean ====
section
/-! SUPPORT. The state that a bundle of one slot leaves, part by part. -/

namespace Sys2Proof.Machine

open Sys2Proof

/-! ## The context after the bundle -/

@[simp] theorem closeLoop_regs (x : Ctx) (n : Nat) : (x.closeLoop n).1.regs = x.regs := by
  unfold Ctx.closeLoop; simp only; split_ifs <;> rfl
@[simp] theorem closeLoop_ports (x : Ctx) (n : Nat) : (x.closeLoop n).1.ports = x.ports := by
  unfold Ctx.closeLoop; simp only; split_ifs <;> rfl
@[simp] theorem closeLoop_fmts (x : Ctx) (n : Nat) : (x.closeLoop n).1.fmts = x.fmts := by
  unfold Ctx.closeLoop; simp only; split_ifs <;> rfl
@[simp] theorem closeLoop_traps (x : Ctx) (n : Nat) : (x.closeLoop n).1.traps = x.traps := by
  unfold Ctx.closeLoop; simp only; split_ifs <;> rfl
@[simp] theorem closeLoop_win (x : Ctx) (n : Nat) : (x.closeLoop n).1.win = x.win := by
  unfold Ctx.closeLoop; simp only; split_ifs <;> rfl
@[simp] theorem closeLoop_sched (x : Ctx) (n : Nat) : (x.closeLoop n).1.sched = x.sched := by
  unfold Ctx.closeLoop; simp only; split_ifs <;> rfl
@[simp] theorem closeLoop_kcond (x : Ctx) (n : Nat) : (x.closeLoop n).1.seq.kcond = x.seq.kcond := by
  unfold Ctx.closeLoop; simp only; split_ifs <;> rfl
@[simp] theorem closeLoop_wait (x : Ctx) (n : Nat) : (x.closeLoop n).1.seq.wait = x.seq.wait := by
  unfold Ctx.closeLoop; simp only; split_ifs <;> rfl
@[simp] theorem closeLoop_run (x : Ctx) (n : Nat) : (x.closeLoop n).1.seq.run = x.seq.run := by
  unfold Ctx.closeLoop; simp only; split_ifs <;> rfl
@[simp] theorem closeLoop_cyc (x : Ctx) (n : Nat) : (x.closeLoop n).1.seq.cyc = x.seq.cyc := by
  unfold Ctx.closeLoop; simp only; split_ifs <;> rfl

/-- Popping loop levels keeps what a change of the loop stack keeps. -/
theorem popLoops_keeps {β : Type} (g : Ctx → β) (h : ∀ (x : Ctx) l d, g { x with seq := { x.seq with loops := l, ldepth := d } } = g x)
    (x : Ctx) (n : Nat) : g (x.popLoops n) = g x := by
  induction n generalizing x with
  | zero => rfl
  | succ n ih => exact (ih _).trans (h _ _ _)

@[simp] theorem popLoops_regs (x : Ctx) (n : Nat) : (x.popLoops n).regs = x.regs := popLoops_keeps (·.regs) (fun _ _ _ => rfl) x n
@[simp] theorem popLoops_ports (x : Ctx) (n : Nat) : (x.popLoops n).ports = x.ports := popLoops_keeps (·.ports) (fun _ _ _ => rfl) x n
@[simp] theorem popLoops_win (x : Ctx) (n : Nat) : (x.popLoops n).win = x.win := popLoops_keeps (·.win) (fun _ _ _ => rfl) x n
@[simp] theorem popLoops_fmts (x : Ctx) (n : Nat) : (x.popLoops n).fmts = x.fmts := popLoops_keeps (·.fmts) (fun _ _ _ => rfl) x n
@[simp] theorem popLoops_traps (x : Ctx) (n : Nat) : (x.popLoops n).traps = x.traps := popLoops_keeps (·.traps) (fun _ _ _ => rfl) x n
@[simp] theorem popLoops_sched (x : Ctx) (n : Nat) : (x.popLoops n).sched = x.sched := popLoops_keeps (·.sched) (fun _ _ _ => rfl) x n
@[simp] theorem popLoops_kcond (x : Ctx) (n : Nat) : (x.popLoops n).seq.kcond = x.seq.kcond := popLoops_keeps (·.seq.kcond) (fun _ _ _ => rfl) x n
@[simp] theorem popLoops_wait (x : Ctx) (n : Nat) : (x.popLoops n).seq.wait = x.seq.wait := popLoops_keeps (·.seq.wait) (fun _ _ _ => rfl) x n
@[simp] theorem popLoops_pc (x : Ctx) (n : Nat) : (x.popLoops n).seq.pc = x.seq.pc := popLoops_keeps (·.seq.pc) (fun _ _ _ => rfl) x n
@[simp] theorem popLoops_cyc (x : Ctx) (n : Nat) : (x.popLoops n).seq.cyc = x.seq.cyc := popLoops_keeps (·.seq.cyc) (fun _ _ _ => rfl) x n

/-- A boundary that is no point, or is one, changes of the context only the note of it and the wait to be saved. -/
theorem reachPoint_keeps {β : Type} (g : Ctx → β) (hp : ∀ (x : Ctx) b, g { x with seq := { x.seq with point := b } } = g x)
    (hw : ∀ (x : Ctx) w, g { x with seq := { x.seq with wait := w } } = g x) (x : Ctx) (b : Bool) : g (x.reachPoint b) = g x := by
  unfold Ctx.reachPoint Ctx.saveAtPoint
  split
  · split
    · rw [hw, hp]
    · exact hp _ _
  · exact hp _ _

@[simp] theorem reachPoint_regs (x : Ctx) (b : Bool) : (x.reachPoint b).regs = x.regs := reachPoint_keeps (·.regs) (fun _ _ => rfl) (fun _ _ => rfl) x b
@[simp] theorem reachPoint_ports (x : Ctx) (b : Bool) : (x.reachPoint b).ports = x.ports := reachPoint_keeps (·.ports) (fun _ _ => rfl) (fun _ _ => rfl) x b
@[simp] theorem reachPoint_fmts (x : Ctx) (b : Bool) : (x.reachPoint b).fmts = x.fmts := reachPoint_keeps (·.fmts) (fun _ _ => rfl) (fun _ _ => rfl) x b
@[simp] theorem reachPoint_traps (x : Ctx) (b : Bool) : (x.reachPoint b).traps = x.traps := reachPoint_keeps (·.traps) (fun _ _ => rfl) (fun _ _ => rfl) x b
@[simp] theorem reachPoint_win (x : Ctx) (b : Bool) : (x.reachPoint b).win = x.win := reachPoint_keeps (·.win) (fun _ _ => rfl) (fun _ _ => rfl) x b
@[simp] theorem reachPoint_sched (x : Ctx) (b : Bool) : (x.reachPoint b).sched = x.sched := reachPoint_keeps (·.sched) (fun _ _ => rfl) (fun _ _ => rfl) x b
@[simp] theorem reachPoint_kcond (x : Ctx) (b : Bool) : (x.reachPoint b).seq.kcond = x.seq.kcond := reachPoint_keeps (·.seq.kcond) (fun _ _ => rfl) (fun _ _ => rfl) x b
@[simp] theorem reachPoint_pc (x : Ctx) (b : Bool) : (x.reachPoint b).seq.pc = x.seq.pc := reachPoint_keeps (·.seq.pc) (fun _ _ => rfl) (fun _ _ => rfl) x b
@[simp] theorem reachPoint_cyc (x : Ctx) (b : Bool) : (x.reachPoint b).seq.cyc = x.seq.cyc := reachPoint_keeps (·.seq.cyc) (fun _ _ => rfl) (fun _ _ => rfl) x b
@[simp] theorem reachPoint_loops (x : Ctx) (b : Bool) : (x.reachPoint b).seq.loops = x.seq.loops := reachPoint_keeps (·.seq.loops) (fun _ _ => rfl) (fun _ _ => rfl) x b
@[simp] theorem reachPoint_ldepth (x : Ctx) (b : Bool) : (x.reachPoint b).seq.ldepth = x.seq.ldepth := reachPoint_keeps (·.seq.ldepth) (fun _ _ => rfl) (fun _ _ => rfl) x b
@[simp] theorem reachPoint_run (x : Ctx) (b : Bool) : (x.reachPoint b).seq.run = x.seq.run := reachPoint_keeps (·.seq.run) (fun _ _ => rfl) (fun _ _ => rfl) x b
@[simp] theorem reachPoint_wstep (x : Ctx) (b : Bool) : (x.reachPoint b).seq.wstep = x.seq.wstep := reachPoint_keeps (·.seq.wstep) (fun _ _ => rfl) (fun _ _ => rfl) x b
@[simp] theorem reachPoint_pend (x : Ctx) (b : Bool) : (x.reachPoint b).seq.pend = x.seq.pend := reachPoint_keeps (·.seq.pend) (fun _ _ => rfl) (fun _ _ => rfl) x b
@[simp] theorem reachPoint_fpx (x : Ctx) (b : Bool) : (x.reachPoint b).seq.fpx = x.seq.fpx := reachPoint_keeps (·.seq.fpx) (fun _ _ => rfl) (fun _ _ => rfl) x b
@[simp] theorem reachPoint_wake (x : Ctx) (b : Bool) : (x.reachPoint b).seq.wake = x.seq.wake := reachPoint_keeps (·.seq.wake) (fun _ _ => rfl) (fun _ _ => rfl) x b
@[simp] theorem reachPoint_base (x : Ctx) (b : Bool) : (x.reachPoint b).seq.base = x.seq.base := reachPoint_keeps (·.seq.base) (fun _ _ => rfl) (fun _ _ => rfl) x b
@[simp] theorem reachPoint_limit (x : Ctx) (b : Bool) : (x.reachPoint b).seq.limit = x.seq.limit := reachPoint_keeps (·.seq.limit) (fun _ _ => rfl) (fun _ _ => rfl) x b
@[simp] theorem reachPoint_behind (x : Ctx) (b : Bool) : (x.reachPoint b).seq.behind = x.seq.behind := reachPoint_keeps (·.seq.behind) (fun _ _ => rfl) (fun _ _ => rfl) x b
theorem reachPoint_wait (x : Ctx) (b : Bool) (w : Wait) (h : x.seq.wait = some w) : (x.reachPoint b).seq.wait = some w := by
  unfold Ctx.reachPoint Ctx.saveAtPoint
  split
  · simp [h]
  · exact h

@[simp] theorem arrive_none (x : Ctx) (b : Bool) : x.arrive Header.none b = x := rfl

@[simp] theorem held_regs (x : Ctx) (m : Sem) : (x.held m).regs = x.regs := by unfold Ctx.held; split <;> rfl
@[simp] theorem held_fmts (x : Ctx) (m : Sem) : (x.held m).fmts = x.fmts := by unfold Ctx.held; split <;> rfl
@[simp] theorem held_traps (x : Ctx) (m : Sem) : (x.held m).traps = x.traps := by unfold Ctx.held; split <;> rfl
@[simp] theorem held_win (x : Ctx) (m : Sem) : (x.held m).win = x.win := by unfold Ctx.held; split <;> rfl
@[simp] theorem held_seq (x : Ctx) (m : Sem) : (x.held m).seq = x.seq := by unfold Ctx.held; split <;> rfl
@[simp] theorem held_sched (x : Ctx) (m : Sem) : (x.held m).sched = x.sched := by unfold Ctx.held; split <;> rfl
@[simp] theorem held_flights (x : Ctx) (m : Sem) : (x.held m).ports.flights = x.ports.flights := by unfold Ctx.held; split <;> rfl
@[simp] theorem held_latch (x : Ctx) (m : Sem) : (x.held m).ports.latch = x.ports.latch := by unfold Ctx.held; split <;> rfl
@[simp] theorem held_result (x : Ctx) (m : Sem) : (x.held m).ports.result = x.ports.result := by unfold Ctx.held; split <;> rfl
@[simp] theorem held_pairs (x : Ctx) (m : Sem) : (x.held m).ports.pairs = x.ports.pairs := by unfold Ctx.held; split <;> rfl
@[simp] theorem held_zdue (x : Ctx) (m : Sem) : (x.held m).ports.zdue = x.ports.zdue := by unfold Ctx.held; split <;> rfl

theorem finishCtx_regs (x : Ctx) (clock len k : Nat) (m : Sem) (hl : m.late = id) :
    (finishCtx x clock len Header.none [(k, m)]).regs = x.regs := by
  unfold finishCtx; cases hf : m.flow <;> simp [hf, hl, Ctx.restart, Ctx.returnTrap]
theorem finishCtx_ports (x : Ctx) (clock len k : Nat) (m : Sem) (hl : m.late = id) :
    (finishCtx x clock len Header.none [(k, m)]).ports = x.ports := by
  unfold finishCtx; cases hf : m.flow <;> simp [hf, hl, Ctx.restart, Ctx.returnTrap]
theorem finishCtx_win (x : Ctx) (clock len k : Nat) (m : Sem) (hl : m.late = id) :
    (finishCtx x clock len Header.none [(k, m)]).win = x.win := by
  unfold finishCtx; cases hf : m.flow <;> simp [hf, hl, Ctx.restart, Ctx.returnTrap]
theorem finishCtx_fmts (x : Ctx) (clock len k : Nat) (m : Sem) (hl : m.late = id) :
    (finishCtx x clock len Header.none [(k, m)]).fmts = x.fmts.tickShadow := by
  unfold finishCtx; cases hf : m.flow <;> simp [hf, hl, Ctx.restart, Ctx.returnTrap]
theorem finishCtx_traps (x : Ctx) (clock len k : Nat) (m : Sem) (hl : m.late = id) (ht : m.flow ≠ .tret) :
    (finishCtx x clock len Header.none [(k, m)]).traps = x.traps := by
  unfold finishCtx; cases hf : m.flow <;> simp_all [Ctx.restart]
theorem finishCtx_kcond (x : Ctx) (clock len k : Nat) (m : Sem) (hl : m.late = id) :
    (finishCtx x clock len Header.none [(k, m)]).seq.kcond = x.seq.kcond := by
  unfold finishCtx; cases hf : m.flow <;> simp [hf, hl, Ctx.restart, Ctx.returnTrap]
theorem finishCtx_pc_next (x : Ctx) (clock len k : Nat) (m : Sem) (ht : m.flow = .next) :
    (finishCtx x clock len Header.none [(k, m)]).seq.pc = (x.closeLoop (x.seq.pc + len)).2.1 := by
  unfold finishCtx; simp [ht, Ctx.restart]
theorem finishCtx_pc_jump (x : Ctx) (clock len k p : Nat) (m : Sem) (ht : m.flow = .jump p) :
    (finishCtx x clock len Header.none [(k, m)]).seq.pc = p := by
  unfold finishCtx; simp [ht, Ctx.restart]
theorem finishCtx_cyc (x : Ctx) (clock len k : Nat) (m : Sem) (hl : m.late = id) (ht : m.flow = .next) :
    (finishCtx x clock len Header.none [(k, m)]).seq.cyc = x.seq.cyc + 1 + m.extra x := by
  unfold finishCtx; simp [ht, hl, Ctx.restart, Nat.add_assoc]
theorem finishCtx_wait (x : Ctx) (clock len k : Nat) (m : Sem) (hl : m.late = id) (ht : m.flow = .next) (w : Wait) (hw : x.seq.wait = some w) :
    (finishCtx x clock len Header.none [(k, m)]).seq.wait = some w := by
  unfold finishCtx; apply reachPoint_wait; simp [ht, hl, Ctx.restart, hw]

/-! ## The state after the bundle -/

theorem after_mem (s : State) (k : Nat) (m : Sem) (hg : m.flow.goesOn = true) :
    (afterSlot s k m).mem = (m.act (begun s)).mem := by
  simp [afterSlot, finish_mem _ _ _ _ _ (show (flowOf [(k, m)]).goesOn = true by simpa using hg)]
theorem after_engines (s : State) (k : Nat) (m : Sem) (hg : m.flow.goesOn = true) :
    (afterSlot s k m).engines = (m.act (begun s)).engines := by
  simp [afterSlot, finish_engines _ _ _ _ _ (show (flowOf [(k, m)]).goesOn = true by simpa using hg)]
theorem after_miller (s : State) (k : Nat) (m : Sem) (hg : m.flow.goesOn = true) :
    (afterSlot s k m).miller = (m.act (begun s)).miller := by
  simp [afterSlot, finish_miller _ _ _ _ _ (show (flowOf [(k, m)]).goesOn = true by simpa using hg)]
theorem after_links (s : State) (k : Nat) (m : Sem) (hg : m.flow.goesOn = true) :
    (afterSlot s k m).links = (m.act (begun s)).links := by
  simp [afterSlot, finish_links _ _ _ _ _ (show (flowOf [(k, m)]).goesOn = true by simpa using hg)]
theorem after_boot (s : State) (k : Nat) (m : Sem) (hg : m.flow.goesOn = true) :
    (afterSlot s k m).boot = (m.act (begun s)).boot := by
  simp [afterSlot, finish_boot _ _ _ _ _ (show (flowOf [(k, m)]).goesOn = true by simpa using hg)]
theorem after_tele (s : State) (k : Nat) (m : Sem) (hg : m.flow.goesOn = true) :
    (afterSlot s k m).tele = (m.act (begun s)).tele := by
  simp [afterSlot, finish_tele _ _ _ _ _ (show (flowOf [(k, m)]).goesOn = true by simpa using hg)]
theorem after_dies (s : State) (k : Nat) (m : Sem) (hg : m.flow.goesOn = true) :
    (afterSlot s k m).dies = (m.act (begun s)).dies := by
  simp [afterSlot, finish_dies _ _ _ _ _ (show (flowOf [(k, m)]).goesOn = true by simpa using hg)]
theorem after_fetches (s : State) (k : Nat) (m : Sem) (hg : m.flow.goesOn = true) :
    (afterSlot s k m).fetches = (m.act (begun s)).fetches := by
  simp [afterSlot, finish_fetches _ _ _ _ _ (show (flowOf [(k, m)]).goesOn = true by simpa using hg)]
theorem after_clock (s : State) (k : Nat) (m : Sem) (hg : m.flow.goesOn = true) :
    (afterSlot s k m).clock = (m.act (begun s)).clock := by
  simp [afterSlot, finish_clock _ _ _ _ _ (show (flowOf [(k, m)]).goesOn = true by simpa using hg)]
theorem after_seqno (s : State) (k : Nat) (m : Sem) (hg : m.flow.goesOn = true) :
    (afterSlot s k m).seqno = (m.act (begun s)).seqno := by
  simp [afterSlot, finish_seqno _ _ _ _ _ (show (flowOf [(k, m)]).goesOn = true by simpa using hg)]
theorem after_inputs (s : State) (k : Nat) (m : Sem) (hg : m.flow.goesOn = true) :
    (afterSlot s k m).inputs = (m.act (begun s)).inputs := by
  simp [afterSlot, finish_inputs _ _ _ _ _ (show (flowOf [(k, m)]).goesOn = true by simpa using hg)]
theorem after_cur (s : State) (k : Nat) (m : Sem) (hg : m.flow.goesOn = true) :
    (afterSlot s k m).cur = (m.act (begun s)).cur := by
  simp [afterSlot, finish_cur _ _ _ _ _ (show (flowOf [(k, m)]).goesOn = true by simpa using hg)]
theorem after_reply (s : State) (k : Nat) (m : Sem) (hg : m.flow.goesOn = true) :
    (afterSlot s k m).reply = (m.act (begun s)).reply := by
  simp [afterSlot, finish_reply _ _ _ _ _ (show (flowOf [(k, m)]).goesOn = true by simpa using hg)]

theorem after_ctx (s : State) (k : Nat) (m : Sem) (hg : m.flow.goesOn = true) (hk : (m.act (begun s)).clock = s.clock) :
    (afterSlot s k m).ctx s.cur = finishCtx (((m.act (begun s)).ctx s.cur).held m) s.clock (lenOf s) Header.none [(k, m)] := by
  simp only [afterSlot, draw_ctx]
  rw [finish_ctx _ _ _ _ _ (show (flowOf [(k, m)]).goesOn = true by simpa using hg), holdUnits_one_ctx, if_pos rfl, holdUnits_one_clock, hk]

theorem after_ctx_ne (s : State) (k : Nat) (m : Sem) (hg : m.flow.goesOn = true) {d : Nat} (hd : d ≠ s.cur) :
    (afterSlot s k m).ctx d = (m.act (begun s)).ctx d ∨
      (afterSlot s k m).ctx d = { (m.act (begun s)).ctx d with sched := { ((m.act (begun s)).ctx d).sched with yieldAt := none } } := by
  simp only [afterSlot, draw_ctx]
  have h := finish_ctx_ne (holdUnits (m.act (begun s)) s.cur [(k, m)]) s.cur (lenOf s) Header.none [(k, m)]
    (show (flowOf [(k, m)]).goesOn = true by simpa using hg) hd
  rwa [holdUnits_one_ctx, if_neg (Ne.symm hd)] at h

theorem after_cores (s : State) (k : Nat) (m : Sem) (hg : m.flow.goesOn = true) : SameCores (m.act (begun s)) (afterSlot s k m) := by
  have h1 : SameCores (finishBundle (holdUnits (m.act (begun s)) s.cur [(k, m)]) s.cur (lenOf s) Header.none [(k, m)]) (afterSlot s k m) :=
    sameCores_of_cores rfl
  exact sameCores_trans (holdUnits_one_cores _ _ _ _) (sameCores_trans (finish_cores _ _ _ _ _ (by simpa using hg)) h1)

/-- What a slot that changes its own context alone leaves outside it. -/
theorem after_outside (s : State) (k : Nat) (m : Sem) (hg : m.flow.goesOn = true) (f : Ctx → Ctx) (ha : m.act (begun s) = (begun s).modCtx s.cur f) :
    SameOutside s (afterSlot s k m) ∧ SameCores s (afterSlot s k m) ∧ SameOthers s (afterSlot s k m) := by
  refine ⟨?_, ?_, ?_⟩
  · simp only [SameOutside, after_mem s k m hg, after_engines s k m hg, after_miller s k m hg, after_links s k m hg, after_boot s k m hg,
      after_tele s k m hg, after_fetches s k m hg, after_dies s k m hg, after_clock s k m hg, after_seqno s k m hg, ha]
    simp
  · have h := after_cores s k m hg
    rw [ha] at h
    exact sameCores_trans (sameCores_of_cores (by simp)) h
  · intro d hd
    have h := after_ctx_ne s k m hg hd
    rw [ha, modCtx_ctx, if_neg (Ne.symm hd), begun_ctx_ne s hd] at h
    rcases h with h | h <;> simp [h]

end Sys2Proof.Machine
end

