-- ==== Sys2Proof/Laws/Memory.lean ====
section
/-! SUPPORT. Every operation on memory keeps the canonical form of the four byte stores. -/

namespace Sys2Proof.Machine

/-- The byte stores are in canonical form as soon as those of a state with the same memory are. -/
theorem memOk_of_mem {s t : State} (h : t.mem = s.mem) (hs : MemOk s) : MemOk t := by
  unfold MemOk at *; rw [h]; exact hs

theorem memOk_iff_store (s : State) : MemOk s ↔ ∀ w, (s.mem.store w).wf = true := by
  refine ⟨fun h w => ?_, fun h => ⟨h .dram, h .sp, h .host, h .peer⟩⟩
  cases w
  · exact h.1
  · exact h.2.1
  · exact h.2.2.1
  · exact h.2.2.2

/-- A store replaced by a canonical one. -/
theorem memOk_setStore (s : State) (w : Space) (x : Memory) (hx : x.wf = true) (h : MemOk s) :
    MemOk (s.modMem (fun m => m.setStore w x)) := by
  rw [memOk_iff_store] at *
  intro v
  simp only [State.modMem, store_setStore]
  split
  · exact hx
  · exact h v

/-! ## What does not touch memory -/

@[simp] theorem modPlace_mem (s : State) (j i : Nat) (f : Ctx → Ctx) : (s.modPlace j i f).mem = s.mem := by
  unfold State.modPlace; split <;> rfl

@[simp] theorem countInval_mem (s : State) (l : List Corr) : (countInval s l).mem = s.mem := by
  induction l generalizing s with
  | nil => rfl
  | cons e r ih => simp [countInval, ih]

@[simp] theorem dropCorr_mem (s : State) (k : Nat) (p : Corr → Bool) : (dropCorr s k p).mem = s.mem := by
  unfold dropCorr; split <;> simp

@[simp] theorem invalCorr_mem (s : State) (k a n : Nat) : (invalCorr s k a n).mem = s.mem := dropCorr_mem _ _ _

@[simp] theorem invalWay_mem (s : State) (k w : Nat) : (invalWay s k w).mem = s.mem := invalCorr_mem _ _ _ _

@[simp] theorem raceMx_mem (s : State) (k a n : Nat) (f : MxRun → Bool) : (raceMx s k a n f).mem = s.mem := by
  unfold raceMx; split <;> rfl

@[simp] theorem keepOld_mem (s : State) (w : Space) (a n : Nat) : (s.keepOld w a n).mem = s.mem := by
  unfold State.keepOld
  split
  · rfl
  · simp only; split <;> rfl

/-! ## Writes -/

/-- A memory that differs in no byte store has the stores of the other. -/
theorem store_congr {m m' : Mem} (h1 : m.dram = m'.dram) (h2 : m.sp = m'.sp) (h3 : m.host = m'.host) (h4 : m.peer = m'.peer) (x : Space) :
    m.store x = m'.store x := by
  cases x
  · exact h1
  · exact h2
  · exact h3
  · exact h4

@[simp] theorem passL1_store (s : State) (w : Space) (a n : Nat) (x : Space) : (s.passL1 w a n).mem.store x = s.mem.store x := by
  unfold State.passL1
  split
  · rfl
  · exact store_congr rfl rfl rfl rfl x

theorem mem_write_store (m : Mem) (w : Space) (a n v : Nat) (x : Space) :
    (m.write w a n v).store x = if w = x then memPutNat (m.store w) a n v else m.store x := by
  rw [← store_setStore m w x]
  unfold Mem.write
  cases w
  · exact store_congr rfl rfl rfl rfl x
  · exact store_congr rfl rfl rfl rfl x
  · rfl
  · rfl

/-- What a write puts into the byte stores, wherever it stands among the writes that are still to become visible. -/
theorem storeBy_store (free : MxRun → Bool) (s : State) (w : Space) (a n v : Nat) (x : Space) :
    (s.storeBy free w a n v).mem.store x = if w = x then memPutNat (s.mem.store w) a n v else s.mem.store x := by
  have h : ∀ t : State, t = ((s.keepOld w a n).passL1 w a n).modMem (fun m => m.write w a n v) →
      t.mem.store x = if w = x then memPutNat (s.mem.store w) a n v else s.mem.store x := by
    rintro t rfl
    simp only [State.modMem, mem_write_store, passL1_store, keepOld_mem]
  unfold State.storeBy
  cases w
  · exact h _ rfl
  · simp only [raceMx_mem, invalCorr_mem]; exact h _ rfl
  · exact h _ rfl
  · exact h _ rfl

theorem memOk_storeBy (free : MxRun → Bool) (s : State) (w : Space) (a n v : Nat) (h : MemOk s) : MemOk (s.storeBy free w a n v) := by
  rw [memOk_iff_store] at *
  intro x
  rw [storeBy_store]
  split
  · exact wf_memPutNat _ _ _ _ (h w)
  · exact h x

/-- A byte that a write does not cover reads as before. -/
theorem storeBy_byte (free : MxRun → Bool) (s : State) (w : Space) (a n v : Nat) (x : Space) (b : Nat) (h : x ≠ w ∨ b < a ∨ a + n ≤ b) :
    memByte ((s.storeBy free w a n v).mem.store x) b = memByte (s.mem.store x) b := by
  rw [storeBy_store]
  split
  · next e => subst e; rw [memByte_memPutNat, if_neg (by rcases h with h | h | h <;> first | exact absurd rfl h | omega)]
  · rfl

@[simp] theorem invalCorr_raceMx_loose (s : State) (k a n : Nat) (f : MxRun → Bool) : (raceMx (invalCorr s k a n) k a n f).mem.loose = s.mem.loose := by
  rw [raceMx_mem, invalCorr_mem]

theorem storeBy_loose (free : MxRun → Bool) (s : State) (w : Space) (a n v : Nat) : (s.storeBy free w a n v).mem.loose = s.mem.loose := by
  have h1 : ∀ m : Mem, (m.write w a n v).loose = m.loose := by intro m; unfold Mem.write; cases w <;> rfl
  have h2 : (s.passL1 w a n).mem.loose = s.mem.loose := by unfold State.passL1; split <;> rfl
  have h3 : (((s.keepOld w a n).passL1 w a n).modMem (fun m => m.write w a n v)).mem.loose = s.mem.loose := by
    have : ((s.keepOld w a n).passL1 w a n).mem.loose = (s.keepOld w a n).mem.loose := by unfold State.passL1; split <;> rfl
    simp only [State.modMem, h1, this, keepOld_mem]
  unfold State.storeBy
  cases w
  · exact h3
  · simp only [raceMx_mem, invalCorr_mem]; exact h3
  · exact h3
  · exact h3

/-! ## The writes that are still to become visible -/

theorem ofCode_code (w : Space) : Space.ofCode w.code = w := by cases w <;> rfl

theorem mem_shownWith {pick : Loose → Nat → Bool} {l : List Loose} {i : Nat} {d : Loose} (h : d ∈ shownWith pick l i) : d ∈ l := by
  induction l generalizing i with
  | nil => exact h
  | cons e r ih =>
    simp only [shownWith] at h
    split at h
    · rcases List.mem_cons.1 h with h | h
      · exact List.mem_cons.2 (.inl h)
      · exact List.mem_cons.2 (.inr (ih h))
    · exact List.mem_cons.2 (.inr (ih h))

theorem memOk_storeBy_modMem (s : State) (d : Loose) (h : MemOk s) : MemOk (s.showOne d) := memOk_storeBy _ _ _ _ _ _ h

/-- Folding operations that keep the form keeps it. -/
theorem memOk_foldl {α : Type} (f : State → α → State) (hf : ∀ t a, MemOk t → MemOk (f t a)) (l : List α) (s : State) (h : MemOk s) :
    MemOk (l.foldl f s) := by
  induction l generalizing s with
  | nil => exact h
  | cons a r ih => exact ih _ (hf _ _ h)

theorem memOk_showPicked (s : State) (pick : Loose → Nat → Bool) (h : MemOk s) : MemOk (s.showPicked pick) :=
  memOk_foldl _ (fun _ d ht => memOk_storeBy_modMem _ d ht) _ _ h

/-- A byte that no `xcpy` write covers keeps its value when some of them become visible. -/
theorem showFold_byte (l : List Loose) (s : State) (x : Space) (b : Nat)
    (h : ∀ d ∈ l, Space.ofCode d.space = x → b < d.addr ∨ d.addr + d.len ≤ b) :
    memByte ((l.foldl State.showOne s).mem.store x) b = memByte (s.mem.store x) b := by
  induction l generalizing s with
  | nil => rfl
  | cons d r ih =>
    rw [List.foldl_cons, ih _ (fun e he => h e (List.mem_cons.2 (.inr he)))]
    unfold State.showOne
    rw [storeBy_byte]
    · exact congrArg (memByte · b) (store_congr rfl rfl rfl rfl x)
    · by_cases hx : x = Space.ofCode d.space
      · exact .inr (h d (List.mem_cons.2 (.inl rfl)) hx.symm)
      · exact .inl hx

theorem showPicked_byte (s : State) (pick : Loose → Nat → Bool) (x : Space) (b : Nat)
    (h : ∀ d ∈ s.mem.loose, Space.ofCode d.space = x → b < d.addr ∨ d.addr + d.len ≤ b) :
    memByte ((s.showPicked pick).mem.store x) b = memByte (s.mem.store x) b :=
  showFold_byte _ _ _ _ (fun d hd => h d (mem_shownWith hd))

/-- Where no `xcpy` write that is still to become visible meets a range, nothing precedes a write there. -/
theorem passLoose_quiet (s : State) (w : Space) (a n : Nat) (h : ∀ d ∈ s.mem.loose, d.meets w.code a n = false) : s.passLoose w a n = s := by
  unfold State.passLoose
  rw [if_neg]
  simp only [List.any_eq_true, not_exists, not_and]
  intro d hd; simp [h d hd]

theorem memOk_passLoose (s : State) (w : Space) (a n : Nat) (h : MemOk s) : MemOk (s.passLoose w a n) := by
  unfold State.passLoose
  split
  · exact memOk_showPicked _ _ h
  · exact h

/-- What precedes a write leaves every byte that does not ride with it (R266). -/
theorem passLoose_byte (s : State) (w : Space) (a n : Nat) (x : Space) (b : Nat) (h : ¬ Rides s w a n x b) :
    memByte ((s.passLoose w a n).mem.store x) b = memByte (s.mem.store x) b := by
  by_cases hm : ∃ d ∈ s.mem.loose, d.meets w.code a n = true
  · unfold State.passLoose
    rw [if_pos (List.any_eq_true.2 hm)]
    refine showPicked_byte _ _ _ _ (fun d hd hx => ?_)
    by_contra hc
    exact h ⟨hm, d, hd, hx, by omega⟩
  · rw [passLoose_quiet _ _ _ _ (fun d hd => by simpa using fun h' => hm ⟨d, hd, h'⟩)]

/-- What a write puts into the byte stores. -/
theorem writeBy_store (free : MxRun → Bool) (s : State) (w : Space) (a n v : Nat) (x : Space) :
    (s.writeBy free w a n v).mem.store x =
      if w = x then memPutNat ((s.passLoose w a n).mem.store w) a n v else (s.passLoose w a n).mem.store x := by
  unfold State.writeBy; rw [storeBy_store]

theorem memOk_writeBy (free : MxRun → Bool) (s : State) (w : Space) (a n v : Nat) (h : MemOk s) : MemOk (s.writeBy free w a n v) :=
  memOk_storeBy _ _ _ _ _ _ (memOk_passLoose _ _ _ _ h)

theorem memOk_writeN (s : State) (w : Space) (a n v : Nat) (h : MemOk s) : MemOk (s.writeN w a n v) := memOk_writeBy _ _ _ _ _ _ h

theorem memOk_updateBy (free : MxRun → Bool) (s : State) (w : Space) (a n : Nat) (f : Nat → Nat) (h : MemOk s) :
    MemOk (s.updateBy free w a n f).1 := memOk_storeBy _ _ _ _ _ _ (memOk_passLoose _ _ _ _ h)

/-- A read of what was just written. -/
@[simp] theorem writeBy_readN (free : MxRun → Bool) (s : State) (w : Space) (a n v : Nat) : (s.writeBy free w a n v).readN w a n = v % 256 ^ n := by
  unfold State.readN; rw [writeBy_store, if_pos rfl, memNat_memPutNat]

@[simp] theorem writeN_readN (s : State) (w : Space) (a n v : Nat) : (s.writeN w a n v).readN w a n = v % 256 ^ n := writeBy_readN _ _ _ _ _ _

/-- A write leaves every other byte that does not ride with it. -/
theorem writeBy_same (free : MxRun → Bool) (s : State) (w : Space) (a n v : Nat) : SameBytesBut s (s.writeBy free w a n v) w a n := by
  intro x b hb hr
  unfold State.writeBy
  rw [storeBy_byte _ _ _ _ _ _ _ _ hb, passLoose_byte _ _ _ _ _ _ hr]

theorem writeN_same (s : State) (w : Space) (a n v : Nat) : SameBytesBut s (s.writeN w a n v) w a n := writeBy_same _ _ _ _ _ _

/-- An atomic update reads what is there once what precedes it has become visible, and writes what it makes of that (R272). -/
theorem updateBy_readN (free : MxRun → Bool) (s : State) (w : Space) (a n : Nat) (f : Nat → Nat) :
    (s.updateBy free w a n f).2 = (s.passLoose w a n).readN w a n ∧
      (s.updateBy free w a n f).1.readN w a n = f ((s.passLoose w a n).readN w a n) % 256 ^ n := by
  refine ⟨rfl, ?_⟩
  unfold State.readN State.updateBy; rw [storeBy_store, if_pos rfl, memNat_memPutNat]; rfl

theorem updateBy_same (free : MxRun → Bool) (s : State) (w : Space) (a n : Nat) (f : Nat → Nat) :
    SameBytesBut s (s.updateBy free w a n f).1 w a n := by
  intro x b hb hr
  unfold State.updateBy
  rw [storeBy_byte _ _ _ _ _ _ _ _ hb, passLoose_byte _ _ _ _ _ _ hr]

/-! ## Ways -/

theorem wf_memClear (m : Memory) (a n : Nat) (h : m.wf = true) : (memClear m a n).wf = true := canon_filter _ _ _ h

theorem memByte_memClear (m : Memory) (a n i : Nat) :
    memByte (memClear m a n) i = if a ≤ i ∧ i < a + n then 0#8 else memByte m i := by
  unfold memByte memClear
  induction m with
  | nil => simp
  | cons p r ih =>
    simp only [List.filter_cons, look_cons]
    by_cases hp : a ≤ p.1 ∧ p.1 < a + n
    · simp only [hp, and_self, decide_true, Bool.not_true, Bool.false_eq_true, if_false, ih]
      split
      · rfl
      · rw [if_neg (by rintro rfl; contradiction)]
    · simp only [hp, decide_false, Bool.not_false, if_true, look_cons, ih]
      by_cases e : p.1 = i
      · subst e; simp [hp]
      · simp [e]

theorem clearWay_store (s : State) (k w : Nat) (x : Space) :
    (clearWay s k w).mem.store x = if x = .sp then memClear s.mem.sp (k * 2 ^ 24 + w * 2 ^ 20) (2 ^ 20) else s.mem.store x := by
  have key : ∀ (m : Mem) (q : Memory) (bs : List Nat) (ls : List Loose),
      ({ m with sp := q, badSp := bs, loose := ls } : Mem).store x = if x = .sp then q else m.store x := by
    intro m q bs ls; cases x <;> rfl
  unfold clearWay
  generalize (2 ^ 20 : Nat) = n
  rw [raceMx_mem, invalWay_mem]
  split
  · exact key _ _ _ _
  · exact key _ _ _ _

theorem memOk_clearWay (s : State) (k w : Nat) (h : MemOk s) : MemOk (clearWay s k w) := by
  rw [memOk_iff_store] at *
  intro x
  rw [clearWay_store]
  split
  · exact wf_memClear _ _ _ (h .sp)
  · exact h x

theorem memOk_setWay (s : State) (k w : Nat) (x : Way) (h : MemOk s) : MemOk (s.setWay k w x) := h

theorem memOk_unlockWay (s : State) (k w : Nat) (h : MemOk s) : MemOk (unlockWay s k w) := h

theorem memOk_takeWay (s : State) (k w j c : Nat) (h : MemOk s) : MemOk (takeWay s k w j c) :=
  memOk_setWay _ _ _ _ (memOk_clearWay _ _ _ (memOk_unlockWay _ _ _ h))

theorem memOk_dropWay (s : State) (k w : Nat) (h : MemOk s) : MemOk (dropWay s k w) :=
  memOk_setWay _ _ _ _ (memOk_clearWay _ _ _ h)

theorem memOk_forWays (f : State → Nat → State) (hf : ∀ t w, MemOk t → MemOk (f t w)) (mask n i : Nat) (s : State) (h : MemOk s) :
    MemOk (forWays f mask n i s) := by
  induction n generalizing i s with
  | zero => exact h
  | succ n ih =>
    refine ih _ _ ?_
    split
    · exact hf _ _ h
    · exact h

theorem memOk_restoreWay (s : State) (k w j c : Nat) (m : Memory) (h : MemOk s) : MemOk (restoreWay s k w j c m) := by
  have key : ∀ (l : Memory) (q : Memory), q.wf = true →
      Memory.wf (l.foldl (fun t p => memPut t (k * 2 ^ 24 + w * 2 ^ 20 + p.1) p.2) q) = true := by
    intro l
    induction l with
    | nil => exact fun _ h => h
    | cons p r ih => exact fun q hq => ih _ (wf_memPut _ _ _ hq)
  have h1 := memOk_takeWay s k w j c h
  exact ⟨h1.1, key _ _ h1.2.1, h1.2.2⟩

/-! ## Whole copies -/

@[simp] theorem addFresh_mem (s : State) (k : Nat) (f : Fresh) : (s.addFresh k f).mem = s.mem := by unfold State.addFresh; split <;> rfl

@[simp] theorem recordFresh_mem (s : State) (k : Nat) (i : Issued) (tout a n : Nat) : (s.recordFresh k i tout a n).mem = s.mem :=
  addFresh_mem _ _ _

theorem writeRecord_store (s : State) (k : Nat) (i : Issued) (tout a : Nat) (own : Option Corr) (vec : List Nat) (x : Space) :
    (writeRecord s k i tout a own vec).mem.store x =
      let u := s.passLoose .sp (k * 2 ^ 24 + a) 1024
      if .sp = x then memPutNat u.mem.sp (k * 2 ^ 24 + a) 1024 (packVals 64 ((List.range 128).map (fun l => vec.getD l 0))) else u.mem.store x := by
  have e : ∀ (t : State) m, (t.modMem m).mem = m t.mem := fun _ _ => rfl
  simp only [writeRecord, recordFresh_mem, raceMx_mem, dropCorr_mem, e, mem_write_store]
  rfl

theorem memOk_writeRecord (s : State) (k : Nat) (i : Issued) (tout a : Nat) (own : Option Corr) (vec : List Nat) (h : MemOk s) :
    MemOk (writeRecord s k i tout a own vec) := by
  rw [memOk_iff_store] at *
  intro x
  rw [writeRecord_store]
  have hu := (memOk_iff_store _).1 (memOk_passLoose s .sp (k * 2 ^ 24 + a) 1024 ((memOk_iff_store _).2 h))
  simp only
  split
  · exact wf_memPutNat _ _ _ _ (hu .sp)
  · exact hu x

/-- Bytes put into the host window as one canonical piece keep the form. -/
theorem memOk_hostShare (s : State) (w share : Nat) (cells : Memory) (hc : cells.wf = true) (hb : ∀ p ∈ cells, p.1 < share)
    (h : MemOk s) : MemOk (hostShare s w share cells) := by
  refine ⟨h.1, h.2.1, ?_, h.2.2.2⟩
  have hh := h.2.2.1
  unfold Memory.wf at *
  rw [canon_iff] at *
  simp only [hostShare, State.modMem, List.pairwise_append, List.mem_append, List.mem_filter, List.mem_map, decide_eq_true_eq]
  refine ⟨⟨⟨hh.1.filter _, ?_, ?_⟩, hh.1.filter _, ?_⟩, ?_⟩
  · rw [List.pairwise_map]
    exact hc.1.imp (fun hx => Nat.add_lt_add_left hx w)
  · rintro p ⟨-, h1⟩ _ ⟨q, -, rfl⟩; show p.1 < w + q.1; omega
  · rintro p hp q ⟨-, h2⟩
    rcases hp with ⟨-, h1⟩ | ⟨r, hr, rfl⟩
    · omega
    · have := hb r hr; show w + r.1 < q.1; omega
  · rintro p ((⟨h1, -⟩ | ⟨q, hq, rfl⟩) | ⟨h1, -⟩)
    · exact hh.2 p h1
    · exact hc.2 q hq
    · exact hh.2 p h1

/-- The memory right after reset lists nothing. -/
theorem memOk_reset : MemOk State.reset := by refine ⟨?_, ?_, ?_, ?_⟩ <;> rfl

end Sys2Proof.Machine
end

