-- ==== Sys2Proof/Laws/Tile.lean ====
section
/-! SUPPORT. Tiles read back: the elements of a tile given by position, and the values of tiles packed in a format. -/

namespace Sys2Proof.Machine

theorem packVals_digit (w : Nat) (l : List Nat) (v : Nat) : packVals w l / 2 ^ (w * v) % 2 ^ w = l.getD v 0 % 2 ^ w := by
  induction l generalizing v with
  | nil => simp [packVals]
  | cons a r ih =>
    cases v with
    | zero => simp [packVals, Nat.add_mod]
    | succ v =>
      simp only [packVals, List.getD_cons_succ]
      rw [← ih v, Nat.mul_succ, Nat.add_comm (w * v), Nat.pow_add, ← Nat.div_div_eq_div_mul]
      congr 2
      rw [Nat.add_mul_div_left _ _ (Nat.two_pow_pos w), Nat.div_eq_of_lt (Nat.mod_lt _ (Nat.two_pow_pos w)), Nat.zero_add]

theorem packElems_eq (l : List Nat) : packElems l = packVals 16 l := by
  induction l with
  | nil => rfl
  | cons a r ih => simp [packElems, packVals, ih]

theorem elemAt_ofNat (n k : Nat) (h : k < 1024) : elemAt (BitVec.ofNat 16384 n) k = n / 2 ^ (16 * k) % 65536 := by
  unfold elemAt
  rw [BitVec.toNat_ofNat, Nat.shiftRight_eq_div_pow, show (65536 : Nat) = 2 ^ 16 by norm_num]
  apply Nat.eq_of_testBit_eq
  intro i
  simp only [Nat.testBit_mod_two_pow, Nat.testBit_div_two_pow]
  by_cases hi : i < 16
  · have : i + 16 * k < 16384 := by omega
    simp [hi, this]
  · simp [hi]

theorem getD_map_range (f : Nat → Nat) (n k : Nat) (h : k < n) : ((List.range n).map f).getD k 0 = f k := by
  simp [List.getD_eq_getElem?_getD, List.getElem?_map, List.getElem?_range h]

/-- The element of a tile given by position. -/
@[simp] theorem elemAt_tileOf (f : Nat → Nat) (k : Nat) (h : k < 1024) : elemAt (tileOf f) k = f k % 65536 := by
  unfold tileOf
  rw [elemAt_ofNat _ _ h, packElems_eq]
  have := packVals_digit 16 ((List.range 1024).map f) k
  rw [show (65536 : Nat) = 2 ^ 16 by norm_num, this, getD_map_range f 1024 k h]

theorem elemAt_lt (t : Tile) (k : Nat) : elemAt t k < 65536 := Nat.mod_lt _ (by norm_num)

theorem fmtWidth_mul (fmt : Nat) (h : fmtPair fmt = false) : fmtWidth fmt * perElem fmt = 16 := by
  unfold fmtPair at h
  unfold perElem
  have hw : fmtWidth fmt = 8 ∨ fmtWidth fmt = 4 ∨ fmtWidth fmt = 32 ∨ fmtWidth fmt = 16 := by
    unfold fmtWidth; split <;> simp
  rcases hw with h1 | h1 | h1 | h1 <;> rw [h1] at h ⊢ <;> simp_all

/-- The values of tiles packed in a format. -/
theorem valAt_tilesOf (fmt : Nat) (vs : List Nat) (v : Nat) (h : v < 1024 * (if fmtPair fmt then 1 else perElem fmt)) :
    valAt fmt (tilesOf fmt vs).1 (tilesOf fmt vs).2 v = vs.getD v 0 % 2 ^ fmtWidth fmt := by
  unfold valAt tilesOf
  by_cases hp : fmtPair fmt = true
  · simp only [hp, if_true, Nat.mul_one] at h ⊢
    have hw : fmtWidth fmt = 32 := by simpa [fmtPair] using hp
    unfold pairAt
    rw [elemAt_ofNat _ _ h, elemAt_ofNat _ _ h, hw]
    have h1 := packVals_digit 16 vs v
    have h2 := packVals_digit 16 (vs.map (· / 65536)) v
    rw [show (65536 : Nat) = 2 ^ 16 by norm_num] at *
    rw [h1, h2]
    have h3 : (vs.map (· / 2 ^ 16)).getD v 0 = vs.getD v 0 / 2 ^ 16 := by
      simp only [List.getD_eq_getElem?_getD, List.getElem?_map]
      cases vs[v]? <;> simp
    rw [h3, show (32 : Nat) = 16 + 16 by norm_num, Nat.pow_add, Nat.mod_mul]
  · have hp : fmtPair fmt = false := by simpa using hp
    simp only [hp, Bool.false_eq_true, if_false] at h ⊢
    have hm := fmtWidth_mul fmt hp
    have hpos : 0 < perElem fmt := by
      rcases Nat.eq_zero_or_pos (perElem fmt) with h0 | h0
      · simp [h0] at hm
      · exact h0
    have hk : v / perElem fmt < 1024 := (Nat.div_lt_iff_lt_mul hpos).mpr h
    rw [elemAt_ofNat _ _ hk, ← packVals_digit (fmtWidth fmt) vs v]
    have hv : fmtWidth fmt * v = 16 * (v / perElem fmt) + fmtWidth fmt * (v % perElem fmt) := by
      conv_lhs => rw [← Nat.div_add_mod v (perElem fmt)]
      rw [Nat.mul_add, ← Nat.mul_assoc, hm]
    have hle : fmtWidth fmt * (v % perElem fmt) + fmtWidth fmt ≤ 16 := by
      rw [← hm, ← Nat.mul_succ]
      exact Nat.mul_le_mul_left _ (Nat.mod_lt v hpos)
    rw [hv, show (65536 : Nat) = 2 ^ 16 by norm_num]
    apply Nat.eq_of_testBit_eq
    intro i
    simp only [Nat.testBit_mod_two_pow, Nat.testBit_div_two_pow]
    by_cases hi : i < fmtWidth fmt
    · have hlt : i + fmtWidth fmt * (v % perElem fmt) < 16 := by omega
      simp only [hi, hlt, decide_true, Bool.true_and, Nat.add_comm, Nat.add_left_comm, Nat.add_assoc]
    · simp [hi]

end Sys2Proof.Machine
end

