-- ==== Sys2Proof/Laws/Trigger.lean ====
section
/-! SUPPORT. What a trigger of a function unit does when it meets nothing: the one lemma that every trigger's statement rests on. -/

namespace Sys2Proof.Machine

open Sys2Proof

@[simp] theorem send_regs (x : Ctx) (fu b ii : Nat) (v : Option PVal) (m : Option Tile) (fl en : Nat) (c : Option (Nat × Bool)) (fp : Bool) :
    (x.send fu b ii v m fl en c fp).regs = x.regs := rfl
@[simp] theorem send_traps (x : Ctx) (fu b ii : Nat) (v : Option PVal) (m : Option Tile) (fl en : Nat) (c : Option (Nat × Bool)) (fp : Bool) :
    (x.send fu b ii v m fl en c fp).traps = x.traps := rfl
@[simp] theorem send_win (x : Ctx) (fu b ii : Nat) (v : Option PVal) (m : Option Tile) (fl en : Nat) (c : Option (Nat × Bool)) (fp : Bool) :
    (x.send fu b ii v m fl en c fp).win = x.win := rfl
@[simp] theorem send_fmts (x : Ctx) (fu b ii : Nat) (v : Option PVal) (m : Option Tile) (fl en : Nat) (c : Option (Nat × Bool)) (fp : Bool) :
    (x.send fu b ii v m fl en c fp).fmts = x.fmts := rfl
@[simp] theorem send_seq (x : Ctx) (fu b ii : Nat) (v : Option PVal) (m : Option Tile) (fl en : Nat) (c : Option (Nat × Bool)) (fp : Bool) :
    (x.send fu b ii v m fl en c fp).seq = x.seq := rfl
@[simp] theorem setLatch_regs (x : Ctx) (fu p : Nat) (v : PVal) : (x.setLatch fu p v).regs = x.regs := rfl
@[simp] theorem setLatch_traps (x : Ctx) (fu p : Nat) (v : PVal) : (x.setLatch fu p v).traps = x.traps := rfl
@[simp] theorem setLatch_win (x : Ctx) (fu p : Nat) (v : PVal) : (x.setLatch fu p v).win = x.win := rfl
@[simp] theorem setLatch_fmts (x : Ctx) (fu p : Nat) (v : PVal) : (x.setLatch fu p v).fmts = x.fmts := rfl
@[simp] theorem setLatch_seq (x : Ctx) (fu p : Nat) (v : PVal) : (x.setLatch fu p v).seq = x.seq := rfl

/-- The operand port's latch as a trigger leaves it (R61). -/
def Ctx.latched (x : Ctx) (fu on : Nat) (v : PVal) : Ctx := if on = 0xFFF then x else x.setLatch fu 0 (portHolds fu v)

theorem trig_act (s : State) (fu ii tn on : Nat) (wt wo : Want) (cands : List Cand) (send : Ctx → Ctx) :
    (trigSem (begun s) (begun s) fu ii tn on wt wo cands send).act (begun s) =
      (begun s).modCtx s.cur (fun x => send (x.latched fu on (operandOf s fu on wo))) := by
  simp only [trigSem, latchOperand, operandOf, Ctx.latched, begun_cur]
  split
  · rfl
  · rw [modCtx_modCtx]

theorem trig_clear (s : State) (fu ii tn on : Nat) (wt wo : Want) (cands : List Cand) (send : Ctx → Ctx)
    (hu : UnitFree s fu) (ht : Readable s tn wt) (ho : OperandOk s on wo) (hc : cands = []) :
    Clear s (trigSem (begun s) (begun s) fu ii tn on wt wo cands send) := by
  obtain ⟨ht1, ht2⟩ := ht
  refine ⟨?_, by simp [trigSem], ?_, ?_, rfl, by simp [trigSem], by simp [trigSem], .inr rfl⟩
  · simp only [trigSem, portCands, begun_cur, ht1, hc, List.append_nil, List.nil_append]
    rcases ho with ho | ho
    · simp [ho]
    · simp [ho.1]
  · intro u h; simp only [trigSem, Option.some.injEq] at h; subst h; exact hu
  · simp only [trigSem, portStalls, begun_cur, ht2, Bool.false_or]
    rcases ho with ho | ho
    · simp [ho]
    · simp [ho.2]

/-- A trigger whose sources can be read and whose unit is free completes and delivers its value. -/
theorem trigger_delivers (s : State) (k fu ii tn on : Nat) (wt wo : Want) (cands : List Cand) (b : Nat) (v : PVal) (mask : Option Tile)
    (flags en : Nat) (cond : Option (Nat × Bool)) (fp : Bool) (sem : State → State → Sem)
    (hm : sem (begun s) (begun s) = trigSem (begun s) (begun s) fu ii tn on wt wo cands
      (fun x => x.send fu b ii (some v) mask flags en cond fp))
    (hf : CanIssue s) (hu : UnitFree s fu) (ht : Readable s tn wt) (ho : OperandOk s on wo) (hc : cands = []) :
    ∃ t, issueOne k sem s = .next t ∧ Delivers s t fu on wo b ii v mask flags en cond := by
  refine ⟨_, issueOne_go s k sem hf (semsOf_one k sem _ (by rw [hm]; simp [trigSem])) (by rw [hm]; simp [trigSem, phases])
    (by rw [hm]; exact trig_clear s fu ii tn on wt wo cands _ hu ht ho hc), ?_⟩
  rw [hm]
  have hg : (trigSem (begun s) (begun s) fu ii tn on wt wo cands (fun x => x.send fu b ii (some v) mask flags en cond fp)).flow.goesOn = true := rfl
  have ha := trig_act s fu ii tn on wt wo cands (fun x => x.send fu b ii (some v) mask flags en cond fp)
  have hx := after_ctx s k _ hg (by rw [ha]; simp)
  have ho := after_outside s k _ hg _ ha
  rw [ha, modCtx_ctx, if_pos rfl, begun_ctx_cur] at hx
  refine ⟨?_, ⟨?_, ?_⟩, ⟨?_, ?_, ?_, ?_, ?_⟩, ho.1, ho.2.1, ho.2.2⟩
  · unfold Sends; rw [hx, finishCtx_ports _ _ _ _ _ rfl]; simp only [held_flights, Ctx.latched]; split <;> rfl
  · rw [hx, finishCtx_ports _ _ _ _ _ rfl]; simp only [held_result, Ctx.latched]; split <;> rfl
  · rw [hx, finishCtx_ports _ _ _ _ _ rfl]; simp only [held_latch, Ctx.latched]; split <;> rfl
  · rw [hx, finishCtx_regs _ _ _ _ _ rfl]; simp only [held_regs, Ctx.latched]; split <;> simp
  · rw [hx, finishCtx_traps _ _ _ _ _ rfl (by simp [trigSem])]; simp only [held_traps, Ctx.latched]; split <;> simp
  · rw [hx, finishCtx_win _ _ _ _ _ rfl]; simp only [held_win, Ctx.latched]; split <;> simp
  · rw [hx, finishCtx_kcond _ _ _ _ _ rfl]; simp only [held_seq, Ctx.latched]; split <;> simp
  · rw [hx, finishCtx_fmts _ _ _ _ _ rfl]; simp only [held_fmts, Ctx.latched]; split <;> simp

end Sys2Proof.Machine
end

