-- ==== Sys2Proof/Laws/Vector.lean ====
section
/-! SUPPORT. What a vector trigger delivers, and the values and flags of an operation that works value by value. -/

namespace Sys2Proof.Machine

open Sys2Proof

/-- A vector trigger whose modifier is legal, whose sources can be read and whose unit is free completes and delivers. -/
theorem vec_delivers (s : State) (fu tn on fmt : Nat) (mask legal readO : Bool) (b ii : Nat) (fp : Bool)
    (f : Option Tile → Tile × Tile → Tile × Tile → Tile × Tile → (Tile × Tile) × Nat)
    (hf : CanIssue s) (hu : UnitFree s fu) (ht : Readable s tn (if fmtPair fmt then .pair else .tile))
    (ho : OperandOk s on (if readO then (if fmtPair fmt then .pair else .tile) else .any)) (hl : legal = true) :
    let w : Want := if fmtPair fmt then .pair else .tile
    let wo : Want := if readO then w else .any
    let c := (secondOf s fu).tiles
    let m := if mask then some c.1 else none
    let r := f m (valueOf s tn w).tiles (operandOf s fu on wo).tiles c
    ∃ t, issueOne 4 (vecSem fu tn on fmt mask legal readO b ii fp f) s = .next t ∧
      Delivers s t fu on wo (vecTime (fmtPair fmt) b ii).1 (vecTime (fmtPair fmt) b ii).2 (vecVal (fmtPair fmt) r.1) m r.2
        ((me s).fmts.fpctl % 32) none := by
  intro w wo c m r
  have hk := trigger_delivers s 4 fu (vecTime (fmtPair fmt) b ii).2 tn on w wo (candIf (!legal) illegalCombination)
    (vecTime (fmtPair fmt) b ii).1 (vecVal (fmtPair fmt) r.1) m r.2 ((me s).fmts.fpctl % 32) none fp
    (vecSem fu tn on fmt mask legal readO b ii fp f)
    (by
      simp only [vecSem, r, m, c, w, wo, valueOf, operandOf, secondOf, vecEnables, State.me, begun_cur, begun_ctx_cur]) hf hu ht ho
    (by subst hl; rfl)
  exact hk

/-- The values of an operation that works value by value. -/
theorem mapVals_val (fmt : Nat) (mask : Option Tile) (f : Nat → Nat → Nat → Nat × Nat) (a b c : Tile × Tile) (v : Nat)
    (h : v < 1024 * (if fmtPair fmt then 1 else perElem fmt)) :
    valAt fmt (mapVals fmt mask f a b c).1.1 (mapVals fmt mask f a b c).1.2 v =
      (f (valAt fmt a.1 a.2 v) (valAt fmt b.1 b.2 v) (valAt fmt c.1 c.2 v)).1 % 2 ^ fmtWidth fmt := by
  unfold mapVals
  simp only []
  rw [valAt_tilesOf fmt _ v h]
  congr 1
  rw [List.map_map]
  exact getD_map_range _ _ _ h

/-- A bit of the flags gathered from a list is raised by one of its entries. -/
theorem foldl_or_testBit {α : Type} (g : α → Nat) (l : List α) (x i : Nat) :
    (l.foldl (fun a r => a ||| g r) x).testBit i = true ↔ x.testBit i = true ∨ ∃ r ∈ l, (g r).testBit i = true := by
  induction l generalizing x with
  | nil => simp
  | cons a r ih => simp only [List.foldl_cons, ih, Nat.testBit_or, Bool.or_eq_true, List.mem_cons, exists_eq_or_imp, or_assoc]

/-- The flags of an operation that works value by value: those of the values whose mask bit is set. -/
theorem mapVals_flags (fmt : Nat) (mask : Option Tile) (f : Nat → Nat → Nat → Nat × Nat) (a b c : Tile × Tile) (i : Nat) :
    (mapVals fmt mask f a b c).2.testBit i = true ↔ ∃ v < 1024 * (if fmtPair fmt then 1 else perElem fmt),
      maskOn mask (v / (if fmtPair fmt then 1 else perElem fmt)) = true ∧
        (f (valAt fmt a.1 a.2 v) (valAt fmt b.1 b.2 v) (valAt fmt c.1 c.2 v)).2.testBit i = true := by
  unfold mapVals
  simp only []
  rw [foldl_or_testBit]
  simp only [Nat.zero_testBit, Bool.false_eq_true, false_or, List.mem_map, List.mem_range, exists_exists_and_eq_and]
  apply exists_congr
  intro v
  apply and_congr_right
  intro _
  cases maskOn mask (v / (if fmtPair fmt = true then 1 else perElem fmt)) <;> simp

/-- An operation that raises no flag for any value raises none. -/
theorem mapVals_noflags (fmt : Nat) (mask : Option Tile) (f : Nat → Nat → Nat → Nat × Nat) (a b c : Tile × Tile)
    (h : ∀ x y z, (f x y z).2 = 0) : (mapVals fmt mask f a b c).2 = 0 := by
  apply Nat.eq_of_testBit_eq
  intro i
  simp only [Nat.zero_testBit]
  rw [Bool.eq_false_iff]
  intro hh
  obtain ⟨v, _, _, h3⟩ := (mapVals_flags fmt mask f a b c i).mp hh
  simp [h] at h3

end Sys2Proof.Machine
end

