-- ==== Sys2Proof/Tests/States.lean ====
section
/-! SUPPORT. Small states for the tests: one context running on core 3.0.0 with one change at a time. -/

namespace Sys2Proof.Tests

open Sys2Proof Sys2Proof.Machine

/-- Context 0 of core 3.0.0 resident on a device otherwise as at reset, changed by `f`. -/
def run (f : Ctx → Ctx) : State := (State.reset.withFetchWord 400 0xFFFF).modCtx 1536 f
/-- The same unchanged. -/
def idle : State := run id
/-- s registers set: number and value. -/
def sregs (l : List (Nat × Nat)) : State := run (fun x => l.foldl (fun y p => y.setS p.1 p.2) x)
/-- The context waiting. -/
def waiting (w : Wait) : State := run (fun x => { x with seq := { x.seq with wait := some w } })
/-- Bytes of a store. -/
def bytes (w : Space) (a n v : Nat) (s : State) : State := s.writeN w a n v
/-- Scratchpad ways of core 3.0.0 owned by the context. -/
def own (mask : Nat) (s : State) : State :=
  (forWays (fun t w => t.setWay 384 w (.owned 1 1536)) mask 16 0 s).modCtx 1536 (fun x => { x with win := { x.win with ways := mask } })
/-- A tile of core 3.0.0 whose elements are `f`. -/
def tile (n : Nat) (f : Nat → Nat) (s : State) : State := s.modCore 384 (fun c => { c with tiles := put c.tiles n (tileOf f) })
/-- Page 0x20000000 translated by a leaf `pte` at DRAM 0x8000000, which core 3.0.0 holds. -/
def page (pte : Nat) (s : State) : State :=
  (((s.writeN .dram 0 8 0x110003).writeN .dram 0x110008 8 0x8000003).writeN .dram 0x8000000 8 pte).modCore 384 (fun c => { c with tlb := ⟨0, 0x2000, 2, pte, 0x8000000⟩ :: c.tlb })
/-- Every ready bit set. -/
def opened (s : State) : State := { s with boot := { s.boot with ready := 2 ^ 51 - 1 } }
/-- A leaf of DRAM page 0x30000: valid, readable, writable, accessed and dirty. -/
def pteDram : Nat := 0x30000 + 2 ^ 12 + 2 ^ 11 + 2 ^ 3 + 2 ^ 2 + 1
/-- A leaf of host page 0, home 01 (PCIe). -/
def pteHost : Nat := 3 * 2 ^ 8 + 2 ^ 5 + 2 ^ 12 + 2 ^ 11 + 2 ^ 3 + 2 ^ 2 + 1

/-- The next state, where there is one. -/
def next (i : Instr) (s : State) : Option State :=
  match exec i s with
  | .next t => some t
  | _ => none
/-- The last result sent to a port: its scalar. -/
def sent (i : Instr) (s : State) : Option Nat :=
  (next i s).bind (fun t => (t.ctx 1536).ports.flights.getLast?.bind (fun f => f.val.map (·.asScalar)))
/-- The flags it raises. -/
def raised (i : Instr) (s : State) : Option Nat := (next i s).bind (fun t => (t.ctx 1536).ports.flights.getLast?.map (·.flags))
/-- The last result sent: value `v` of its tile or pair in format `f`. -/
def sentVal (f v : Nat) (i : Instr) (s : State) : Option Nat :=
  (next i s).bind (fun t => (t.ctx 1536).ports.flights.getLast?.bind (fun g => g.val.map (fun p => valAt f p.asTile p.asHigh v)))
/-- The exception taken: cause and value of level 1. -/
def trapped (i : Instr) (s : State) : Option (Nat × Nat × Nat) :=
  (next i s).map (fun t => ((t.ctx 1536).traps.level, (t.ctx 1536).traps.cause1 % 256, (t.ctx 1536).traps.tval1))
/-- A handler base, so that exceptions are taken and not killed. -/
def handled (s : State) : State := s.modCtx 1536 (fun x => { x with traps := { x.traps with tvec := 0x8001 } })
/-- The context's pc in the next state. -/
def pcOf (i : Instr) (s : State) : Option Nat := (next i s).map (fun t => (t.ctx 1536).seq.pc)

end Sys2Proof.Tests
end

