-- ==== Sys2Proof/Tests/Slice0.lean ====
section
/-! SUPPORT. Tests of one step each, with results worked out by hand from the spec's tables and words. -/

namespace Sys2Proof.Tests

open Sys2Proof Sys2Proof.Machine

set_option maxRecDepth 20000
set_option Elab.async false

/-! ## Well-formed instructions -/

theorem test_wf_name : (Instr.saAdd ⟨4095, 0, false, false, 0⟩).wf = true ∧ (Instr.saAdd ⟨4096, 0, false, false, 0⟩).wf = false ∧
    (Instr.saAdd ⟨0, 4096, false, false, 0⟩).wf = false := by decide
theorem test_wf_condition : (Instr.saAdd ⟨0, 0, false, true, 15⟩).wf = true ∧ (Instr.saAdd ⟨0, 0, false, true, 16⟩).wf = false := by decide
theorem test_wf_ag : (Instr.agLea ⟨0, 0, 7⟩).wf = true ∧ (Instr.agLea ⟨0, 0, 8⟩).wf = false ∧ (Instr.agBound ⟨0, 0, 1⟩).wf = false := by decide
theorem test_wf_ls : (Instr.ldB ⟨0, 0, 3, 5, 7⟩).wf = true ∧ (Instr.ldB ⟨0, 0, 4, 0, 0⟩).wf = false ∧
    (Instr.ldB ⟨0, 0, 0, 6, 0⟩).wf = false ∧ (Instr.ldB ⟨0, 0, 0, 0, 8⟩).wf = false := by decide
theorem test_wf_va : (Instr.vaAdd ⟨1, 0, 0, 15, true, 3, true⟩).wf = true ∧ (Instr.vaAdd ⟨2, 0, 0, 0, false, 0, false⟩).wf = false ∧
    (Instr.vaAdd ⟨0, 0, 0, 16, false, 0, false⟩).wf = false ∧ (Instr.vaAdd ⟨0, 0, 0, 0, false, 4, false⟩).wf = false := by decide
theorem test_wf_va_immediate : (Instr.vaLut3 ⟨0, 0, 0, 255⟩).wf = true ∧ (Instr.vaLut3 ⟨0, 0, 0, 256⟩).wf = false ∧
    (Instr.vaFshlImm ⟨0, 0, 0, 16⟩).wf = false ∧ (Instr.vaMulsh ⟨0, 0, 0, 128⟩).wf = false := by decide
theorem test_wf_vp : (Instr.vpPermImm ⟨0, 0, 1⟩).wf = true ∧ (Instr.vpPermImm ⟨0, 0, 2⟩).wf = false ∧
    (Instr.vpTrn ⟨0, 0, 16, false, 0, false⟩).wf = false ∧ (Instr.vfExp2 ⟨0, 0, 0, false, 4, false⟩).wf = false := by decide
theorem test_wf_vc : (Instr.vcCvt ⟨0, 0, 15, 15⟩).wf = true ∧ (Instr.vcCvt ⟨0, 0, 16, 0⟩).wf = false ∧ (Instr.vcCvt ⟨0, 0, 0, 16⟩).wf = false := by decide
theorem test_wf_matrix : (Instr.mstep ⟨3, 15, false, false, false, false, false, 2, false, 63, 63, 63, 63, 255, 255⟩).wf = true ∧
    (Instr.mstep ⟨4, 0, false, false, false, false, false, 0, false, 0, 0, 0, 0, 0, 0⟩).wf = false ∧
    (Instr.mstep ⟨0, 16, false, false, false, false, false, 0, false, 0, 0, 0, 0, 0, 0⟩).wf = false ∧
    (Instr.mstep ⟨0, 0, false, false, false, false, false, 3, false, 0, 0, 0, 0, 0, 0⟩).wf = false ∧
    (Instr.mstep ⟨0, 0, false, false, false, false, false, 0, false, 64, 0, 0, 0, 0, 0⟩).wf = false ∧
    (Instr.mstep ⟨0, 0, false, false, false, false, false, 0, false, 0, 64, 0, 0, 0, 0⟩).wf = false ∧
    (Instr.mstep ⟨0, 0, false, false, false, false, false, 0, false, 0, 0, 64, 0, 0, 0⟩).wf = false ∧
    (Instr.mstep ⟨0, 0, false, false, false, false, false, 0, false, 0, 0, 0, 64, 0, 0⟩).wf = false ∧
    (Instr.mstep ⟨0, 0, false, false, false, false, false, 0, false, 0, 0, 0, 0, 256, 0⟩).wf = false ∧
    (Instr.mstep ⟨0, 0, false, false, false, false, false, 0, false, 0, 0, 0, 0, 0, 256⟩).wf = false := by decide
theorem test_wf_copy : (Instr.cpyf ⟨15, 31, 63, 63, 63, 63, true, 5, false, 5⟩).wf = true ∧ (Instr.cpy ⟨15, 31, 63, 63, 63, 63, true, 5, true, 0⟩).wf = true ∧
    (Instr.cpyf ⟨0, 0, 0, 0, 0, 0, false, 0, true, 0⟩).wf = false ∧
    (Instr.cpy ⟨16, 0, 0, 0, 0, 0, false, 0, false, 0⟩).wf = false ∧ (Instr.cpy ⟨0, 32, 0, 0, 0, 0, false, 0, false, 0⟩).wf = false ∧
    (Instr.cpy ⟨0, 0, 64, 0, 0, 0, false, 0, false, 0⟩).wf = false ∧ (Instr.cpy ⟨0, 0, 0, 64, 0, 0, false, 0, false, 0⟩).wf = false ∧
    (Instr.cpy ⟨0, 0, 0, 0, 64, 0, false, 0, false, 0⟩).wf = false ∧ (Instr.cpy ⟨0, 0, 0, 0, 0, 64, false, 0, false, 0⟩).wf = false ∧
    (Instr.cpy ⟨0, 0, 0, 0, 0, 0, false, 6, false, 0⟩).wf = false ∧ (Instr.cpy ⟨0, 0, 0, 0, 0, 0, false, 0, false, 1⟩).wf = false ∧
    (Instr.cpyf ⟨0, 0, 0, 0, 0, 0, false, 0, false, 6⟩).wf = false := by decide
theorem test_wf_moves : (Instr.copyMove 4095 4095).wf = true ∧ (Instr.copyMove 4096 0).wf = false ∧ (Instr.copyMove 0 4096).wf = false ∧
    (Instr.immediateMove 0 (2 ^ 32)).wf = false := by decide
theorem test_wf_branches : (Instr.br (2 ^ 24)).wf = false ∧ (Instr.brk 0 16 false).wf = false ∧ (Instr.call (2 ^ 24)).wf = false ∧
    (Instr.jmp 4096 false).wf = false ∧ (Instr.loop 4096 0 false).wf = false ∧ (Instr.loop 0 65536 true).wf = false ∧
    (Instr.lbrk 0 false false 0).wf = false ∧ (Instr.lbrk 9 false false 0).wf = false ∧ (Instr.lbrk 1 true true 16).wf = false := by decide
theorem test_wf_waits : (Instr.twait 4096 false).wf = false ∧ (Instr.cwait 32 0 0).wf = false ∧ (Instr.cwait 0 64 0).wf = false ∧
    (Instr.cwait 0 0 6).wf = false ∧ (Instr.fence 0 0).wf = false ∧ (Instr.fence 4 0).wf = false ∧ (Instr.fence 3 5).wf = true ∧
    (Instr.bacq 65536).wf = false ∧ (Instr.brel 65536).wf = false := by decide
theorem test_wf_system : (Instr.fmtw 3 0).wf = false ∧ (Instr.sget 0 3).wf = false ∧ (Instr.sset 0 0x12).wf = false ∧ (Instr.sset 0 0x20).wf = true ∧
    (Instr.gmset 0 0).wf = false ∧ (Instr.gmset 16 0).wf = false ∧ (Instr.gmset 15 61).wf = true ∧ (Instr.gmset 1 62).wf = false ∧
    (Instr.qpush 32 0 false).wf = false ∧ (Instr.qpush 0 64 false).wf = false ∧ (Instr.cwb 32 0).wf = false ∧ (Instr.iinv 0 64).wf = false ∧
    (Instr.trap 65536).wf = false ∧ (Instr.brkp 65536).wf = false ∧ (Instr.tokc 4096).wf = false := by decide
theorem test_wf_events : (Instr.bundleIssue 2047).wf = true ∧ (Instr.bundleIssue 2048).wf = false ∧ (Instr.matrixComplete 512 0).wf = false ∧
    (Instr.queueEnable 63).wf = true ∧ (Instr.queueEnable 64).wf = false ∧ (Instr.regionRemove 16).wf = false ∧
    (Instr.reclaimDecrement 16 0).wf = false ∧ (Instr.evrdWrite (2 ^ 64)).wf = false ∧ (Instr.nodeRun 4096).wf = false ∧
    (Instr.retrainDue 3).wf = false ∧ (Instr.retrainEnd 0 36001 false).wf = false ∧ (Instr.hostAtomicop 0 0 16 0 0).wf = false ∧
    (Instr.hostAtomicop 3 0 4 0 0).wf = false ∧ (Instr.peerAccess 0 (2 ^ 40) []).wf = false ∧ (Instr.flitReceive 16 false).wf = false ∧
    (Instr.thermalLimitInterval 4).wf = false ∧ (Instr.scrubVisit 0 3).wf = false ∧ (Instr.leatPortTrained 0 9).wf = false ∧
    (Instr.leatPortTrained 0 0).wf = false ∧ (Instr.nvmeCompletion 0 2048 []).wf = false ∧ (Instr.attestRequest []).wf = false ∧
    (Instr.bar0Write 1 2 0).wf = false ∧ (Instr.bar0Write (2 ^ 20) 1 0).wf = false ∧ (Instr.bar0Write 0 3 0).wf = false ∧
    (Instr.bar0Write 0 1 256).wf = false := by decide +kernel

/-! ## Decoding: words written out from the encodings of the spec -/

/-- R60: class 1 | dst | src, and class 4 | dst | imm32. -/
theorem test_decode_moves : decodeSlot 4 0x140D00300000 = some (some (.copyMove 0x40D 0x003)) ∧
    decodeSlot 6 0x430500000003 = some (some (.immediateMove 0x305 3)) ∧
    decodeSlot 7 (4 * 2 ^ 44 + 0xFFF * 2 ^ 32 + 0xFFFFFFFF) = some (some (.immediateMove 0xFFF 0xFFFFFFFF)) := by decide +kernel
/-- Table 3.7: class 2 | fu | opcode | T | O | modifier. -/
theorem test_decode_triggers : decodeSlot 4 0x202338638600 = some (some (.saMov ⟨0x386, 0x386, false, false, 0⟩)) ∧
    decodeSlot 4 0x221134138800 = some (some (.vst ⟨0x341, 0x388, 0, 0, 0⟩)) ∧
    decodeSlot 5 0x331000100296 = some (some (.vaLut3 ⟨0, 1, 2, 0x96⟩)) ∧
    decodeSlot 4 (2 * 2 ^ 44 + 0x300 * 2 ^ 20 + 0x301 * 2 ^ 8 + 2 ^ 7 + 2 ^ 6 + 4 * 5) = some (some (.saAdd ⟨0x300, 0x301, true, true, 5⟩)) := by
  decide +kernel
/-- Section 6: opcode in [47:42]. -/
theorem test_decode_control : decodeSlot 3 0x18C08000C000 = some (some (.loop 0x302 3 false)) ∧
    decodeSlot 3 0 = some (some .ctNop) ∧ decodeSlot 3 1 = none := by decide +kernel
/-- R69, section 8. -/
theorem test_decode_matrix : decodeSlot 1 0x05310141FFF7F000 =
      some (some (.mstep ⟨1, 3, false, false, false, true, false, 0, false, 5, 1, 63, 63, 127, 0⟩)) ∧
    decodeSlot 1 0x141201BFFFF00620 = some (some (.mfin ⟨0, 1, false, false, true, false, false, 0, false, 6, 63, 63, 63, 0, 98⟩)) ∧
    decodeSlot 1 0 = some (some .mxNop) := by decide +kernel
/-- R70, sections 10 and 11. -/
theorem test_decode_copy : decodeSlot 2 0x04CA103FFE800000 = some (some (.cpy ⟨3, 5, 2, 1, 63, 63, false, 4, false, 0⟩)) ∧
    decodeSlot 2 0x404027FFFE000000 = some (some (.nput ⟨1, 0, 4, 63, 63, 63, false, 0, false, 0⟩)) ∧
    decodeSlot 2 0x5080309FFE800000 = some (some (.nswap ⟨2, 0, 6, 4, 63, 63, false, 4, false, 0⟩)) ∧
    decodeSlot 2 0 = some (some .cpNop) := by decide +kernel
/-- R72: any other bit of a nop is an illegal slot. -/
theorem test_decode_refuses : decodeSlot 1 1 = none ∧ decodeSlot 2 (2 ^ 57) = none ∧ decodeSlot 3 (2 ^ 41) = none := by decide +kernel
/-- R54: the literal marker, then 24 words, the header last. -/
theorem test_decode_literal : decodeTableWord 400 0xFFFF = some .ctNop ∧ decodeTableWord 400 0 = none ∧
    (match decodeLiteral [0xFFFF] with | .error .truncated => true | _ => false) = true := by decide +kernel
theorem test_encode_literal : (encode (.copyMove 0x40D 0x003)).length = 25 ∧ (encode (.copyMove 0x40D 0x003)).head? = some 0xFFFF := by
  decide +kernel

/-! ## Scalar, address and vector units -/

/-- R34, R36: 1/3 in f16, the overflow of 65,504 · 2, and a subnormal quotient, each rounded once. -/
theorem test_round_once : (f16.div .rne false (f16.readFlush 0x3C00) (f16.readFlush 0x4200)).1 = 0x3555 ∧
    (f16.mul .rne false (f16.readFlush 0x7BFF) (f16.readFlush 0x4000)).1 = 0x7C00 ∧
    (f16.div .rne false (f16.readFlush 0x0400) (f16.readFlush 0x4000)).1 = 0x0200 := by decide +kernel

theorem test_sa_add_wraps : sent (.saAdd ⟨0x300, 0x301, false, false, 0⟩) (sregs [(0, 0xFFFFFFFFFFFFFFFF), (1, 1)]) = some 0 := by decide +kernel
theorem test_sa_add_32 : sent (.saAdd ⟨0x300, 0x301, true, false, 0⟩) (sregs [(0, 0x7FFFFFFF), (1, 1)]) = some 0xFFFFFFFF80000000 := by decide +kernel
theorem test_sa_sub : sent (.saSub ⟨0x300, 0x301, false, false, 0⟩) (sregs [(0, 0), (1, 1)]) = some 0xFFFFFFFFFFFFFFFF := by decide +kernel
theorem test_sa_mul : sent (.saMul ⟨0x300, 0x301, false, false, 0⟩) (sregs [(0, 0xFFFFFFFFFFFFFFFF), (1, 3)]) = some 0xFFFFFFFFFFFFFFFD := by decide +kernel
theorem test_sa_mulh : sent (.saMulh ⟨0x300, 0x301, false, false, 0⟩) (sregs [(0, 0xFFFFFFFFFFFFFFFF), (1, 0xFFFFFFFFFFFFFFFF)]) = some 0 := by decide +kernel
theorem test_sa_mulhc : sent (.saMulhc ⟨0x300, 0x301, false, false, 0⟩) (sregs [(0, 0xFFFFFFFFFFFFFFFF), (1, 0xFFFFFFFFFFFFFFFF)]) = some 0xFFFFFFFFFFFFFFFE := by decide +kernel
theorem test_sa_div : sent (.saDiv ⟨0x300, 0x301, false, false, 0⟩) (sregs [(0, 0xFFFFFFFFFFFFFFF9), (1, 2)]) = some 0xFFFFFFFFFFFFFFFD := by decide +kernel
theorem test_sa_rem : sent (.saRem ⟨0x300, 0x301, false, false, 0⟩) (sregs [(0, 0xFFFFFFFFFFFFFFF9), (1, 2)]) = some 0xFFFFFFFFFFFFFFFF := by decide +kernel
theorem test_sa_divc_32 : sent (.saDivc ⟨0x300, 0x301, true, false, 0⟩) (sregs [(0, 0xFFFFFFFF), (1, 1)]) = some 0xFFFFFFFF := by decide +kernel
theorem test_sa_remc : sent (.saRemc ⟨0x300, 0x301, false, false, 0⟩) (sregs [(0, 0xFFFFFFFFFFFFFFFF), (1, 10)]) = some 5 := by decide +kernel
theorem test_sa_div_by_zero : trapped (.saDiv ⟨0x300, 0x301, false, false, 0⟩) (handled (sregs [(0, 7)])) = some (1, 0x0D, 4) := by decide +kernel
theorem test_sa_and : sent (.saAnd ⟨0x300, 0x301, false, false, 0⟩) (sregs [(0, 0xF0), (1, 0x3C)]) = some 0x30 := by decide +kernel
theorem test_sa_or : sent (.saOr ⟨0x300, 0x301, false, false, 0⟩) (sregs [(0, 0xF0), (1, 0x3C)]) = some 0xFC := by decide +kernel
theorem test_sa_xor : sent (.saXor ⟨0x300, 0x301, false, false, 0⟩) (sregs [(0, 0xF0), (1, 0x3C)]) = some 0xCC := by decide +kernel
theorem test_sa_andn : sent (.saAndn ⟨0x300, 0x301, false, false, 0⟩) (sregs [(0, 0xF0), (1, 0x3C)]) = some 0xC0 := by decide +kernel
theorem test_sa_shl_modulo : sent (.saShl ⟨0x300, 0x301, false, false, 0⟩) (sregs [(0, 1), (1, 65)]) = some 2 := by decide +kernel
theorem test_sa_shr_32 : sent (.saShr ⟨0x300, 0x301, true, false, 0⟩) (sregs [(0, 0x80000000), (1, 0)]) = some 0x80000000 := by decide +kernel
theorem test_sa_sra : sent (.saSra ⟨0x300, 0x301, false, false, 0⟩) (sregs [(0, 0x8000000000000000), (1, 63)]) = some 0xFFFFFFFFFFFFFFFF := by decide +kernel
theorem test_sa_rotl : sent (.saRotl ⟨0x300, 0x301, false, false, 0⟩) (sregs [(0, 0x8000000000000001), (1, 1)]) = some 3 := by decide +kernel
theorem test_sa_min : sent (.saMin ⟨0x300, 0x301, false, false, 0⟩) (sregs [(0, 0xFFFFFFFFFFFFFFFF), (1, 1)]) = some 0xFFFFFFFFFFFFFFFF := by decide +kernel
theorem test_sa_max : sent (.saMax ⟨0x300, 0x301, false, false, 0⟩) (sregs [(0, 0xFFFFFFFFFFFFFFFF), (1, 1)]) = some 1 := by decide +kernel
theorem test_sa_minc : sent (.saMinc ⟨0x300, 0x301, false, false, 0⟩) (sregs [(0, 0xFFFFFFFFFFFFFFFF), (1, 1)]) = some 1 := by decide +kernel
theorem test_sa_maxc : sent (.saMaxc ⟨0x300, 0x301, false, false, 0⟩) (sregs [(0, 0xFFFFFFFFFFFFFFFF), (1, 1)]) = some 0xFFFFFFFFFFFFFFFF := by decide +kernel
theorem test_sa_cmpeq : sent (.saCmpeq ⟨0x300, 0x301, false, false, 0⟩) (sregs [(0, 5), (1, 5)]) = some 1 := by decide +kernel
theorem test_sa_cmpne : sent (.saCmpne ⟨0x300, 0x301, false, false, 0⟩) (sregs [(0, 5), (1, 5)]) = some 0 := by decide +kernel
theorem test_sa_cmplt : sent (.saCmplt ⟨0x300, 0x301, false, false, 0⟩) (sregs [(0, 0xFFFFFFFFFFFFFFFF), (1, 0)]) = some 1 := by decide +kernel
theorem test_sa_cmple : sent (.saCmple ⟨0x300, 0x301, false, false, 0⟩) (sregs [(0, 1), (1, 0)]) = some 0 := by decide +kernel
theorem test_sa_cmpltc : sent (.saCmpltc ⟨0x300, 0x301, false, false, 0⟩) (sregs [(0, 0xFFFFFFFFFFFFFFFF), (1, 0)]) = some 0 := by decide +kernel
theorem test_sa_cmplec : sent (.saCmplec ⟨0x300, 0x301, false, false, 0⟩) (sregs [(0, 0), (1, 0xFFFFFFFFFFFFFFFF)]) = some 1 := by decide +kernel
theorem test_sa_clz : sent (.saClz ⟨0x300, 0x301, false, false, 0⟩) (sregs [(0, 0), (1, 0)]) = some 64 ∧ sent (.saClz ⟨0x300, 0x301, true, false, 0⟩) (sregs [(0, 1), (1, 0)]) = some 31 := by decide +kernel
theorem test_sa_ctz : sent (.saCtz ⟨0x300, 0x301, false, false, 0⟩) (sregs [(0, 8), (1, 0)]) = some 3 := by decide +kernel
theorem test_sa_popc : sent (.saPopc ⟨0x300, 0x301, false, false, 0⟩) (sregs [(0, 0xFFFFFFFFFFFFFFFF), (1, 0)]) = some 64 := by decide +kernel
theorem test_sa_bext : sent (.saBext ⟨0x300, 0x301, false, false, 0⟩) (sregs [(0, 0xABCD), (1, 4 + 256 * 8)]) = some 0xBC := by decide +kernel
theorem test_sa_sext : sent (.saSext ⟨0x300, 0x301, false, false, 0⟩) (sregs [(0, 0x80), (1, 8)]) = some 0xFFFFFFFFFFFFFF80 := by decide +kernel
theorem test_sa_zext : sent (.saZext ⟨0x300, 0x301, false, false, 0⟩) (sregs [(0, 0x1FF), (1, 8)]) = some 0xFF := by decide +kernel
theorem test_sa_mov : sent (.saMov ⟨0x300, 0x301, false, false, 0⟩) (sregs [(0, 77), (1, 0)]) = some 77 := by decide +kernel
theorem test_sa_sel : sent (.saSel ⟨0x300, 0x301, false, false, 3⟩) (sregs [(0, 1), (1, 2)]) = some 2 := by decide +kernel
theorem test_sa_fadd : sent (.saFadd ⟨0x300, 0x301, false, false, 0⟩) (sregs [(0, 0x3F800000), (1, 0x3F800000)]) = some 0x40000000 := by decide +kernel
theorem test_sa_fmul : sent (.saFmul ⟨0x300, 0x301, false, false, 0⟩) (sregs [(0, 0xC0000000), (1, 0x3F000000)]) = some 0xBF800000 := by decide +kernel
theorem test_sa_fdiv : sent (.saFdiv ⟨0x300, 0x301, false, false, 0⟩) (sregs [(0, 0x3F800000), (1, 0x40400000)]) = some 0x3EAAAAAB := by decide +kernel
theorem test_sa_fcmp : sent (.saFcmp ⟨0x300, 0x301, false, false, 0⟩) (sregs [(0, 0x3F800000), (1, 0x40400000)]) = some 1 ∧ sent (.saFcmp ⟨0x300, 0x301, false, false, 0⟩) (sregs [(0, 0x7FC00000), (1, 0)]) = some 8 := by decide +kernel
theorem test_sa_fcvt : sent (.saFcvt ⟨0x300, 0x301, false, false, 0⟩) (sregs [(0, 0x40400000), (1, 0xED)]) = some 3 := by decide +kernel
theorem test_sa_fadd_inexact : raised (.saFadd ⟨0x300, 0x301, false, false, 0⟩) (sregs [(0, 0x3F800000), (1, 0x30000000)]) = some flINX := by decide +kernel
theorem test_ag_lea : sent (.agLea ⟨0x300, 0x301, 3⟩) (sregs [(0, 16), (1, 3)]) = some 40 := by decide +kernel
theorem test_ag_adds : sent (.agAdds ⟨0x300, 0x301, 0⟩) (sregs [(0, 0xFFFFFFFFFFFFFFFF), (1, 2)]) = some 1 := by decide +kernel
theorem test_ag_spa : sent (.agSpa ⟨0x300, 0x301, 0⟩) (sregs [(0, 2), (1, 0x123456)]) = some 0x6123456 := by decide +kernel
theorem test_ag_aff : sent (.agAff ⟨0x300, 0x301, 0⟩) (sregs [(0, 9), (1, 5)]) = some 9 := by decide +kernel
theorem test_ag_gva : sent (.agGva ⟨0x300, 0x301, 0⟩) (sregs [(0, 3), (1, 7)]) = some 0x30000000007 := by decide +kernel
theorem test_ag_bound : sent (.agBound ⟨0x300, 0x301, 0⟩) (sregs [(0, 3), (1, 4)]) = some 3 ∧ trapped (.agBound ⟨0x300, 0x301, 0⟩) (handled (sregs [(0, 4), (1, 4)])) = some (1, 0x10, 4) := by decide +kernel
theorem test_copy_move : (next (.copyMove 0x341 0x300) (sregs [(0, 9)])).map (fun t => (t.ctx 1536).a 1) = some 9 := by decide +kernel
theorem test_immediate_move : (next (.immediateMove 0x300 0xFFFFFFFE) idle).map (fun t => (t.ctx 1536).s 0) = some 0xFFFFFFFFFFFFFFFE := by decide +kernel
theorem test_immediate_move_tile : (next (.immediateMove 0 0x12345) idle).map (fun t => elemAt (look 0 (t.core 384).tiles 0) 1023) = some 0x2345 := by decide +kernel
theorem test_ld_b : sent (.ldB ⟨0x300, 0x301, 0, 0, 0⟩) (bytes .sp (384 * 2 ^ 24 + 16) 16 0x1F8 (own 1 (sregs [(0, 16)]))) = some 0xF8 := by decide +kernel
theorem test_ld_h : sent (.ldH ⟨0x300, 0x301, 0, 0, 0⟩) (bytes .sp (384 * 2 ^ 24 + 16) 16 0x18001 (own 1 (sregs [(0, 16)]))) = some 0x8001 := by decide +kernel
theorem test_ld_w : sent (.ldW ⟨0x300, 0x301, 0, 0, 0⟩) (bytes .sp (384 * 2 ^ 24 + 16) 16 0x180000001 (own 1 (sregs [(0, 16)]))) = some 0x80000001 := by decide +kernel
theorem test_ld_d : sent (.ldD ⟨0x300, 0x301, 0, 0, 0⟩) (bytes .sp (384 * 2 ^ 24 + 16) 16 0x8000000000000001 (own 1 (sregs [(0, 16)]))) = some 0x8000000000000001 := by decide +kernel
theorem test_lds_b : sent (.ldsB ⟨0x300, 0x301, 0, 0, 0⟩) (bytes .sp (384 * 2 ^ 24 + 16) 16 0x1F8 (own 1 (sregs [(0, 16)]))) = some 0xFFFFFFFFFFFFFFF8 := by decide +kernel
theorem test_lds_h : sent (.ldsH ⟨0x300, 0x301, 0, 0, 0⟩) (bytes .sp (384 * 2 ^ 24 + 16) 16 0x8001 (own 1 (sregs [(0, 16)]))) = some 0xFFFFFFFFFFFF8001 := by decide +kernel
theorem test_lds_w : sent (.ldsW ⟨0x300, 0x301, 0, 0, 0⟩) (bytes .sp (384 * 2 ^ 24 + 16) 16 0x80000001 (own 1 (sregs [(0, 16)]))) = some 0xFFFFFFFF80000001 := by decide +kernel
theorem test_ld_q : (next (.ldQ ⟨0x300, 0x301, 0, 0, 0⟩) (bytes .sp (384 * 2 ^ 24 + 16) 16 (2 ^ 127 + 5) (own 1 (sregs [(0, 16)])))).bind (fun t => (t.ctx 1536).ports.flights.getLast?.bind (fun f => f.val.map (·.asWide))) = some (2 ^ 127 + 5) := by decide +kernel
theorem test_ld_misaligned : trapped (.ldW ⟨0x300, 0x301, 0, 0, 0⟩) (handled (own 1 (sregs [(0, 18)]))) = some (1, 0x0C, 18) := by decide +kernel
theorem test_ld_no_way : trapped (.ldB ⟨0x300, 0x301, 0, 0, 0⟩) (handled (own 1 (sregs [(0, 0x100000)]))) = some (1, 0x07, 0x100000) := by decide +kernel
theorem test_st_b : (next (.stB ⟨0x300, 0x301, 0, 0, 0⟩) (own 1 (sregs [(0, 16), (1, 0x1FF)]))).map (fun t => t.readN .sp (384 * 2 ^ 24 + 16) 16) = some 0xFF := by decide +kernel
theorem test_st_h : (next (.stH ⟨0x300, 0x301, 0, 0, 0⟩) (own 1 (sregs [(0, 16), (1, 0x12345)]))).map (fun t => t.readN .sp (384 * 2 ^ 24 + 16) 16) = some 0x2345 := by decide +kernel
theorem test_st_w : (next (.stW ⟨0x300, 0x301, 0, 0, 0⟩) (own 1 (sregs [(0, 16), (1, 0x123456789)]))).map (fun t => t.readN .sp (384 * 2 ^ 24 + 16) 16) = some 0x23456789 := by decide +kernel
theorem test_st_d : (next (.stD ⟨0x300, 0x301, 0, 0, 0⟩) (own 1 (sregs [(0, 16), (1, 0xFFFFFFFFFFFFFFFF)]))).map (fun t => t.readN .sp (384 * 2 ^ 24 + 16) 16) = some 0xFFFFFFFFFFFFFFFF := by decide +kernel
theorem test_st_q : (next (.stQ ⟨0x300, 0x301, 0, 0, 0⟩) (own 1 (sregs [(0, 16), (1, 7)]))).map (fun t => t.readN .sp (384 * 2 ^ 24 + 16) 16) = some 7 := by decide +kernel
theorem test_vld : sentVal 0 64 (.vld ⟨0x300, 0x301, 0, 0, 0⟩) (bytes .sp (384 * 2 ^ 24 + 256) 2 0xBEEF (own 1 (sregs [(1, 256)]))) = some 0xBEEF := by decide +kernel
theorem test_amo_add_w : (next (.amoAddW ⟨0x300, 0x301, 0, 0, 0⟩) (bytes .sp (384 * 2 ^ 24 + 16) 4 0xFFFFFFFF (own 1 (sregs [(0, 16), (1, 2)])))).map (fun t => (t.readN .sp (384 * 2 ^ 24 + 16) 4, ((t.ctx 1536).ports.flights.getLast?.bind (fun f => f.val.map (·.asScalar))))) = some (1, some 0xFFFFFFFF) := by decide +kernel
theorem test_amo_add_d : (next (.amoAddD ⟨0x300, 0x301, 0, 0, 0⟩) (bytes .sp (384 * 2 ^ 24 + 16) 8 0xFFFFFFFF (own 1 (sregs [(0, 16), (1, 2)])))).map (fun t => (t.readN .sp (384 * 2 ^ 24 + 16) 8, ((t.ctx 1536).ports.flights.getLast?.bind (fun f => f.val.map (·.asScalar))))) = some (0x100000001, some 0xFFFFFFFF) := by decide +kernel
theorem test_amo_min_w : (next (.amoMinW ⟨0x300, 0x301, 0, 0, 0⟩) (bytes .sp (384 * 2 ^ 24 + 16) 4 0xFFFFFFFF (own 1 (sregs [(0, 16), (1, 1)])))).map (fun t => (t.readN .sp (384 * 2 ^ 24 + 16) 4, ((t.ctx 1536).ports.flights.getLast?.bind (fun f => f.val.map (·.asScalar))))) = some (0xFFFFFFFF, some 0xFFFFFFFF) := by decide +kernel
theorem test_amo_minc_w : (next (.amoMincW ⟨0x300, 0x301, 0, 0, 0⟩) (bytes .sp (384 * 2 ^ 24 + 16) 4 0xFFFFFFFF (own 1 (sregs [(0, 16), (1, 1)])))).map (fun t => (t.readN .sp (384 * 2 ^ 24 + 16) 4, ((t.ctx 1536).ports.flights.getLast?.bind (fun f => f.val.map (·.asScalar))))) = some (1, some 0xFFFFFFFF) := by decide +kernel
theorem test_amo_max_d : (next (.amoMaxD ⟨0x300, 0x301, 0, 0, 0⟩) (bytes .sp (384 * 2 ^ 24 + 16) 8 0xFFFFFFFFFFFFFFFF (own 1 (sregs [(0, 16), (1, 1)])))).map (fun t => (t.readN .sp (384 * 2 ^ 24 + 16) 8, ((t.ctx 1536).ports.flights.getLast?.bind (fun f => f.val.map (·.asScalar))))) = some (1, some 0xFFFFFFFFFFFFFFFF) := by decide +kernel
theorem test_amo_maxc_d : (next (.amoMaxcD ⟨0x300, 0x301, 0, 0, 0⟩) (bytes .sp (384 * 2 ^ 24 + 16) 8 0xFFFFFFFFFFFFFFFF (own 1 (sregs [(0, 16), (1, 1)])))).map (fun t => (t.readN .sp (384 * 2 ^ 24 + 16) 8, ((t.ctx 1536).ports.flights.getLast?.bind (fun f => f.val.map (·.asScalar))))) = some (0xFFFFFFFFFFFFFFFF, some 0xFFFFFFFFFFFFFFFF) := by decide +kernel
theorem test_amo_and_w : (next (.amoAndW ⟨0x300, 0x301, 0, 0, 0⟩) (bytes .sp (384 * 2 ^ 24 + 16) 4 0xF0 (own 1 (sregs [(0, 16), (1, 0x3C)])))).map (fun t => (t.readN .sp (384 * 2 ^ 24 + 16) 4, ((t.ctx 1536).ports.flights.getLast?.bind (fun f => f.val.map (·.asScalar))))) = some (0x30, some 0xF0) := by decide +kernel
theorem test_amo_or_d : (next (.amoOrD ⟨0x300, 0x301, 0, 0, 0⟩) (bytes .sp (384 * 2 ^ 24 + 16) 8 0xF0 (own 1 (sregs [(0, 16), (1, 0x3C)])))).map (fun t => (t.readN .sp (384 * 2 ^ 24 + 16) 8, ((t.ctx 1536).ports.flights.getLast?.bind (fun f => f.val.map (·.asScalar))))) = some (0xFC, some 0xF0) := by decide +kernel
theorem test_amo_xor_w : (next (.amoXorW ⟨0x300, 0x301, 0, 0, 0⟩) (bytes .sp (384 * 2 ^ 24 + 16) 4 0xF0 (own 1 (sregs [(0, 16), (1, 0x3C)])))).map (fun t => (t.readN .sp (384 * 2 ^ 24 + 16) 4, ((t.ctx 1536).ports.flights.getLast?.bind (fun f => f.val.map (·.asScalar))))) = some (0xCC, some 0xF0) := by decide +kernel
theorem test_amo_xchg_w : (next (.amoXchgW ⟨0x300, 0x301, 0, 0, 0⟩) (bytes .sp (384 * 2 ^ 24 + 16) 4 5 (own 1 (sregs [(0, 16), (1, 9)])))).map (fun t => (t.readN .sp (384 * 2 ^ 24 + 16) 4, ((t.ctx 1536).ports.flights.getLast?.bind (fun f => f.val.map (·.asScalar))))) = some (9, some 5) := by decide +kernel
theorem test_amo_cas_d : (next (.amoCasD ⟨0x300, 0x301, 0, 0, 0⟩) (bytes .sp (384 * 2 ^ 24 + 16) 8 0 (own 1 (sregs [(0, 16), (1, 9)])))).map (fun t => (t.readN .sp (384 * 2 ^ 24 + 16) 8, ((t.ctx 1536).ports.flights.getLast?.bind (fun f => f.val.map (·.asScalar))))) = some (9, some 0) ∧ (next (.amoCasD ⟨0x300, 0x301, 0, 0, 0⟩) (bytes .sp (384 * 2 ^ 24 + 16) 8 5 (own 1 (sregs [(0, 16), (1, 9)])))).map (fun t => (t.readN .sp (384 * 2 ^ 24 + 16) 8, ((t.ctx 1536).ports.flights.getLast?.bind (fun f => f.val.map (·.asScalar))))) = some (5, some 5) := by decide +kernel
theorem test_amo_incw_w : (next (.amoIncwW ⟨0x300, 0x301, 0, 0, 0⟩) (bytes .sp (384 * 2 ^ 24 + 16) 4 3 (own 1 (sregs [(0, 16), (1, 3)])))).map (fun t => (t.readN .sp (384 * 2 ^ 24 + 16) 4, ((t.ctx 1536).ports.flights.getLast?.bind (fun f => f.val.map (·.asScalar))))) = some (0, some 3) ∧ (next (.amoIncwW ⟨0x300, 0x301, 0, 0, 0⟩) (bytes .sp (384 * 2 ^ 24 + 16) 4 2 (own 1 (sregs [(0, 16), (1, 3)])))).map (fun t => (t.readN .sp (384 * 2 ^ 24 + 16) 4, ((t.ctx 1536).ports.flights.getLast?.bind (fun f => f.val.map (·.asScalar))))) = some (3, some 2) := by decide +kernel
theorem test_amo_fadd_w : (next (.amoFaddW ⟨0x300, 0x301, 0, 0, 0⟩) (bytes .sp (384 * 2 ^ 24 + 16) 4 0x3F800000 (own 1 (sregs [(0, 16), (1, 0x3F800000)])))).map (fun t => (t.readN .sp (384 * 2 ^ 24 + 16) 4, ((t.ctx 1536).ports.flights.getLast?.bind (fun f => f.val.map (·.asScalar))))) = some (0x40000000, some 0x3F800000) := by decide +kernel
theorem test_red_add : (next (.redAdd ⟨0x300, 0x301, 0, 0, 0⟩) (bytes .sp (384 * 2 ^ 24 + 16) 4 0xFFFFFFFF (own 1 (sregs [(0, 16), (1, 2)])))).map (fun t => t.readN .sp (384 * 2 ^ 24 + 16) 8) = some 1 ∧ (next (.redAdd ⟨0x300, 0x301, 1, 0, 0⟩) (bytes .sp (384 * 2 ^ 24 + 16) 8 0xFFFFFFFF (own 1 (sregs [(0, 16), (1, 2)])))).map (fun t => t.readN .sp (384 * 2 ^ 24 + 16) 8) = some 0x100000001 := by decide +kernel
theorem test_red_max : (next (.redMax ⟨0x300, 0x301, 0, 0, 0⟩) (bytes .sp (384 * 2 ^ 24 + 16) 4 0xFFFFFFFF (own 1 (sregs [(0, 16), (1, 2)])))).map (fun t => t.readN .sp (384 * 2 ^ 24 + 16) 8) = some 2 := by decide +kernel
theorem test_red_faddh : (next (.redFaddh ⟨0x300, 0x301, 0, 0, 0⟩) (bytes .sp (384 * 2 ^ 24 + 16) 4 0x3C003C00 (own 1 (sregs [(0, 16), (1, 0x3C003C00)])))).map (fun t => t.readN .sp (384 * 2 ^ 24 + 16) 8) = some 0x40004000 := by decide +kernel
theorem test_va_add_wraps : sentVal 0 0 (.vaAdd ⟨0, 0, 2, 0, false, 0, false⟩) (tile 0 (fun _ => 0x7FFF) (tile 2 (fun _ => 1) idle)) = some 0x8000 := by decide +kernel
theorem test_va_add_saturates : sentVal 0 5 (.vaAdd ⟨0, 0, 2, 0, true, 0, false⟩) (tile 0 (fun _ => 0x7FFF) (tile 2 (fun _ => 1) idle)) = some 0x7FFF := by decide +kernel
theorem test_va_add_i8 : sentVal 4 1 (.vaAdd ⟨0, 0, 2, 4, false, 0, false⟩) (tile 0 (fun _ => 0x7F01) (tile 2 (fun _ => 0x0102) idle)) = some 0x80 := by decide +kernel
theorem test_va_mulhr : sentVal 0 0 (.vaMulhr ⟨0, 0, 2, 0, false, 0, false⟩) (tile 0 (fun _ => 0x4000) (tile 2 (fun _ => 0x4000) idle)) = some 0x2000 := by decide +kernel
theorem test_va_mad : sentVal 0 0 (.vaMad ⟨0, 0, 2, 0, false, 0, false⟩) (tile 0 (fun _ => 3) (tile 2 (fun _ => 5) (run (fun x => { x with ports := { x.ports with latch := put x.ports.latch (latchKey 0 3 1) ⟨.tile, tileOf (fun _ => 7), 0⟩ } })))) = some 22 := by decide +kernel
theorem test_va_avg : sentVal 0 0 (.vaAvg ⟨0, 0, 2, 0, false, 0, false⟩) (tile 0 (fun _ => 1) (tile 2 (fun _ => 2) idle)) = some 2  := by decide +kernel
theorem test_va_shlr : sentVal 0 0 (.vaShlr ⟨0, 0, 2, 0, false, 0, false⟩) (tile 0 (fun _ => 3) (tile 2 (fun _ => 1) idle)) = some 2 := by decide +kernel
theorem test_va_cmplt : sentVal 0 0 (.vaCmplt ⟨0, 0, 2, 0, false, 0, false⟩) (tile 0 (fun _ => 0xFFFF) (tile 2 (fun _ => 0) idle)) = some 0xFFFF := by decide +kernel
theorem test_va_clamp : sentVal 0 0 (.vaClamp ⟨0, 0, 2, 0, false, 0, false⟩) (tile 0 (fun _ => 9) (tile 2 (fun _ => 1) (run (fun x => { x with ports := { x.ports with latch := put x.ports.latch (latchKey 0 3 1) ⟨.tile, tileOf (fun _ => 5), 0⟩ } })))) = some 5 := by decide +kernel
theorem test_va_sel : sentVal 0 0 (.vaSel ⟨0, 0, 2, 0, false, 0, false⟩) (tile 0 (fun _ => 7) (tile 2 (fun _ => 9) (run (fun x => { x with ports := { x.ports with latch := put x.ports.latch (latchKey 0 3 1) ⟨.tile, tileOf (fun _ => 0xFFFF), 0⟩ } })))) = some 7 := by decide +kernel
theorem test_va_fshl : sentVal 0 0 (.vaFshl ⟨0, 0, 2, 0, false, 0, false⟩) (tile 0 (fun _ => 0x8001) (tile 2 (fun _ => 0x8000) (run (fun x => { x with ports := { x.ports with latch := put x.ports.latch (latchKey 0 3 1) ⟨.tile, tileOf (fun _ => 1), 0⟩ } })))) = some 3 := by decide +kernel
theorem test_va_fadd : sentVal 2 0 (.vaFadd ⟨0, 0, 2, 2, false, 0, false⟩) (tile 0 (fun _ => 0x3C00) (tile 2 (fun _ => 0x3C00) idle)) = some 0x4000 := by decide +kernel
theorem test_va_fma : sentVal 2 0 (.vaFma ⟨0, 0, 2, 2, false, 0, false⟩) (tile 0 (fun _ => 0x3C00) (tile 2 (fun _ => 0x3C00) (run (fun x => { x with ports := { x.ports with latch := put x.ports.latch (latchKey 0 3 1) ⟨.tile, tileOf (fun _ => 0x3C00), 0⟩ } })))) = some 0x4000 := by decide +kernel
theorem test_va_lut3 : sentVal 0 0 (.vaLut3 ⟨0, 0, 2, 0x96⟩) (tile 0 (fun _ => 0xF0) (tile 2 (fun _ => 0x3C) idle)) = some 0xCC := by decide +kernel
theorem test_va_mulsh : sentVal 0 0 (.vaMulsh ⟨0, 0, 2, 1⟩) (tile 0 (fun _ => 3) (tile 2 (fun _ => 1) idle)) = some 2 := by decide +kernel
theorem test_vp_rotr : sentVal 0 0 (.vpRotr ⟨0, 2, 0, false, 0, false⟩) (tile 0 (fun e => e) (tile 2 (fun _ => 1) idle)) = some 63 := by decide +kernel
theorem test_vp_rotc : sentVal 0 0 (.vpRotc ⟨0, 2, 0, false, 0, false⟩) (tile 0 (fun e => e) (tile 2 (fun _ => 1) idle)) = some 960 := by decide +kernel
theorem test_vp_bccol : sentVal 0 64 (.vpBccol ⟨0, 2, 0, false, 0, false⟩) (tile 0 (fun e => e) (tile 2 (fun _ => 63) idle)) = some 127 := by decide +kernel
theorem test_vp_trn : sentVal 0 1 (.vpTrn ⟨0, 2, 0, false, 0, false⟩) (tile 0 (fun e => e) (tile 2 (fun _ => 0) idle)) = some 64 := by decide +kernel
theorem test_vp_perm : sentVal 0 64 (.vpPerm ⟨0, 2, 0, false, 0, false⟩) (tile 0 (fun e => e) (tile 2 (fun e => 63 - e % 64) idle)) = some 127 := by decide +kernel
theorem test_vp_zip : sentVal 0 1 (.vpZip ⟨0, 2, 0, false, 0, false⟩) (tile 0 (fun e => e) (tile 2 (fun e => 1000 + e) idle)) = some 1000 := by decide +kernel
theorem test_vp_unzip : sentVal 0 33 (.vpUnzip ⟨0, 2, 0, false, 0, false⟩) (tile 0 (fun e => e) (tile 2 (fun e => 1000 + e) idle)) = some 1002 := by decide +kernel
theorem test_vp_shiftr : sentVal 0 0 (.vpShiftr ⟨0, 2, 0, false, 0, false⟩) (tile 0 (fun e => e + 1) (tile 2 (fun _ => 1) idle)) = some 0 := by decide +kernel
theorem test_vp_shiftc : sentVal 0 64 (.vpShiftc ⟨0, 2, 0, false, 0, false⟩) (tile 0 (fun e => e) (tile 2 (fun _ => 1) idle)) = some 0 := by decide +kernel
theorem test_vf_rcp : sentVal 2 0 (.vfRcp ⟨0, 2, 2, false, 0, false⟩) (tile 0 (fun _ => 0x4000) (tile 2 (fun _ => 0x4200) idle)) = some 0x3800 := by decide +kernel
theorem test_vf_sinpi : sentVal 2 0 (.vfSinpi ⟨0, 2, 2, false, 0, false⟩) (tile 0 (fun _ => 0x8000) (tile 2 (fun _ => 0x4200) idle)) = some 0x8000 := by decide +kernel
theorem test_vc_cvt : sentVal 0x3 7 (.vcCvt ⟨0, 2, 0x3, 0x2⟩) (tile 0 (fun _ => 0x3C00) idle) = some 0x3F80  := by decide +kernel
theorem test_vc_unpk10 : sentVal 0 1 (.vcUnpk10 ⟨0, 2, 0, 0⟩) (tile 0 (fun e => if e = 0 then 0xFFFF else 0) idle) = some 63 := by decide +kernel
theorem test_vc_pk10 : sentVal 0 0 (.vcPk10 ⟨0, 2, 0, 8⟩) (tile 0 (fun _ => 0xFFFF) idle) = some 0xFFFF := by decide +kernel
theorem test_vc_swap16 : sentVal 0 9 (.vcSwap16 ⟨0, 2, 0, 0⟩) (tile 0 (fun _ => 0x1234) idle) = some 0x3412 := by decide +kernel

/-! ## Control, system registers, traps -/

theorem test_br : pcOf (.br (2 ^ 24 - 1)) (run (fun x => { x with seq := { x.seq with pc := 0 } })) = some (2 ^ 32 - 1) := by decide +kernel
theorem test_brk : pcOf (.brk 100 0 true) idle = some 25 ∧ pcOf (.brk 100 0 false) idle = some 100 := by decide +kernel
theorem test_call : (next (.call 100) idle).map (fun t => ((t.ctx 1536).seq.pc, (t.ctx 1536).s 62)) = some (100, 25) := by decide +kernel
theorem test_ret : pcOf .ret (sregs [(62, 77)]) = some 77 := by decide +kernel
theorem test_jmp : pcOf (.jmp 0x300 false) (sregs [(0, 2 ^ 32 + 7)]) = some 7 := by decide +kernel
theorem test_loop : (next (.loop 0x300 40 false) (sregs [(0, 3)])).map (fun t => ((t.ctx 1536).seq.pc, (t.ctx 1536).seq.ldepth, (t.ctx 1536).seq.loops.head?)) = some (25, 1, some ⟨3, 0, 25, 40⟩) := by decide +kernel
theorem test_loop_zero : pcOf (.loop 0 40 true) idle = some 40 := by decide +kernel
theorem test_loop_short : trapped (.loop 3 25 true) (handled idle) = some (1, 0x04, 3) := by decide +kernel
theorem test_lbrk_without_level : trapped (.lbrk 1 false false 0) (handled idle) = some (1, 0x13, 0) := by decide +kernel
theorem test_twait : (next (.twait 0x300 true) (sregs [(0, 6)])).map (fun t => (t.ctx 1536).seq.wait) = some (some (.tokens 6 true)) := by decide +kernel
theorem test_twait_complete : (next (.twaitComplete 1536) (waiting (.tokens 6 true))).map (fun t => (t.ctx 1536).seq.wait) = some none := by decide +kernel
theorem test_cwait : trapped (.cwait 0 0 0) (handled (run (fun x => { x with regs := { x.regs with a := wr x.regs.a 0 4 }, win := { x.win with ways := 1 } }))) = some (1, 0x0C, 4) := by decide +kernel
theorem test_cwait_complete : (next (.cwaitComplete 1536) (own 1 (waiting (.counter 0 0)))).map (fun t => (t.ctx 1536).seq.wait) = some none ∧ (next (.cwaitComplete 1536) (own 1 (waiting (.counter 0 1)))).map (fun t => (t.ctx 1536).seq.wait) = some (some (.counter 0 1)) := by decide +kernel
theorem test_fence : pcOf (.fence 3 5) idle = some 25 := by decide +kernel
theorem test_drain : (next .drain idle).map (fun t => (t.ctx 1536).seq.wait) = some (some .drain) ∧ (next (.drainComplete 1536) (waiting .drain)).map (fun t => (t.ctx 1536).seq.wait) = some none := by decide +kernel
theorem test_xfence : (next .xfence idle).map (fun t => (t.ctx 1536).seq.wait) = some (some .xfence) ∧ (next (.xfenceComplete 1536) (waiting .xfence)).map (fun t => (t.ctx 1536).seq.wait) = some none := by decide +kernel
theorem test_ewait : (next .ewait idle).map (fun t => (t.ctx 1536).seq.wait) = some (some .engines) ∧ (next (.ewaitComplete 1536) (waiting .engines)).map (fun t => (t.ctx 1536).seq.wait) = some none := by decide +kernel
theorem test_fsync : (next .fsync idle).map (fun t => (t.ctx 1536).seq.wait) = some (some .fsync) ∧ (next (.fsyncComplete 1536) (waiting .fsync)).map (fun t => (t.ctx 1536).seq.wait) = some none := by decide +kernel
theorem test_sget_mfmt : (next (.sget 0x300 0x000) idle).map (fun t => (t.ctx 1536).s 0) = some 0x22 := by decide +kernel
theorem test_sget_ctxid : (next (.sget 0x300 0x040) idle).map (fun t => (t.ctx 1536).s 0) = some 384 := by decide +kernel
theorem test_sget_unlisted : trapped (.sget 0x300 0x00F) (handled idle) = some (1, 0x03, 0x300F) := by decide +kernel
theorem test_sset_tvec : (next (.sset 0x300 0x020) (sregs [(0, 2 ^ 32 + 0xFFF)])).map (fun t => (t.ctx 1536).traps.tvec) = some 0xFC1 := by decide +kernel
theorem test_sset_read_only : trapped (.sset 0x300 0x040) (handled idle) = some (1, 0x04, 3) := by decide +kernel
theorem test_sset_landing : (next (.sset 0x300 0x050) idle).map (fun t => look 0 (t.ctx 1536).regs.lnd 0) = some 12 := by decide +kernel
theorem test_fmtw : (next (.fmtw 0 0x300) (sregs [(0, 5)])).map (fun t => ((t.ctx 1536).fmts.mfmt, (t.ctx 1536).fmts.shadow)) = some (0x22, [(0, 5, 2)]) := by decide +kernel
theorem test_sget_fpstat : (next (.sgetFpstat 0x300) (run (fun x => { x with fmts := { x.fmts with fpstat := 3 } }))).map (fun t => (t.ctx 1536).s 0) = some 3 := by decide +kernel
theorem test_fpstat_clear : (next (.fpstatClear 0x300) (run (fun x => { (x.setS 0 1) with fmts := { x.fmts with fpstat := 3 } }))).map (fun t => (t.ctx 1536).fmts.fpstat) = some 2 := by decide +kernel
theorem test_sset_vwin : (next (.ssetVwin 0x300) (sregs [(0, 16 + 32 * 2 ^ 16)])).map (fun t => ((t.ctx 1536).win.vbase, (t.ctx 1536).win.vcount)) = some (16, 32) ∧ trapped (.ssetVwin 0x300) (handled (sregs [(0, 1)])) = some (1, 0x04, 3) := by decide +kernel
theorem test_sset_dict : (next (.ssetDict 0x300) (sregs [(0, 5 + 7 * 2 ^ 32)])).map (fun t => ((t.ctx 1536).win.dbase, (t.ctx 1536).win.dsize)) = some (5, 7) := by decide +kernel
theorem test_sset_nreg : trapped (.ssetNreg 0x300) (handled idle) = some (1, 0x04, 3) := by decide +kernel
theorem test_sset_ldepth : (next (.ssetLdepth 0x300) (sregs [(0, 6)])).map (fun t => (t.ctx 1536).seq.ldepth) = some 6 ∧ trapped (.ssetLdepth 0x300) (handled (sregs [(0, 7)])) = some (1, 0x04, 3) := by decide +kernel
theorem test_sset_split : (next (.ssetSplit 0x300) (sregs [(0, 3)])).map (fun t => (t.ctx 1536).seq.wait) = some (some (.split 3)) := by decide +kernel
theorem test_split_convert : (next (.splitConvert 1536) (bytes .sp (384 * 2 ^ 24) 1 9 (waiting (.split 1)))).map (fun t => (t.way 384 0, t.readN .sp (384 * 2 ^ 24) 1, (t.ctx 1536).win.ways)) = some (.owned 1 1536, 0, 1) := by decide +kernel
theorem test_bacq_grant : (next (.bacqGrant 1536) (waiting (.ways 2))).map (fun t => (t.way 384 1, (t.ctx 1536).win.ways)) = some (.owned 1 1536, 2) := by decide +kernel
theorem test_brel : (next (.brel 3) (own 1 idle)).map (fun t => (t.way 384 0, (t.ctx 1536).win.ways)) = some (.released 1 1536, 0) := by decide +kernel
theorem test_gmset : (next (.gmset 1 0) idle).map (fun t => look (0, 0, 0) (t.ctx 1536).regs.gm 1) = some (0, 0, 0) := by decide +kernel
theorem test_tokc : (next (.tokc 0x300) (run (fun x => { (x.setS 0 1) with regs := { (x.setS 0 1).regs with terr := 3 } }))).map (fun t => (t.ctx 1536).regs.terr) = some 2 := by decide +kernel
theorem test_yield : (next .yield idle).map (fun t => (t.ctx 1536).sched.yieldAt) = some (some 0) := by decide +kernel
theorem test_halt : (next .halt idle).map (fun t => (t.ctx 1536).seq.run) = some .halted := by decide +kernel
theorem test_trap : (next (.trap 7) (handled idle)).map (fun t => ((t.ctx 1536).traps.cause1 % 256, (t.ctx 1536).traps.tval1, (t.ctx 1536).traps.epc1, (t.ctx 1536).seq.pc)) = some (0x11, 7, 25, 0x8000 + 64 * 0x11) := by decide +kernel
theorem test_brkp : trapped (.brkp 9) (handled idle) = some (1, 0x12, 9) := by decide +kernel
theorem test_trap_kills : (next (.trap 7) idle).map (fun t => (t.ctx 1536).seq.run) = some .killed := by decide +kernel
theorem test_tret : (next .tret (run (fun x => { x with traps := { x.traps with level := 1, epc1 := 99, base1 := 2 } }))).map (fun t => ((t.ctx 1536).seq.pc, (t.ctx 1536).traps.level, (t.ctx 1536).seq.ldepth)) = some (99, 0, 2) := by decide +kernel
theorem test_tret_level_0 : trapped .tret (handled idle) = some (1, 0x04, 3) := by decide +kernel
theorem test_ppt : pcOf .ppt idle = some 25 := by decide +kernel
theorem test_cwb : (next (.cwb 0 3) (sregs [(3, 64)])).map (fun t => (t.core 384).maint) = some [⟨1, 0, false, 0, 64⟩] := by decide +kernel
theorem test_iinv : (next (.iinv 0 3) (sregs [(3, 64)])).map (fun t => (t.core 384).maint) = some [⟨1, 0, true, 0, 64⟩] := by decide +kernel
theorem test_qpush_forbidden : trapped (.qpush 0 0 true) (handled (own 1 idle)) = some (1, 0x04, 3) := by decide +kernel

/-! ## Engines -/

theorem test_mzero_issue : (next (.mzero ⟨2, 0, false, false, false, false, false, 0, false, 5, 63, 63, 63, 0, 0⟩) idle).map (fun t => ((t.eng 384).mxq.map (fun r => (r.op, r.o.zb)), (t.ctx 1536).tokSet 5, look 0 (t.ctx 1536).ports.zdue 2)) = some ([(6, 2)], false, 136) := by decide +kernel
theorem test_mzero_runs : ((next (.mzero ⟨2, 0, false, false, false, false, false, 0, false, 5, 63, 63, 63, 0, 0⟩) idle).bind (fun t => (next (.matrixEngineStart 384 t.seqno.pred) t).bind (next (.matrixComplete 384 t.seqno.pred)))).map (fun t => ((t.eng 384).mxq, (t.ctx 1536).tokSet 5)) = some ([], true) := by decide +kernel
theorem test_mx_same_token : trapped (.mzero ⟨2, 0, false, false, false, false, false, 0, false, 5, 5, 63, 63, 0, 0⟩) (handled idle) = some (1, 0x04, 1) := by decide +kernel
theorem test_cfill_issue : (next (.cfill ⟨0, 0, 5, 63, 63, 63, false, 0, false, 0⟩) (own 1 idle)).map (fun t => ((t.eng 384).cpq.map (·.op), (t.ctx 1536).tokSet 5)) = some ([9], false) := by decide +kernel
theorem test_named_without_region : trapped (.nput ⟨0, 0, 5, 63, 63, 63, false, 0, false, 0⟩) (handled idle) = some (1, 0x04, 2) := by decide +kernel

/-! ## The Miller and the outside -/

theorem test_queue_enable : (next (.queueEnable 3) (opened idle)).map (fun t => ((t.queue 3).st, (t.queue 3).en)) = some (1, true) ∧ ((next (.queueEnable 3) (opened idle)).bind (next (.queueDisable 3))).map (fun t => (t.queue 3).st) = some 0 := by decide +kernel
theorem test_bar0_qcfg : (next (.bar0Write 0x10008 8 0xFFFFFFFF) (opened idle)).map (fun t => (t.queue 0).qcfg) = some 0x71F := by decide +kernel
theorem test_bar0_lexp : (next (.bar0Write 0x4000 8 0xFFFFFFFFFFFFFFFF) (opened idle)).map (fun t => t.links.lexp) = some 0xFFFFFFFFC00000FF := by decide +kernel
theorem test_boot_stage : (next .bootStage idle).map (fun t => (t.boot.stage, t.boot.err)) = some (1, 0) := by decide +kernel
theorem test_host_write : (next (.hostPostedWrite 0x1000 [1, 2] false) (opened idle)).map (fun t => t.readN .dram 0x1000 4) = some 0x201 := by decide +kernel
theorem test_host_read : (next (.hostRead 0x1000 2) (bytes .dram 0x1000 2 0x201 (opened idle))).map (·.reply) = some [1, 2] := by decide +kernel
theorem test_host_cas : (next (.hostAtomicop 2 0x1000 4 7 5) (bytes .dram 0x1000 4 5 (opened idle))).map (fun t => (t.readN .dram 0x1000 4, t.reply)) = some (7, [5, 0, 0, 0]) := by decide +kernel
theorem test_peer_refused : (next (.peerAccess 0 0 [0]) idle).map (·.reply) = some [] := by decide +kernel
theorem test_snoop : (next (.cxlCacheSnoop 0x40 [9]) idle).map (fun t => t.readN .host 0x40 1) = some 9 := by decide +kernel
theorem test_retrain_end : (next (.retrainEnd 1 40000 true) { idle with links := { idle.links with vlinks := [VLink.reset, { VLink.reset with busy := true }, VLink.reset] } }).map (fun t => ((t.vlink 1).busy, (t.vlink 1).nFail, (t.vlink 1).pause, (t.vlink 1).due)) = some (false, 1, 36000, 150000000) := by decide +kernel
theorem test_counters : (next .powerLimitInterval idle).map (fun t => t.tele.pcapms) = some 1 ∧ (next (.thermalLimitInterval 2) idle).map (fun t => look 0 t.tele.therm 2) = some 1 ∧ (next (.scrubVisit 0x105 2) idle).map (fun t => (t.tele.ue, t.mem.bad, t.tele.ueaddr)) = some (1, [0x100], 2 ^ 63 + 0x100) := by decide +kernel
theorem test_port_trained : (next (.leatPortTrained 3 8) { idle with boot := { idle.boot with active := (List.replicate 10 0) ++ [8, 0] } }).map (fun t => ((t.port 3).lanes, bitAt t.boot.ready 38)) = some (8, true) := by decide +kernel
theorem test_not_resident : (match exec .ctNop State.reset with | .fault .noContext => true | _ => false) = true := by decide +kernel
theorem test_step_runs_the_fetched : (match step (State.reset.withFetchWord 400 0xFFFF) with | .next t => (t.ctx 1536).seq.pc | _ => 0) = 25 := by decide +kernel

end Sys2Proof.Tests
end

