-- ==== Sys2Proof/Tests/Witness.lean ====
section
/-! SUPPORT. Witnesses: for every statement with hypotheses, a state and operands that meet them together, and one for each clause. -/

set_option maxRecDepth 20000
set_option Elab.async false

namespace Sys2Proof.Tests

open Sys2Proof Sys2Proof.Machine

theorem allowed_iff (l : List Part) : Allowed l ↔ l.all (fun k => match k.check with | .ok _ => true | _ => false) = true := by
  simp only [Allowed, List.all_eq_true]
  refine forall₂_congr fun k _ => ?_
  cases k.check <;> simp
theorem dataArrived_iff (x : Ctx) :
    DataArrived x ↔ x.ports.flights.all (fun f => match f.landing with | some l => l.arrived | none => true) = true := by
  simp only [DataArrived, List.all_eq_true]
  refine forall₂_congr fun f _ => ?_
  cases f.landing <;> simp

/-- fpctl 0: a division by zero does not trap. -/
def noDiv : State := run (fun x => { x with fmts := { x.fmts with fpctl := 0 } })
/-- `d` loop levels of three iterations, the innermost of `n` iterations at index `i` and ending after this bundle. -/
def looped (d n i : Nat) : State := run (fun x => { x with seq := { x.seq with
  ldepth := d, loops := ⟨n, i, 0, 25⟩ :: List.replicate 5 ⟨3, 0, 0, 99⟩ } })
/-- One level that goes on beyond this bundle. -/
def deep : State := run (fun x => { x with seq := { x.seq with ldepth := 1, loops := List.replicate 6 ⟨3, 0, 0, 99⟩ } })
/-- a0 holds 1. -/
def off1 : State := (own 1 idle).modCtx 1536 (fun x => { x with regs := { x.regs with a := wr x.regs.a 0 1 } })
/-- Trap level `n`, with a handler base. -/
def atLevel (n : Nat) : State := handled (run (fun x => { x with traps := { x.traps with level := n } }))
/-- A job of priority 0 that may use every region and queue. -/
def someJob : Job := ⟨5, 1, 0, 0, 0, 2 ^ 16 - 1, 2 ^ 64 - 1, 0x4000000, 65536, 0, 0, [], 0, 0, none, 0, 0, none, 1, true⟩
/-- Job 1, that of the context. -/
def jobbed (s : State) : State := { s with miller := { s.miller with jobs := [(1, someJob)] } }
/-- Region 15 installed and granted. -/
def granted : State :=
  let s := jobbed (sregs [(0, 15)])
  { s with miller := { s.miller with regions := [(15, { Region.reset with inst := true })] } }
/-- Pre-emption requested. -/
def asked : State := run (fun x => { x with sched := { x.sched with preempt := some (0, 36000000) } })
/-- Queue 63 device-side with `w` slots held of four, its number in s0, a packet to push at `a`. -/
def pusher (w a : Nat) : State :=
  let s := ((jobbed (own 1 (sregs [(0, 63)]))).modQueue 63 (fun u => { u with qcfg := 16, qbase := 0x100000, qidx := 0x200000 })).writeN .dram 0x200000 4 w
  s.modCtx 1536 (fun x => { x with regs := { x.regs with a := wr x.regs.a 0 a } })
/-- Core mask 1 of die 3 in s0 to s2, and the job placed there. -/
def grouped : State := (sregs [(0, 1), (2, 8)]).modLoaded 1 (fun l => { l with places := [⟨3, 0, 0, 0, 0, 0, 0, 768, 0, 0, 1536⟩] })
/-- Way 0 of core 3.0.1 owned by the job; its address in s0. -/
def shared : State := (sregs [(0, 0x5000000)]).setWay 385 0 (.owned 1 1540)
def pushing : State := pusher 3 0
def filled : State := pusher 4 0
def pushing8 : State := pusher 3 8
/-- The state after an instruction. -/
def done (i : Instr) (s : State) : State := (next i s).getD s

/-- A load on its way to level 1 whose data have not arrived. -/
def unarrived : Flight := ⟨2, 12, 1, 5, 5, some (PVal.scal 1), none, 0, 0, none, 0, some ⟨1, false, false, none, 0⟩⟩
def expecting : State := (atLevel 1).modCtx 1536 (fun x => { x with
  seq := { x.seq with wait := some (.entry 7 8 9 0) }, ports := { x.ports with flights := [unarrived] } })
def entering : State := (atLevel 1).modCtx 1536 (fun x => { x with seq := { x.seq with wait := some (.entry 7 8 9 0) } })

/-- Edges in different bank groups: md0 with base B 0x800000. -/
def edged : State := (own 0xFFFF idle).modCtx 1536 (fun x => { x with regs := { x.regs with md := wr x.regs.md 1 0x800000 } })
/-- Fields of a matrix slot: bank, gather, K − 1. -/
def mo (z : Nat) (g : Bool) (k : Nat) : MxOps := ⟨z, 0, false, false, false, false, g, 0, false, 5, 63, 63, 63, k, 0⟩
/-- The matrix instruction queued, and running. -/
def mxQueued (i : Instr) : State := done i edged
def mxRunning (i : Instr) : State := startMx (mxQueued i) 384 0
/-- The head of the matrix queue of core 3.0.0. -/
def mxHead (s : State) : MxRun :=
  (s.eng 384).mxq.headD ⟨⟨0, 0, 0, 0, 0, none, 0, .queued, false⟩, 0, mo 0 false 0, [], 0, 0, 0, none, none, none, [], false, false, false, []⟩
/-- Fields of a copy slot with pattern and counter 0, method `m`. -/
def co (m : Nat) : CpOps := ⟨0, 0, 5, 63, 63, 63, false, 0, false, m⟩
/-- Core 3.0.0's context with every way, its pattern 0 having the words given. -/
def patterned (l : List (Nat × Nat)) : State := (own 0xFFFF idle).modCtx 1536 (fun x => { x with regs := { x.regs with
  cp := l.foldl (fun f p => wr f p.1 p.2) x.regs.cp } })
/-- A pattern of one element of 8 bytes from 0x100000 to 0x100. -/
def copying : State := patterned [(0, 0x100000), (1, 0x100), (2, 3)]
def cpQueuedIn (s : State) (i : Instr) : State := done i s
def cpQueued (i : Instr) : State := cpQueuedIn copying i
def cpRunningIn (s : State) (i : Instr) : State := startCp (cpQueuedIn s i) 384 0
def cpRunning (i : Instr) : State := cpRunningIn copying i
/-- The head of the copy queue of core 3.0.0. -/
def cpHead (s : State) : CpRun :=
  (s.eng 384).cpq.headD ⟨⟨0, 0, 0, 0, 0, none, 0, .queued, false⟩, 9, co 0, [], 0, 0, 0, 0, 0, 0, [], false, none, [], [], [], [], 0, 0, [], 0, [], 0⟩
/-- The head of the copy queue changed. -/
def modHead (s : State) (f : CpRun → CpRun) : State := s.modEng 384 (fun e => { e with cpq := e.cpq.map f })

/-- Increments of both edges and a step tag. -/
def moving : MxOps := ⟨0, 0, false, false, false, true, false, 0, true, 5, 63, 63, 63, 0, 0⟩
/-- The edges of md0 increment o1 and o2. -/
def stepping : State := edged.modCtx 1536 (fun x => { x with regs := { x.regs with md := wr (wr x.regs.md 0 (0xFFFF * 2 ^ 48)) 3 (2 ^ 48 + 2 * 2 ^ 52 + 3 * 2 ^ 56) } })

/-- A correction vector of 9s in the cache, for the edge that B is. -/
def cached : State := (mxQueued (.mstep (mo 0 false 0))).modEng 384 (fun e => { e with
  corr := [(mxHead (mxQueued (.mstep (mo 0 false 0)))).edgeB.corr none (mxHead (mxQueued (.mstep (mo 0 false 0)))).iss (List.replicate 128 9)] })
def hitting : State := startMx cached 384 0
/-- A stationary operand of the context; a `mstep.ws` running. -/
def stationed : State := startMx (done (.mstepWs (mo 0 false 0)) (edged.modEng 384 (fun e => { e with
  stat := some ⟨1536, 1, 2, false, List.replicate 128 zeroLane, List.replicate 128 0, false⟩ }))) 384 0
/-- A `mcorr` that also writes the record (cmode 2) at 0. -/
def recording : State := mxRunning (.mcorr ⟨1, 0, false, false, false, false, false, 2, false, 5, 63, 63, 63, 0, 0⟩)
/-- mfmt naming the twin-shift format for A and B. -/
def twinned : State := edged.modCtx 1536 (fun x => { x with fmts := { x.fmts with mfmt := 0xC2 }, regs := { x.regs with md := wr (wr x.regs.md 1 (0x800000 + 2 ^ 47)) 2 (0x810000 * 2 ^ 24) } })
def twinning (i : Instr) : State := startMx (done i twinned) 384 0
/-- Two steps into bank 0 that both run. -/
def behindMx : State := (done (.mstep ⟨0, 0, false, false, false, false, false, 0, false, 6, 63, 63, 63, 0, 0⟩) (mxRunning (.mstep (mo 0 false 0)))).modEng 384 (fun e =>
  { e with mxq := e.mxq.map (fun r => { r with iss := { r.iss with stage := .running } }) })
/-- The same with a token-in in error. -/
def poisonedMx : State := startMx ((done (.mzero ⟨2, 0, false, false, false, false, false, 0, false, 6, 5, 63, 63, 0, 0⟩) edged).modCtx 1536
  (fun x => { x with regs := { x.regs with terr := 2 ^ 5 } })) 384 0

/-- A transform of one f16 to one bf16, nearest even and stochastic. -/
def converting : State := patterned [(0, 0x100000), (1, 0x100), (2, 1), (3, 0x3200)]
def drawing : State := converting.modCtx 1536 (fun x => { x with fmts := { x.fmts with cvtctl := 2 ^ 32 + 4 * 2 ^ 4 } })
/-- A job of priority 0 that may use every region, with region 0 as given, and pattern words. -/
def namedWith (g : Region) (l : List (Nat × Nat)) : State := (let s := jobbed (patterned l); { s with miller := { s.miller with regions := [(0, g)] } })
/-- A region with one line of name 256 (a leaf) or of a node, counted `n`. -/
def lined (n : Nat) : Region := { Region.reset with inst := true, hwidth := 8, tentries := 4096, hsize := 2 ^ 20, lines := [⟨1, false, 0, 5, n, false⟩] }
/-- Region 0 installed, the context's ways all owned, a pattern of aligned addresses. -/
def named : State := namedWith { Region.reset with inst := true, tentries := 4096, hsize := 2 ^ 20, hwidth := 8 } [(0, 0x100000), (1, 0x10000)]
/-- A named-line instruction running over lines or names at 0x100000, `v` of `n` bytes there and `u` at 0x10000. -/
def naming (i : Instr) (g : Region) (l : List (Nat × Nat)) (n v m u : Nat) : State :=
  startCp (((done i (namedWith g ([(0, 0x100000), (1, 0x10000)] ++ l))).writeN .sp (384 * 2 ^ 24 + 0x100000) n v).writeN .sp (384 * 2 ^ 24 + 0x10000) m u) 384 0
/-- A Flume copy running. -/
def expanding : State := cpRunningIn copying (.cpyf (co 1))
/-- The same with its stream at an end: the bytes of the element have come. -/
def expanded : State := modHead expanding (fun r => { r with ended := true, data := List.replicate 8 7 })
/-- A storage handle of 512-byte blocks configured. -/
def handled0 (s : State) : State := { s with links := { s.links with handles := [(2, 2 ^ 63)] } }
/-- `sread` of one block to `n` elements of 2^es bytes, its command done. -/
def staging (m es n : Nat) : State :=
  let s := startCp (done (.sread (co m)) (handled0 (patterned [(1, 0x100), (2, es), (4, n - 1), (6, 2 ^ es)]))) 384 0
  { s with links := { s.links with nvme := s.links.nvme.map (fun c => { c with done := true, data := List.replicate 512 7 }) } }
def inflated : State := modHead (staging 1 3 1) (fun r => { r with ended := true, data := List.replicate 8 7 })
/-- A `swrite` of 32 elements of 16 bytes, queued, and running with its command done. -/
def writing : State := done (.swrite (co 0)) (handled0 (patterned [(1, 0x100), (2, 4), (4, 31), (6, 16)]))
def written : State :=
  let s := startCp writing 384 0
  { s with links := { s.links with nvme := s.links.nvme.map (fun c => { c with done := true }) } }
/-- A copy from a page that does not translate. -/
def unmapped : State := cpRunningIn (patterned [(0, 0x20000000), (1, 0x100), (2, 3)]) (.cpy (co 0))
/-- A load-block of one line of page 0x20000000, way 0 alone being owned; the core full of load-blocks or not. -/
def blocking (n : Nat) : State :=
  (startCp (done (.lblk (co 0)) ((own 1 (page pteDram (run (fun x => { x with regs := { x.regs with cp := wr x.regs.cp 0 0x20000000 } })))))) 384 0).modCore 384
    (fun c => { c with blocks := List.replicate n ⟨0, 1, 0, [1]⟩ })

def reading : State := done (.sread (co 0)) (handled0 copying)
def rooted : State := done (.nout (co 0)) named

/-- Eight copies running and one queued. -/
def busyCopies : State := copying.modEng 384 (fun e => { e with cpq := (List.range 9).map (fun n =>
  { cpHead idle with iss := ⟨1536, 1, 0, n, 0, none, 0, if n < 8 then .running else .queued, false⟩ }) })
def poisonedCp : State := startCp ((cpQueued (.cfill ⟨0, 0, 6, 5, 63, 63, false, 0, false, 0⟩)).modCtx 1536
  (fun x => { x with regs := { x.regs with terr := 2 ^ 5 } })) 384 0

/-- A fill with a counter at 0x200. -/
def counting : State := cpRunningIn (copying.modCtx 1536 (fun x => { x with regs := { x.regs with a := wr x.regs.a 0 0x200 } })) (.cfill (co 0))

/-- A leaf region that allows one line and holds line 7 under its name. -/
def holding (t : Nat) : Region := { lined 1 with tentries := t, lines := [⟨lineHash 0 8 false 7, false, 0, 7, 1, false⟩] }
/-- Every ordinal of the bucket of leaf 8 freed and not yet released. -/
def bucketed : Region := { lined 1 with freeing := (List.range 128).map (fun i => (lineHash 0 8 false 8, false, i)) }
def nputOf (g : Region) (node line : Nat) : State := naming (.nput (co 0)) g [(3, node)] 128 line 16 0
def ngetOf (v : Nat) : State := naming (.nget (co 0)) (lined 1) [] 16 v 16 0
def nrefOf (v : Nat) : State := naming (.nref (co 0)) (lined 1) [] 16 v 16 0
def nrelOf (v : Nat) : State := naming (.nrel (co 0)) (lined 1) [] 16 v 16 0
def nswapOf (expected new : Nat) : State := naming (.nswap (co 0)) (lined 1) [] 32 3 64 (expected + 2 ^ 256 * new)
def noutOf (v : Nat) : State := naming (.nout (co 0)) (lined 1) [] 16 v 16 0
def nstatOf (v : Nat) : State := naming (.nstat (co 0)) (lined 1) [] 16 v 16 0

/-- The instruction `i` as the one literal of the context's segment. -/
def literal (i : Instr) : State := State.reset.withFetchWord 400 (ofWords16 (encode i))
/-- The machine with context 1536 changed. -/
def with' (s : State) (f : Ctx → Ctx) : State := s.modCtx 1536 f
/-- A result of sa that may land, and a landing access. -/
def result : Flight := ⟨0, 2, 0, 0, 2, some (PVal.scal 1), none, 0, 0, none, 0, none⟩
def landing (v : Option PVal) (hi : Nat) (a : Bool) : Flight := ⟨2, 12, 0, hi, hi, v, none, 0, 0, none, 0, some ⟨1, a, true, none, 0⟩⟩
def flying (l : List Flight) : State := run (fun x => { x with ports := { x.ports with flights := l } })
/-- The same, stalled. -/
def frozen (l : List Flight) : State := run (fun x => { x with ports := { x.ports with flights := l }, sched := { x.sched with stall := some (0, 64) } })

/-- A region that holds line 7. -/
def hashed (t : Nat) (f : List (Nat × Bool × Nat)) : Region :=
  { Region.reset with hwidth := 8, tentries := t, hsize := 512, lines := [⟨lineHash 0 8 false 7, false, 0, 7, 1, false⟩], freeing := f }

def late : State := run (fun x => { x with seq := { x.seq with wake := 3 } })
def pending : State := run (fun x => { x with seq := { x.seq with pend := some ⟨0x0F, 5⟩ } })
def fpPending : State := run (fun x => { x with seq := { x.seq with fpx := some 7 } })
def ended : State := run (fun x => { x with seq := { x.seq with pc := 25 } })
def fpEnded : State := run (fun x => { x with seq := { x.seq with pc := 25, fpx := some 7 } })
def uncached : State := idle.modCore 384 (fun c => { c with icache := [] })
/-- A literal whose control slot is illegal, one that traps, one that stalls. -/
def illegal : State := State.reset.withFetchWord 400 (0xFFFF + 2 ^ 16 * 2 ^ (slotPlace 3).1)
def trapping : State := literal .tret
def stalling : State := (literal (.saMov ⟨0x386, 0x386, false, false, 0⟩)).modCore 384 (fun c => { c with units := [(0, (9, 1537))] })

/-- A wait for a token of a queued instruction. -/
def tokenless : State := (mxQueued (.mzero (mo 0 false 0))).modCtx 1536 (fun x => { x with seq := { x.seq with wait := some (.tokens (2 ^ 5) false) } })
def engined : State := (mxQueued (.mzero (mo 0 false 0))).modCtx 1536 (fun x => { x with seq := { x.seq with wait := some .engines } })
def xcopied : State := (cpQueued (.xcpy (co 0))).modCtx 1536 (fun x => { x with seq := { x.seq with wait := some .xfence } })
def draining : State := (flying [landing none 9 false]).modCtx 1536 (fun x => { x with seq := { x.seq with wait := some .drain } })
def pushWait (n : Nat) : State := (pusher n 0).modCtx 1536 (fun x => { x with seq := { x.seq with wait := some (.push 63 5) } })

def taken : State := (waiting (.ways 0xFFFF)).setWay 384 15 (.owned 2 1537)
/-- A weir wait of group 0, whose one place is the context, arrived or not. -/
def weired (step arrived : Bool) : State := ((waiting (.weir 0 4 step false arrived)).modLoaded 1 (fun l => { l with places := [⟨3, 0, 0, 0, 0, 0, 0, 768, 0, 0, 1536⟩] })).modCtx 1536
  (fun x => { x with regs := { x.regs with gm := [(0, (1, 8, 0))] }, sched := { x.sched with arrivals := if arrived then [(0, 4)] else [] } })
/-- Not all have arrived. -/
def alone : State := (weired false true).modCtx 1536 (fun x => { x with sched := { x.sched with arrivals := [(0, 3)] } })
/-- An engine instruction of the superstep is still to complete. -/
def tagged : State := (weired true true).modEng 384 (fun e => { e with cpq := [⟨⟨1536, 1, 0, 0, 0, some 0, 0, .queued, false⟩, 9, co 0, [], 0, 0, 0, 0, 0, 0, [], false, none, [], [], [], [], 0, 0, [], 0, [], 0⟩] })

def stalled (n : Nat) : State := { run (fun x => { x with sched := { x.sched with stall := some (0, n) } }) with clock := 64 }
def yielded (n : Nat) : State := { run (fun x => { x with sched := { x.sched with yieldAt := some n } }) with clock := 64 }
def starving (n : Nat) : State := { idle with clock := n }
/-- A page walk and a dictionary refill under way; an executable page at 0x10000000 whose segment is not cached. -/
def fetching : State :=
  let s := idle.modCore 384 (fun c => { c with dict := [(3, ⟨0, 0x10000000, 0, 0, 1, false, ⟨0, 0x1000, 2, false⟩, ⟨0, 0x1000, 2, false⟩⟩)] })
  { s with fetches := [(384, [.walk 0 0x10000 0x2000, .refill 1536 3])], dies := [(3, { walks := [.walk 0 0x10000 0x2000], tables := [], tlbs := [] })] }
/-- 257 walks of die 3, the last of them without a walker. -/
def crowded : State := { idle with fetches := [(384, (List.range 257).map (fun n => .walk 0 0x10000 n))], dies := [(3, { walks := (List.range 257).map (fun n => .walk 0 0x10000 n), tables := [], tlbs := [] })] }

/-- The job's page table: 0x10000000 is an executable page at DRAM 0, whose first word is 5; nothing is cached. -/
def coded : State :=
  let s := bytes .dram 0 2 5 (bytes .dram 0x100000 8 0x110003 (bytes .dram 0x110000 8 0x120003 (bytes .dram 0x128000 8 (2 ^ 11 + 2 ^ 4 + 2 ^ 2 + 1) uncached)))
  { (s.modCore 384 (fun c => { c with dict := [(3, ⟨0, 0x10000000, 0, 0, 1, false, ⟨0, 0x1000, 2, false⟩, ⟨0, 0x1000, 2, false⟩⟩)] })) with
    fetches := [(384, [.refill 1536 3])], miller := { s.miller with jobs := [(1, { someJob with root := 0x100000 })] } }

/-- The device past boot stage 6, with nothing bound. -/
def dev : State := { State.reset with boot := { State.reset.boot with stage := 6 } }
/-- A packet of type `t` and `n` slots with bytes at offsets. -/
def pkt (t n : Nat) (l : List (Nat × Nat)) : Nat := t + 256 * (n - 1) + (l.map (fun p => p.2 * 2 ^ (8 * p.1))).sum
/-- Packet `p` of `n` slots at the head of queue 3 of `s`, validated when `v`. -/
def post (s : State) (n p : Nat) (v : Bool) : State :=
  ((s.modQueue 3 (fun u => { u with qbase := 0x100000, qidx := 0x200000, st := 1, en := true, valid := if v then some 0 else none })).writeN .dram 0x100000 192 p).writeN .dram 0x200000 4 n
def posted (n p : Nat) : State := post dev n p true
/-- A packet taken, with a status; a node of it. -/
def took (t : Nat) (st : Option (Nat × Nat)) (p : Nat) (s : State) : State := { s with miller := { s.miller with count := t, taken := [⟨t, 3, 0, p, none, none, st⟩] } }
def noded (work c : Nat) (w : Nat) : State :=
  (took 1 none (pkt 4 2 []) (bytes .dram 0x300000 64 w dev)).setNode 7 ⟨c, true, 3, 1, [], work, none, false⟩
/-- Job 1 in state `st`, the device idle. -/
def jobAt (st : Nat) : State := { dev with miller := { dev.miller with jobs := [(1, { someJob with st := st })] } }

def command : Nvme := ⟨4, 384, 0, 0, 2, 0, 1, [], some 0, [], some 0, false⟩
def storing (c : Nat) : State := { idle with clock := c, links := { idle.links with nvme := [command] } }
/-- A saved context of a pre-empted job, its place free or no die a compute die. -/
def savedJob (m : Nat) : State :=
  let s := (jobAt 2).modLoaded 1 (fun l => { l with places := [⟨0, 0, 0, 0, 0, 0, 0, 0, 0, 0, 1536⟩], saved := [⟨0, Ctx.reset, [], [], none, 384, []⟩] })
  { s with boot := { s.boot with cmask := m, ready := 8 } }
/-- Pre-emption asked with a deadline, the clock at `c`. -/
def deadline (c : Nat) : State := { asked with clock := c }
def saving (c : Nat) : State := (deadline c).modCtx 1536 (fun x => { x with seq := { x.seq with wait := some (.save 36000000) } })

/-- A good region descriptor at 0x700000. -/
def described : State := bytes .dram 0x700010 8 0x1000000 (bytes .dram 0x700018 8 0x100000 (bytes .dram 0x700020 8 0x2000000 (bytes .dram 0x700028 5 (4096 + 8 * 2 ^ 32) dev)))
def asking (s : State) : State := { s with miller := { s.miller with regions := [(2, { Region.reset with desc := 0x700000 })] } }
def installed (req : Bool) : State := { dev with miller := { dev.miller with regions := [(2, { Region.reset with inst := true, req := req })] } }

/-- Two compute dies configured; a ROLE to `m`, its status word at `a`. -/
def roled (m a : Nat) : State := post { dev with boot := { dev.boot with cmask := 8 } } 2 (pkt 7 2 [(0x40, m), (0x48, a)]) true
def changing (phase clock : Nat) : State := { dev with clock := clock, boot := { dev.boot with cmask := 8, chg := some ⟨12, 0, 5, 0x800000, 0, phase, 1⟩ } }
/-- A context on die 2, which the change affects. -/
def bound2 (s : State) : State := s.modCtx 1024 (fun x => { x with seq := { x.seq with run := .resident } })
def bootAt (n : Nat) : State := { State.reset with boot := { State.reset.boot with stage := n } }
def link (v : VLink) (c : Nat) : State := { bootAt 4 with clock := c, links := { State.reset.links with vlinks := [v, { VLink.reset with due := 2 ^ 40 }, { VLink.reset with due := 2 ^ 40 }] } }
def lanes8 : State := { dev with links := { dev.links with ports := [(3, ⟨8, 0, 0, 0⟩)] }, boot := { dev.boot with active := List.replicate 10 0 ++ [8, 0] } }

/-- A context waits in `drain`. -/
def drainingLink : State := { link VLink.reset 0 with ctxs := (waiting .drain).ctxs }

/-- A window of 1 GiB exported from 0. -/
def exporting : State := { dev with links := { dev.links with lexp := 1 } }

/-- f16 tiles: a signalling NaN at element 0 and 1 elsewhere; quiet NaNs; a quiet NaN beside ones. -/
def signals : State := tile 0 (fun e => if e = 0 then 0x7D00 else 0x3C00) idle
def quiets : State := tile 0 (fun _ => 0x7E00) idle
def mixes : State := tile 0 (fun e => if e % 2 = 0 then 0x7E00 else 0x3C00) idle

/-- s0 names way 0, which another context owns, or which holds a locked line. -/
def splitForeign : State := (sregs [(0, 1)]).setWay 384 0 (.owned 1 1537)
def splitBusy : State := (sregs [(0, 1)]).modCore 384 (fun c => { c with blocks := [⟨0x20000000, 1, 1, [0]⟩] })

/-- Flag-raising operations due at 5, a landing access due at 3 before them. -/
def flagged (arrived : Bool) : State := run (fun x => { x with ports := { x.ports with flagDue := 5, flights := [⟨2, 12, 0, 3, 3, some (PVal.scal 1), none, 0, 0, none, 0, some ⟨1, arrived, false, none, 0⟩⟩] } })

/-- Both edges of md0 increment the same o register. -/
def clashing : State := edged.modCtx 1536 (fun x => { x with regs := { x.regs with md := wr x.regs.md 3 (2 ^ 48 + 2 ^ 52 + 3 * 2 ^ 56) } })

/-- A queued `mzero` whose token-in t5 is in error. -/
def tokenBad : State := (done (.mzero ⟨2, 0, false, false, false, false, false, 0, false, 6, 5, 63, 63, 0, 0⟩) edged).modCtx 1536
  (fun x => { x with regs := { x.regs with terr := 2 ^ 5 } })

/-- The first piece that B is read from has an uncorrectable error. -/
def unsound (i : Instr) : State := (mxRunning i).modMem (fun m => { m with badSp := [384 * 2 ^ 24 + 0x800000] })
/-- The matrix instruction has fed already. -/
def fedRun (i : Instr) : State := (mxRunning i).modEng 384 (fun e => { e with mxq := e.mxq.map (fun r => { r with fed := true }) })

/-- Page 0x20000000 is host memory, and every vertical interface pauses. -/
def acrossPaused (s : State) : State := (let t := page pteHost s; { t with links := { t.links with vlinks := List.replicate 3 { VLink.reset with busy := true } } })
/-- A `nout` whose root is on that page; a Flume copy from it. -/
def rootedAcross : State := acrossPaused (done (.nout (co 0)) (namedWith { Region.reset with inst := true, tentries := 4096, hsize := 2 ^ 20, hwidth := 8 } [(0, 0x100000), (1, 0x20000000)]))
def expandingAcross : State := acrossPaused (cpRunningIn (patterned [(0, 0x20000000), (1, 0x100), (2, 3)]) (.cpyf (co 1)))

/-- An `eblk` of a load-block that holds a dirty line. -/
def unblocking : State := ((cpRunningIn ((page pteDram (patterned [(0, 0x20000000)]))) (.eblk (co 0))).modCore 384 (fun c => { c with blocks := [⟨0x20000000, 1, 0, [0]⟩] }))

/-- The line 7 of that region with an uncorrectable error. -/
def spoilt : Region := { hashed 1 [] with lines := (hashed 1 []).lines.map (fun l => { l with bad := true }) }

/-- The segment's first word names dictionary entry 3, which is invalid. -/
def refilling : State := ((State.reset.withFetchWord 400 3).modCtx 1536 (fun x => { x with win := { x.win with dsize := 4 } })).modCore 384 (fun c => { c with
  dict := [(3, ⟨0, 0x10000000, 0, 0, 1, false, ⟨0, 0x1000, 2, false⟩, ⟨0, 0x1000, 2, false⟩⟩)] })

/-- The same with a request for pre-emption, the boundary being a point. -/
def stopping (w : Wait) : State := (waiting w).modCtx 1536 (fun x => { x with seq := { x.seq with point := true }, sched := { x.sched with preempt := some (0, 36000000) } })
/-- One write of an own `xcpy` that is still to become visible. -/
def loosened : State := (waiting .xfence).modMem (fun m => { m with loose := [⟨1, 0, 9, ⟨0, 0, 2, false⟩, 0x100, 1, 384 * 2 ^ 24 + 0x100, 8, 7⟩] })
/-- A `cwb` and an `iinv` of the context still to perform. -/
def maintaining : State := (waiting .fsync).modCore 384 (fun c => { c with maint := [⟨1, 0, false, 0x20000000, 64⟩, ⟨1, 0, true, 0x20000000, 64⟩] })

/-- Bytes that an `xcpy` of the context, and an acquire of it, left in way 0. -/
def freshened (w : Wait) : State := (own 1 (waiting w)).modCore 384 (fun c => { c with fresh := [⟨1, 0, 0, 0, [5], [5], 0, false, [(0, 8)]⟩] })
/-- A counter on a host page that is reached across pausing interfaces; one on a page whose A is clear, or set. -/
def watchAcross : State := acrossPaused (waiting (.counter 0x20000000 1))
def watchPage (pte : Nat) : State := page pte (waiting (.counter 0x20000000 0))

def owning : State := own 0xFFFF (waiting (.ways 0xFFFF))
/-- A weir wait behind the wait of a `drain` in the same bundle; a request beside a weir that is a point; a weir across a vertical
interface that pauses. -/
def both : State := (weired false true).modCtx 1536 (fun x => { x with seq := { x.seq with wait := some .drain, behind := some (.weir 0 4 false false true) } })
def weirStopped : State := (weired false true).modCtx 1536 (fun x => { x with seq := { x.seq with wait := some (.weir 0 4 false true true), point := true }, sched := { x.sched with preempt := some (0, 36000000) } })

/-- The other participant is on die 2, and the interface between d2 and d3 pauses. -/
def weirPaused : State :=
  let s := (weired false true).modLoaded 1 (fun l => { l with places := [⟨3, 0, 0, 0, 0, 0, 0, 768, 0, 0, 1536⟩, ⟨2, 0, 0, 0, 0, 0, 0, 768, 0, 0, 1024⟩] })
  let t := (s.modCtx 1536 (fun x => { x with regs := { x.regs with gm := [(0, (1, 12, 0))] } })).modCtx 1024 (fun x => { x with
    seq := { x.seq with run := .resident }, sched := { x.sched with job := 1, place := 1, arrivals := [(0, 4)] } })
  { t with links := { t.links with vlinks := [VLink.reset, VLink.reset, { VLink.reset with busy := true }] } }

/-- An atomic sent to the host as an AtomicOp. -/
def asked1 : Flight := ⟨2, 12, 0, 9, 9, some (PVal.scal 1), none, 0, 0, none, 0, some ⟨1, false, true, some 0x100, 0⟩⟩
/-- A read of fpstat that waits, one landing access or two being without data. -/
def fpWaiting (n : Nat) : State := (flying [landing (some (PVal.scal 1)) 9 false]).modCtx 1536 (fun x => { x with seq := { x.seq with wait := some (.fpstat 0x300 n) } })
def fpWaiting2 : State := (flying [landing (some (PVal.scal 1)) 9 false, landing (some (PVal.scal 1)) 9 false]).modCtx 1536 (fun x => { x with seq := { x.seq with wait := some (.fpstat 0x300 9) } })

/-- A walk of the page 0x20000000. -/
def mapped : State := { page pteDram idle with fetches := [(384, [.walk 0 0 0x2000])], dies := [(3, { walks := [.walk 0 0 0x2000], tables := [], tlbs := [] })] }

/-- A LAUNCH with region field `v`, from no job. -/
def launching (v : Nat) : State := posted 3 (pkt 1 3 [(0x52, v), (0x54, 1)])

/-- A plain copy under way: `n` bytes from `a` to 0x300100, its vertical interface pausing or not. -/
def aCopy (a : Nat) : MillerCopy := ⟨1, none, 0, a, 0x300100, 64, false, [(0, 64)], [], 0, 0, 0, true, [], none⟩
def copyPkt : Nat := pkt 5 2 []
def copyingFrom (a : Nat) (s : State) : State :=
  let t := took 1 none copyPkt s
  { t with miller := { t.miller with copies := [aCopy a] } }
def pausing : State := { dev with links := { dev.links with vlinks := List.replicate 3 { VLink.reset with busy := true } } }

/-- A full point at stage `g`, `next` of its `stripes` sent. -/
def aPoint (g next st : Nat) : Snap := ⟨1, 0, 0, 0, 0x500000, 0, fullBytes, fullBytes, next, 0, [], [], g, st, 0, 0, 0, 0, 0, 0⟩
def snapping (g next st : Nat) : State := { dev with miller := { dev.miller with snap := some (aPoint g next st) } }

/-- Boot stage 4 with compute mask `m` in the active configuration. -/
def configured (m : Nat) : State := { bootAt 4 with boot := { (bootAt 4).boot with active := List.replicate 6 0 ++ [m, 0] } }

theorem wit_ScalarArithmetic :
    CanIssue idle ∧
    UnitFree idle 0 ∧
    Readable idle 0x33F .scalar ∧
    OperandOk idle 0xFFF .scalar ∧
    OperandOk idle 0x33F .scalar := by
  simp only [CanIssue, UnitFree, Readable, OperandOk]
  decide +kernel

theorem wit_ScalarBitFields :
    CanIssue idle ∧
    UnitFree idle 0 ∧
    Readable idle 0x300 .scalar ∧
    OperandOk idle 0x35F .scalar ∧
    (⟨0x300, 0x35F, false, false, 15⟩ : SaOps).wc = false := by
  simp only [CanIssue, UnitFree, Readable, OperandOk]
  decide +kernel

theorem wit_ScalarDivision_runs :
    CanIssue (sregs [(1, 1)]) ∧
    UnitFree (sregs [(1, 1)]) 0 ∧
    Readable (sregs [(1, 1)]) 0x300 .scalar ∧
    OperandOk (sregs [(1, 1)]) 0x301 .scalar ∧
    BitVec.ofNat 32 (operandOf (sregs [(1, 1)]) 0 0x301 .scalar).asScalar ≠ 0 := by
  simp only [CanIssue, UnitFree, Readable, OperandOk]
  decide +kernel

theorem wit_ScalarDivision_returns_ones :
    CanIssue noDiv ∧
    UnitFree noDiv 0 ∧
    Readable noDiv 0x300 .scalar ∧
    OperandOk noDiv 0x301 .scalar ∧
    bitAt (me noDiv).fmts.fpctl 5 = false := by
  simp only [CanIssue, UnitFree, Readable, OperandOk]
  decide +kernel

theorem wit_ScalarDivision_traps :
    CanIssue (sregs [(1, 2 ^ 32)]) ∧
    UnitFree (sregs [(1, 2 ^ 32)]) 0 ∧
    Readable (sregs [(1, 2 ^ 32)]) 0x300 .scalar ∧
    OperandOk (sregs [(1, 2 ^ 32)]) 0x301 .scalar ∧
    BitVec.ofNat 32 (operandOf (sregs [(1, 2 ^ 32)]) 0 0x301 .scalar).asScalar = 0 ∧
    bitAt (me (sregs [(1, 2 ^ 32)])).fmts.fpctl 5 = true := by
  simp only [CanIssue, UnitFree, Readable, OperandOk]
  decide +kernel

theorem wit_ScalarFloat :
    CanIssue (sregs [(1, 0xED)]) ∧
    UnitFree (sregs [(1, 0xED)]) 0 ∧
    Readable (sregs [(1, 0xED)]) 0x300 .scalar ∧
    OperandOk (sregs [(1, 0xED)]) 0x301 .scalar ∧
    (operandOf (sregs [(1, 0xED)]) 0 0x301 .scalar).asScalar / 16 % 16 ∈ [0xD, 2, 3, 0xE, 0xF, 0, 1] ∧
    (operandOf (sregs [(1, 0xED)]) 0 0x301 .scalar).asScalar % 16 ∈ [0xD, 2, 3, 0xE, 0xF, 0, 1] := by
  simp only [CanIssue, UnitFree, Readable, OperandOk]
  decide +kernel

theorem wit_AddressUnit :
    CanIssue (sregs [(0, 3), (1, 4)]) ∧
    UnitFree (sregs [(0, 3), (1, 4)]) 1 ∧
    Readable (sregs [(0, 3), (1, 4)]) 0x300 .scalar ∧
    OperandOk (sregs [(0, 3), (1, 4)]) 0x301 .scalar ∧
    (valueOf (sregs [(0, 3), (1, 4)]) 0x300 .scalar).asScalar < (operandOf (sregs [(0, 3), (1, 4)]) 1 0x301 .scalar).asScalar ∧
    (5 : Nat) < 6 := by
  simp only [CanIssue, UnitFree, Readable, OperandOk]
  decide +kernel

theorem wit_AddressUnit_bound :
    CanIssue (sregs [(0, 4), (1, 4)]) ∧
    UnitFree (sregs [(0, 4), (1, 4)]) 1 ∧
    Readable (sregs [(0, 4), (1, 4)]) 0x300 .scalar ∧
    OperandOk (sregs [(0, 4), (1, 4)]) 0x301 .scalar ∧
    (operandOf (sregs [(0, 4), (1, 4)]) 1 0x301 .scalar).asScalar ≤ (valueOf (sregs [(0, 4), (1, 4)]) 0x300 .scalar).asScalar := by
  simp only [CanIssue, UnitFree, Readable, OperandOk]
  decide +kernel

theorem wit_CopyMoves :
    CanIssue idle ∧
    Readable idle 0x33F .any ∧
    (∀ d ∈ [0x000, 0x2FF, 0x300, 0x33F, 0x35F, 0x36F, 0x400, 0x41D, 0x500, 0x53F, 0x600, 0x77F], (begun idle).destCands 1536 d ((begun idle).readsPair 1536 0x33F) = []) := by
  simp only [CanIssue, Readable]
  decide +kernel

theorem wit_CopyMoves_of_a_pair :
    CanIssue idle ∧
    Readable idle 0x390 .any ∧
    (valueOf idle 0x390 .any).kind = .pair ∧
    (begun idle).destCands 1536 0 ((begun idle).readsPair 1536 0x390) = [] := by
  simp only [CanIssue, Readable]
  decide +kernel

theorem wit_ImmediateMoves :
    CanIssue idle ∧
    (2 ^ 32 - 1 : Nat) < 2 ^ 32 ∧
    (∀ d ∈ [0x000, 0x2FF, 0x300, 0x33F, 0x35F, 0x36F, 0x400, 0x41D, 0x500, 0x53F, 0x600, 0x77F], (begun idle).destCands 1536 d false = []) := by
  simp only [CanIssue]
  decide +kernel

theorem wit_Loads_own_1 :
    CanIssue (own 1 (sregs [(0, 0xFFFFF)])) ∧
    UnitFree (own 1 (sregs [(0, 0xFFFFF)])) 2 ∧
    Readable (own 1 (sregs [(0, 0xFFFFF)])) 0x300 .scalar ∧
    OperandOk (own 1 (sregs [(0, 0xFFFFF)])) 0x301 .scalar ∧
    0xFFFFF % 1 = 0 ∧
    Allowed (accessParts (own 1 (sregs [(0, 0xFFFFF)])) 0xFFFFF 1 .load) ∧
    partsOwn (accessParts (own 1 (sregs [(0, 0xFFFFF)])) 0xFFFFF 1 .load) = true := by
  simp only [CanIssue, UnitFree, Readable, OperandOk, allowed_iff]
  decide +kernel

theorem wit_Loads_own_16 :
    CanIssue (own 1 (sregs [(0, 0xFFFF0)])) ∧
    UnitFree (own 1 (sregs [(0, 0xFFFF0)])) 2 ∧
    Readable (own 1 (sregs [(0, 0xFFFF0)])) 0x300 .scalar ∧
    OperandOk (own 1 (sregs [(0, 0xFFFF0)])) 0x301 .scalar ∧
    0xFFFF0 % 16 = 0 ∧
    Allowed (accessParts (own 1 (sregs [(0, 0xFFFF0)])) 0xFFFF0 16 .load) ∧
    partsOwn (accessParts (own 1 (sregs [(0, 0xFFFF0)])) 0xFFFF0 16 .load) = true := by
  simp only [CanIssue, UnitFree, Readable, OperandOk, allowed_iff]
  decide +kernel

theorem wit_Loads_elsewhere :
    CanIssue (page pteDram (sregs [(0, 0x2000FFF0)])) ∧
    UnitFree (page pteDram (sregs [(0, 0x2000FFF0)])) 2 ∧
    Readable (page pteDram (sregs [(0, 0x2000FFF0)])) 0x300 .scalar ∧
    OperandOk (page pteDram (sregs [(0, 0x2000FFF0)])) 0x301 .scalar ∧
    0x2000FFF0 % 16 = 0 ∧
    Allowed (accessParts (page pteDram (sregs [(0, 0x2000FFF0)])) 0x2000FFF0 16 .load) ∧
    partsOwn (accessParts (page pteDram (sregs [(0, 0x2000FFF0)])) 0x2000FFF0 16 .load) = false ∧
    BufferRoom (page pteDram (sregs [(0, 0x2000FFF0)])) := by
  simp only [CanIssue, UnitFree, Readable, OperandOk, allowed_iff, BufferRoom]
  decide +kernel

theorem wit_Loads_own_bytes :
    16 ∈ [1, 2, 4, 8, 16] ∧
    0xFFFFF0 % 16 = 0 ∧
    0xFFFFF0 < 0x1000000 ∧
    bitAt ((own 0x8000 idle).ctx 1536).win.ways (0xFFFFF0 / 2 ^ 20) = true := by decide +kernel

theorem wit_Stores_own :
    CanIssue (own 1 (sregs [(0, 0xFFFF0)])) ∧
    UnitFree (own 1 (sregs [(0, 0xFFFF0)])) 2 ∧
    Readable (own 1 (sregs [(0, 0xFFFF0)])) 0x300 .scalar ∧
    OperandOk (own 1 (sregs [(0, 0xFFFF0)])) 0x301 .any ∧
    (begun (own 1 (sregs [(0, 0xFFFF0)]))).checkPiece 1536 0xFFFF0 .store = .ok ⟨.sp, 384 * 2 ^ 24 + 0xFFFF0, true, false, none⟩ ∧
    State.reachable (own 1 (sregs [(0, 0xFFFF0)])) ⟨.sp, 384 * 2 ^ 24 + 0xFFFF0, true, false, none⟩ = true ∧
    0xFFFF0 % 16 = 0 := by
  simp only [CanIssue, UnitFree, Readable, OperandOk]
  decide +kernel

theorem wit_Stores_elsewhere :
    CanIssue (page pteDram (sregs [(0, 0x2000FFF0)])) ∧
    UnitFree (page pteDram (sregs [(0, 0x2000FFF0)])) 2 ∧
    Readable (page pteDram (sregs [(0, 0x2000FFF0)])) 0x300 .scalar ∧
    OperandOk (page pteDram (sregs [(0, 0x2000FFF0)])) 0x301 .any ∧
    (begun (page pteDram (sregs [(0, 0x2000FFF0)]))).checkPiece 1536 0x2000FFF0 .store = .ok (leafTarget ⟨pteDram, 2, 0x8000000, 0, 0x2000⟩ 0x2000FFF0) ∧
    State.reachable (page pteDram (sregs [(0, 0x2000FFF0)])) (leafTarget ⟨pteDram, 2, 0x8000000, 0, 0x2000⟩ 0x2000FFF0) = true ∧
    (leafTarget ⟨pteDram, 2, 0x8000000, 0, 0x2000⟩ 0x2000FFF0).own = false ∧
    0x2000FFF0 % 16 = 0 := by
  simp only [CanIssue, UnitFree, Readable, OperandOk]
  decide +kernel

theorem wit_Stores_host :
    CanIssue (page pteHost (sregs [(0, 0x2000FFF0)])) ∧
    UnitFree (page pteHost (sregs [(0, 0x2000FFF0)])) 2 ∧
    Readable (page pteHost (sregs [(0, 0x2000FFF0)])) 0x300 .scalar ∧
    OperandOk (page pteHost (sregs [(0, 0x2000FFF0)])) 0x301 .any ∧
    (begun (page pteHost (sregs [(0, 0x2000FFF0)]))).checkPiece 1536 0x2000FFF0 .store = .ok (leafTarget ⟨pteHost, 2, 0x8000000, 0, 0x2000⟩ 0x2000FFF0) ∧
    State.reachable (page pteHost (sregs [(0, 0x2000FFF0)])) (leafTarget ⟨pteHost, 2, 0x8000000, 0, 0x2000⟩ 0x2000FFF0) = true ∧
    (leafTarget ⟨pteHost, 2, 0x8000000, 0, 0x2000⟩ 0x2000FFF0).own = false ∧ (leafTarget ⟨pteHost, 2, 0x8000000, 0, 0x2000⟩ 0x2000FFF0).space = .host := by
  simp only [CanIssue, UnitFree, Readable, OperandOk]
  decide +kernel

theorem wit_TileTransfers_vld :
    CanIssue (own 1 idle) ∧
    UnitFree (own 1 idle) 2 ∧
    Readable (own 1 idle) 0x300 .scalar ∧
    OperandOk (own 1 idle) 0x301 .scalar ∧
    pitchCands 0 0 = [] ∧
    rowCands true (pitchStarts 0 0) = [] ∧
    Allowed (((pitchStarts 0 0).map (fun b => match b with | some b => accessParts (own 1 idle) b 128 .load | none => [])).flatten) ∧
    partsOwn (((pitchStarts 0 0).map (fun b => match b with | some b => accessParts (own 1 idle) b 128 .load | none => [])).flatten) = true ∧
    (operandOf (own 1 idle) 2 0x301 .scalar).asScalar = 0 := by
  simp only [CanIssue, UnitFree, Readable, OperandOk, allowed_iff]
  decide +kernel

theorem wit_TileTransfers_vldx :
    CanIssue (own 1 idle) ∧
    UnitFree (own 1 idle) 2 ∧
    Readable (own 1 idle) 0x300 .scalar ∧
    OperandOk (own 1 idle) 0x000 .tile ∧
    offsetCands 0 0 = [] ∧
    rowCands true (offsetStarts 0 0) = [] ∧
    Allowed (((offsetStarts 0 0).map (fun b => match b with | some b => accessParts (own 1 idle) b 128 .load | none => [])).flatten) ∧
    partsOwn (((offsetStarts 0 0).map (fun b => match b with | some b => accessParts (own 1 idle) b 128 .load | none => [])).flatten) = true ∧
    (operandOf (own 1 idle) 2 0x000 .tile).asTile = 0 := by
  simp only [CanIssue, UnitFree, Readable, OperandOk, allowed_iff]
  decide +kernel

theorem wit_TileTransfers_vld_elsewhere :
    CanIssue (shared) ∧
    UnitFree (shared) 2 ∧
    Readable (shared) 0x300 .scalar ∧
    OperandOk (shared) 0x301 .scalar ∧
    BufferRoom (shared) ∧
    pitchCands 0x5000000 0 = [] ∧
    rowCands true (pitchStarts 0x5000000 0) = [] ∧
    Allowed (((pitchStarts 0x5000000 0).map (fun b => match b with | some b => accessParts (shared) b 128 .load | none => [])).flatten) ∧
    partsOwn (((pitchStarts 0x5000000 0).map (fun b => match b with | some b => accessParts (shared) b 128 .load | none => [])).flatten) = false := by
  simp only [CanIssue, UnitFree, Readable, OperandOk, allowed_iff, BufferRoom]
  decide +kernel

theorem wit_TileTransfers_vldg :
    CanIssue (page pteDram (sregs [(0, 0x20000000)])) ∧
    UnitFree (page pteDram (sregs [(0, 0x20000000)])) 2 ∧
    Readable (page pteDram (sregs [(0, 0x20000000)])) 0x300 .scalar ∧
    OperandOk (page pteDram (sregs [(0, 0x20000000)])) 0x301 .scalar ∧
    BufferRoom (page pteDram (sregs [(0, 0x20000000)])) ∧
    pitchCands 0x20000000 0 = [] ∧
    rowCands false (pitchStarts 0x20000000 0) = [] ∧
    Allowed (((pitchStarts 0x20000000 0).map (fun b => match b with | some b => accessParts (page pteDram (sregs [(0, 0x20000000)])) b 128 .load | none => [])).flatten) ∧
    partsOwn (((pitchStarts 0x20000000 0).map (fun b => match b with | some b => accessParts (page pteDram (sregs [(0, 0x20000000)])) b 128 .load | none => [])).flatten) = false := by
  simp only [CanIssue, UnitFree, Readable, OperandOk, allowed_iff, BufferRoom]
  decide +kernel

theorem wit_TileTransfers_vst :
    CanIssue (own 1 idle) ∧
    UnitFree (own 1 idle) 2 ∧
    Readable (own 1 idle) 0x300 .scalar ∧
    OperandOk (own 1 idle) 0x000 .tile ∧
    pitchCands 0 0 = [] ∧
    rowCands true (pitchStarts 0 0) = [] ∧
    Allowed (((pitchStarts 0 0).map (fun b => match b with | some b => accessParts (own 1 idle) b 128 .store | none => [])).flatten) ∧
    (secondOf (own 1 idle) 2).asScalar = 0 := by
  simp only [CanIssue, UnitFree, Readable, OperandOk, allowed_iff]
  decide +kernel

theorem wit_TileTransfers_vstx :
    CanIssue (own 1 idle) ∧
    UnitFree (own 1 idle) 2 ∧
    Readable (own 1 idle) 0x300 .scalar ∧
    OperandOk (own 1 idle) 0x000 .tile ∧
    offsetCands 0 0 = [] ∧
    rowCands true (offsetStarts 0 0) = [] ∧
    Allowed (((offsetStarts 0 0).map (fun b => match b with | some b => accessParts (own 1 idle) b 128 .store | none => [])).flatten) ∧
    (secondOf (own 1 idle) 2).asTile = 0 := by
  simp only [CanIssue, UnitFree, Readable, OperandOk, allowed_iff]
  decide +kernel

theorem wit_TileTransfers_vstg :
    CanIssue (page pteDram (sregs [(0, 0x20000000)])) ∧
    UnitFree (page pteDram (sregs [(0, 0x20000000)])) 2 ∧
    Readable (page pteDram (sregs [(0, 0x20000000)])) 0x300 .scalar ∧
    OperandOk (page pteDram (sregs [(0, 0x20000000)])) 0x000 .tile ∧
    pitchCands 0x20000000 0 = [] ∧
    rowCands false (pitchStarts 0x20000000 0) = [] ∧
    Allowed (((pitchStarts 0x20000000 0).map (fun b => match b with | some b => accessParts (page pteDram (sregs [(0, 0x20000000)])) b 128 .store | none => [])).flatten) ∧
    (secondOf (page pteDram (sregs [(0, 0x20000000)])) 2).asScalar = 0 := by
  simp only [CanIssue, UnitFree, Readable, OperandOk, allowed_iff]
  decide +kernel

theorem wit_Atomics_own :
    CanIssue (own 1 (sregs [(0, 0xFFFF0)])) ∧
    UnitFree (own 1 (sregs [(0, 0xFFFF0)])) 2 ∧
    Readable (own 1 (sregs [(0, 0xFFFF0)])) 0x300 .scalar ∧
    OperandOk (own 1 (sregs [(0, 0xFFFF0)])) 0x301 .any ∧
    (begun (own 1 (sregs [(0, 0xFFFF0)]))).checkPiece 1536 0xFFFF0 .atomic = .ok (⟨.sp, 384 * 2 ^ 24 + 0xFFFF0, true, false, none⟩) ∧
    State.reachable (own 1 (sregs [(0, 0xFFFF0)])) (⟨.sp, 384 * 2 ^ 24 + 0xFFFF0, true, false, none⟩) = true ∧
    0xFFFF0 % 16 = 0 ∧
    BufferRoom (own 1 (sregs [(0, 0xFFFF0)])) ∧
    (⟨.sp, 384 * 2 ^ 24 + 0xFFFF0, true, false, none⟩ : Target).space ≠ .host := by
  simp only [CanIssue, UnitFree, Readable, OperandOk, BufferRoom]
  decide +kernel

theorem wit_Atomics_elsewhere :
    CanIssue (page pteDram (sregs [(0, 0x2000FFF0)])) ∧
    UnitFree (page pteDram (sregs [(0, 0x2000FFF0)])) 2 ∧
    Readable (page pteDram (sregs [(0, 0x2000FFF0)])) 0x300 .scalar ∧
    OperandOk (page pteDram (sregs [(0, 0x2000FFF0)])) 0x301 .any ∧
    (begun (page pteDram (sregs [(0, 0x2000FFF0)]))).checkPiece 1536 0x2000FFF0 .atomic = .ok (leafTarget ⟨pteDram, 2, 0x8000000, 0, 0x2000⟩ 0x2000FFF0) ∧
    State.reachable (page pteDram (sregs [(0, 0x2000FFF0)])) (leafTarget ⟨pteDram, 2, 0x8000000, 0, 0x2000⟩ 0x2000FFF0) = true ∧
    BufferRoom (page pteDram (sregs [(0, 0x2000FFF0)])) ∧
    (leafTarget ⟨pteDram, 2, 0x8000000, 0, 0x2000⟩ 0x2000FFF0).space = .dram := by
  simp only [CanIssue, UnitFree, Readable, OperandOk, BufferRoom]
  decide +kernel

theorem wit_Atomics_host :
    CanIssue (page pteHost (sregs [(0, 0x2000FFF0)])) ∧
    UnitFree (page pteHost (sregs [(0, 0x2000FFF0)])) 2 ∧
    Readable (page pteHost (sregs [(0, 0x2000FFF0)])) 0x300 .scalar ∧
    OperandOk (page pteHost (sregs [(0, 0x2000FFF0)])) 0x301 .scalar ∧
    (begun (page pteHost (sregs [(0, 0x2000FFF0)]))).checkPiece 1536 0x2000FFF0 .atomic = .ok (leafTarget ⟨pteHost, 2, 0x8000000, 0, 0x2000⟩ 0x2000FFF0) ∧
    State.reachable (page pteHost (sregs [(0, 0x2000FFF0)])) (leafTarget ⟨pteHost, 2, 0x8000000, 0, 0x2000⟩ 0x2000FFF0) = true ∧
    BufferRoom (page pteHost (sregs [(0, 0x2000FFF0)])) ∧
    (leafTarget ⟨pteHost, 2, 0x8000000, 0, 0x2000⟩ 0x2000FFF0).space = .host ∧ (leafTarget ⟨pteHost, 2, 0x8000000, 0, 0x2000⟩ 0x2000FFF0).remote = true := by
  simp only [CanIssue, UnitFree, Readable, OperandOk, BufferRoom]
  decide +kernel

theorem wit_Reductions_own :
    CanIssue (own 1 (sregs [(0, 0xFFFF0)])) ∧
    UnitFree (own 1 (sregs [(0, 0xFFFF0)])) 2 ∧
    Readable (own 1 (sregs [(0, 0xFFFF0)])) 0x300 .scalar ∧
    OperandOk (own 1 (sregs [(0, 0xFFFF0)])) 0x301 .scalar ∧
    (begun (own 1 (sregs [(0, 0xFFFF0)]))).checkPiece 1536 0xFFFF0 .store = .ok (⟨.sp, 384 * 2 ^ 24 + 0xFFFF0, true, false, none⟩) ∧
    State.reachable (own 1 (sregs [(0, 0xFFFF0)])) (⟨.sp, 384 * 2 ^ 24 + 0xFFFF0, true, false, none⟩) = true ∧
    0xFFFF0 % 8 = 0 ∧
    (⟨.sp, 384 * 2 ^ 24 + 0xFFFF0, true, false, none⟩ : Target).space ≠ .host := by
  simp only [CanIssue, UnitFree, Readable, OperandOk]
  decide +kernel

theorem wit_Reductions_host :
    CanIssue (page pteHost (sregs [(0, 0x2000FFF0)])) ∧
    UnitFree (page pteHost (sregs [(0, 0x2000FFF0)])) 2 ∧
    Readable (page pteHost (sregs [(0, 0x2000FFF0)])) 0x300 .scalar ∧
    OperandOk (page pteHost (sregs [(0, 0x2000FFF0)])) 0x301 .scalar ∧
    (begun (page pteHost (sregs [(0, 0x2000FFF0)]))).checkPiece 1536 0x2000FFF0 .store = .ok (leafTarget ⟨pteHost, 2, 0x8000000, 0, 0x2000⟩ 0x2000FFF0) ∧
    State.reachable (page pteHost (sregs [(0, 0x2000FFF0)])) (leafTarget ⟨pteHost, 2, 0x8000000, 0, 0x2000⟩ 0x2000FFF0) = true ∧
    0x2000FFF0 % 8 = 0 ∧
    (leafTarget ⟨pteHost, 2, 0x8000000, 0, 0x2000⟩ 0x2000FFF0).space = .host ∧ (leafTarget ⟨pteHost, 2, 0x8000000, 0, 0x2000⟩ 0x2000FFF0).remote = true := by
  simp only [CanIssue, UnitFree, Readable, OperandOk]
  decide +kernel

theorem wit_VectorIntegers :
    CanIssue idle ∧
    UnitFree idle (3 + 1) ∧
    Readable idle 0x000 .tile ∧
    OperandOk idle 0x002 .tile ∧
    UnitFree idle (3 + 0) ∧
    fmtPair 0xB = false ∧
    0xB ∈ [0x0, 0x1, 0x4, 0x5, 0xB, 0xE, 0xF] := by
  simp only [CanIssue, UnitFree, Readable, OperandOk]
  decide +kernel

theorem wit_VectorIntegers_pairs :
    CanIssue idle ∧
    UnitFree idle (3 + 0) ∧
    Readable idle 0x000 .pair ∧
    OperandOk idle 0x002 .pair ∧
    fmtPair 0xF = true ∧
    0xF ∈ [0x0, 0x1, 0x4, 0x5, 0xE, 0xF] ∧
    OperandOk idle 0xFFF .pair := by
  simp only [CanIssue, UnitFree, Readable, OperandOk]
  decide +kernel

theorem wit_VectorBitwise :
    CanIssue idle ∧
    UnitFree idle (3 + 1) ∧
    Readable idle 0x000 .tile ∧
    OperandOk idle 0x002 .tile ∧
    OperandOk idle 0xFFF .any ∧
    0 ∈ [0x0, 0x1, 0xE, 0xF] ∧
    fmtPair 0 = false := by
  simp only [CanIssue, UnitFree, Readable, OperandOk]
  decide +kernel

theorem wit_VectorBitwise_pairs :
    CanIssue idle ∧
    UnitFree idle (3 + 1) ∧
    Readable idle 0x000 .pair ∧
    OperandOk idle 0x002 .pair ∧
    OperandOk idle 0xFFF .any ∧
    0xF ∈ [0x0, 0x1, 0xE, 0xF] ∧
    fmtPair 0xF = true ∧
    (15 : Nat) < 16 := by
  simp only [CanIssue, UnitFree, Readable, OperandOk]
  decide +kernel

theorem wit_VectorFloats :
    CanIssue idle ∧
    UnitFree idle (3 + 0) ∧
    Readable idle 0x000 .tile ∧
    OperandOk idle 0x002 .tile ∧
    (ffmt 0x3).isSome = true ∧
    ffmt 0x2 = some f16 ∧
    0x3 ∈ [0xD, 0x2, 0x3] ∧
    fmtPair 0x3 = false := by
  simp only [CanIssue, UnitFree, Readable, OperandOk]
  decide +kernel

theorem wit_VectorFloats_pairs :
    CanIssue idle ∧
    UnitFree idle (3 + 1) ∧
    Readable idle 0x000 .pair ∧
    OperandOk idle 0x002 .pair ∧
    ffmt 0xD = some f32 ∧
    0xD ∈ [0xD, 0x2, 0x3] ∧
    fmtPair 0xD = true := by
  simp only [CanIssue, UnitFree, Readable, OperandOk]
  decide +kernel

theorem wit_Permutes :
    CanIssue idle ∧
    UnitFree idle 5 ∧
    Readable idle 0x000 .tile ∧
    OperandOk idle 0x002 .tile ∧
    OperandOk idle 0xFFF .any ∧
    (15 : Nat) < 16 ∧
    0 ∈ [0x0, 0x1, 0xE, 0xF] ∧
    ffmt 0x2 = some f16 := by
  simp only [CanIssue, UnitFree, Readable, OperandOk]
  decide +kernel

theorem wit_Permutes_pairs :
    CanIssue idle ∧
    UnitFree idle 5 ∧
    Readable idle 0x000 .pair ∧
    OperandOk idle 0x002 .pair ∧
    OperandOk idle 0xFFF .any ∧
    fmtPair 0xF = true ∧
    fmtPair 0xD = true ∧
    ffmt 0xD = some f32 ∧
    0xF ∈ [0x0, 0x1, 0xE, 0xF] := by
  simp only [CanIssue, UnitFree, Readable, OperandOk]
  decide +kernel

theorem wit_Permutes_signalling :
    CanIssue signals ∧
    UnitFree signals 5 ∧
    Readable signals 0x000 .tile ∧
    OperandOk signals 0xFFF .any ∧
    ffmt 0x2 = some f16 ∧ 0x2 ∈ [0xD, 0x2, 0x3] ∧
    ((List.range 64).any (fun k => (f16.readFlush (valAt 0x2 (valueOf signals 0x000 .tile).asTile (valueOf signals 0x000 .tile).asHigh k)).isSNaN)) = true := by
  simp only [CanIssue, UnitFree, Readable, OperandOk]
  decide +kernel

theorem wit_Permutes_all_nan :
    CanIssue quiets ∧
    UnitFree quiets 5 ∧
    Readable quiets 0x000 .tile ∧
    OperandOk quiets 0xFFF .any ∧
    ffmt 0x2 = some f16 ∧ 0x2 ∈ [0xD, 0x2, 0x3] ∧
    (∀ k < 64, (f16.readFlush (valAt 0x2 (valueOf quiets 0x000 .tile).asTile (valueOf quiets 0x000 .tile).asHigh k)).isNaN = true) ∧
    ((List.range 64).any (fun k => (f16.readFlush (valAt 0x2 (valueOf quiets 0x000 .tile).asTile (valueOf quiets 0x000 .tile).asHigh k)).isSNaN)) = false := by
  simp only [CanIssue, UnitFree, Readable, OperandOk]
  decide +kernel

theorem wit_Permutes_some :
    CanIssue mixes ∧
    UnitFree mixes 5 ∧
    Readable mixes 0x000 .tile ∧
    OperandOk mixes 0xFFF .any ∧
    ffmt 0x2 = some f16 ∧ 0x2 ∈ [0xD, 0x2, 0x3] ∧
    (∃ k < 64, (f16.readFlush (valAt 0x2 (valueOf mixes 0x000 .tile).asTile (valueOf mixes 0x000 .tile).asHigh k)).isNaN = false) ∧
    ((List.range 64).any (fun k => (f16.readFlush (valAt 0x2 (valueOf mixes 0x000 .tile).asTile (valueOf mixes 0x000 .tile).asHigh k)).isSNaN)) = false := by
  simp only [CanIssue, UnitFree, Readable, OperandOk]
  decide +kernel

theorem wit_SpecialFunctions :
    CanIssue idle ∧
    UnitFree idle 6 ∧
    Readable idle 0x000 .tile ∧
    OperandOk idle 0x002 .tile ∧
    OperandOk idle 0xFFF .any ∧
    ffmt 0x2 = some f16 ∧
    fmtPair 0x2 = false ∧
    (3 : Nat) ≤ 3 ∧
    f16.readFlush (valAt 0x2 (valueOf idle 0x000 .tile).asTile (valueOf idle 0x000 .tile).asHigh 1023) = .zero false := by
  simp only [CanIssue, UnitFree, Readable, OperandOk]
  decide +kernel

theorem wit_SpecialFunctions_pairs :
    CanIssue idle ∧
    UnitFree idle 6 ∧
    Readable idle 0x000 .pair ∧
    OperandOk idle 0x002 .pair ∧
    OperandOk idle 0xFFF .any ∧
    ffmt 0xD = some f32 ∧
    fmtPair 0xD = true := by
  simp only [CanIssue, UnitFree, Readable, OperandOk]
  decide +kernel

theorem wit_Conversions_cvt :
    CanIssue idle ∧
    UnitFree idle 7 ∧
    Readable idle 0x000 .tile ∧
    OperandOk idle 0xFFF .any ∧
    fmtPair 0x3 = false ∧
    (me idle).fmts.cvtctl / 2 ^ 32 < 2 ^ 32 ∧
    0x3 ≠ 0xC ∧ 0x2 ≠ 0xC := by
  simp only [CanIssue, UnitFree, Readable, OperandOk]
  decide +kernel

theorem wit_Conversions_cvts :
    CanIssue idle ∧
    UnitFree idle 7 ∧
    Readable idle 0x000 .pair ∧
    OperandOk idle 0x002 .pair ∧
    fmtPair 0xD = true ∧
    0xD ∈ [0xD, 0x2, 0x3] ∧
    0x002 ≠ 0xFFF := by
  simp only [CanIssue, UnitFree, Readable, OperandOk]
  decide +kernel

theorem wit_Conversions_dqblk :
    CanIssue idle ∧
    UnitFree idle 7 ∧
    Readable idle 0x000 .tile ∧
    OperandOk idle 0x002 .tile ∧
    0x4 ∈ [0x6, 0x7, 0x8, 0x9, 0xA, 0x4, 0xC] ∧
    fmtPair 0x4 = false := by
  simp only [CanIssue, UnitFree, Readable, OperandOk]
  decide +kernel

theorem wit_Conversions_quantize :
    CanIssue idle ∧
    UnitFree idle 7 ∧
    Readable idle 0x000 .pair ∧
    OperandOk idle 0x002 .any ∧
    0xC ∈ [0x6, 0x7, 0x8, 0x9, 0xA, 0x4, 0xC] ∧
    ffmt 0xD = some f32 ∧
    fmtPair 0xD = true ∧
    (me idle).fmts.cvtctl / 2 ^ 32 < 2 ^ 32 := by
  simp only [CanIssue, UnitFree, Readable, OperandOk]
  decide +kernel

theorem wit_Conversions_packs :
    CanIssue idle ∧
    UnitFree idle 7 ∧
    Readable idle 0x003 .tile ∧
    OperandOk idle 0xFFF .any := by
  simp only [CanIssue, UnitFree, Readable, OperandOk]
  decide +kernel

theorem wit_Branches_taken :
    CanIssue idle ∧
    (me idle).k 15 = false ∧
    ControlReadable idle 0x33F ∧
    ControlReadable idle 0x36F ∧
    isControlSource 0x000 = false := by
  simp only [CanIssue, ControlReadable, Readable]
  decide +kernel

theorem wit_Branches_not_taken :
    CanIssue idle ∧
    (me idle).k 0 ≠ true ∧
    ¬ AtLoopEnd idle := by
  simp only [CanIssue, AtLoopEnd]
  decide +kernel

theorem wit_Loops_begin :
    CanIssue (sregs [(0, 2 ^ 32)]) ∧
    ControlReadable (sregs [(0, 2 ^ 32)]) 0x300 ∧
    lenOf (sregs [(0, 2 ^ 32)]) < 26 ∧
    controlValue (sregs [(0, 2 ^ 32)]) 0x300 % 2 ^ 32 = 0 ∧
    26 ≠ 0 ∧
    (me (looped 5 1 0)).seq.ldepth < 6 ∧
    lenOf (looped 5 1 0) < 26 ∧
    CanIssue (looped 5 1 0) := by
  simp only [CanIssue, ControlReadable, Readable]
  decide +kernel

theorem wit_Loops_traps :
    CanIssue (looped 6 1 0) ∧
    25 ≤ lenOf (looped 6 1 0) ∧
    lenOf (looped 6 1 0) < 26 ∧
    6 ≤ (me (looped 6 1 0)).seq.ldepth := by
  simp only [CanIssue]
  decide +kernel

theorem wit_Loops_end_goes_on :
    CanIssue (looped 1 2 0) ∧
    AtLoopEnd (looped 1 2 0) ∧
    ((me (looped 1 2 0)).loopAt 0).index + 1 < ((me (looped 1 2 0)).loopAt 0).count := by
  simp only [CanIssue, AtLoopEnd]
  decide +kernel

theorem wit_Loops_end_leaves :
    CanIssue (looped 1 2 1) ∧
    AtLoopEnd (looped 1 2 1) ∧
    ¬ ((me (looped 1 2 1)).loopAt 0).index + 1 < ((me (looped 1 2 1)).loopAt 0).count := by
  simp only [CanIssue, AtLoopEnd]
  decide +kernel

theorem wit_Loops_lbrk_takes :
    CanIssue (looped 6 2 0) ∧
    (me (looped 6 2 0)).loopBase + 6 ≤ (me (looped 6 2 0)).seq.ldepth ∧
    (me (looped 6 2 0)).seq.loops.length = 6 ∧
    (me (looped 6 2 0)).k 3 = false := by
  simp only [CanIssue]
  decide +kernel

theorem wit_Loops_lbrk_passes :
    CanIssue deep ∧
    (me deep).loopBase + 1 ≤ (me deep).seq.ldepth ∧
    (me deep).k 3 ≠ true ∧
    ¬ AtLoopEnd deep := by
  simp only [CanIssue, AtLoopEnd]
  decide +kernel

theorem wit_Loops_lbrk_traps :
    CanIssue (looped 5 2 0) ∧
    (me (looped 5 2 0)).seq.ldepth < (me (looped 5 2 0)).loopBase + 6 := by
  simp only [CanIssue]
  decide +kernel

theorem wit_WaitsBegin :
    CanIssue (own 1 (sregs [(0, 0xFFFF)])) ∧
    ¬ AtLoopEnd (own 1 (sregs [(0, 0xFFFF)])) ∧
    ControlReadable (own 1 (sregs [(0, 0xFFFF)])) 0x300 ∧
    ((own 1 (sregs [(0, 0xFFFF)])).ctx 1536).a 0 % 8 = 0 ∧
    Allowed (accessParts (own 1 (sregs [(0, 0xFFFF)])) 0 8 .load) := by
  simp only [CanIssue, allowed_iff, AtLoopEnd, ControlReadable, Readable]
  decide +kernel

theorem wit_WaitsBegin_split :
    CanIssue (sregs [(0, 0xFFFF)]) ∧
    ¬ AtLoopEnd (sregs [(0, 0xFFFF)]) ∧
    ControlReadable (sregs [(0, 0xFFFF)]) 0x300 ∧
    controlValue (sregs [(0, 0xFFFF)]) 0x300 % 65536 = 0xFFFF ∧
    (∀ w < 16, (sregs [(0, 0xFFFF)]).way 384 w = .cache ∧ lockedIn (sregs [(0, 0xFFFF)]) 384 w = 0) ∧
    (∀ d ∈ [1537, 1538, 1539], ∀ w < 16, ((sregs [(0, 0xFFFF)]).ctx d).incomingWays.testBit w = false) := by
  simp only [CanIssue, AtLoopEnd, ControlReadable, Readable]
  decide +kernel

theorem wit_WaitsBegin_split_foreign :
    CanIssue splitForeign ∧
    ¬ AtLoopEnd splitForeign ∧
    ControlReadable splitForeign 0x300 ∧
    controlValue splitForeign 0x300 % 65536 = 1 ∧
    splitForeign.way 384 0 = .owned 1 1537 ∧ 1537 ≠ splitForeign.cur ∧
    (1 : Nat).testBit 0 = true := by
  simp only [CanIssue, AtLoopEnd, ControlReadable, Readable]
  decide +kernel

theorem wit_WaitsBegin_split_busy :
    CanIssue splitBusy ∧
    ¬ AtLoopEnd splitBusy ∧
    ControlReadable splitBusy 0x300 ∧
    controlValue splitBusy 0x300 % 65536 = 1 ∧
    (∀ w < 16, splitBusy.way 384 w = .cache) ∧
    (∀ d ∈ [1537, 1538, 1539], ∀ w < 16, (splitBusy.ctx d).incomingWays.testBit w = false) ∧
    (∀ w < 16, ((1 : Nat).testBit w = true ↔ (1 : Nat).testBit w = true ∧ ((splitBusy.ctx 1536).win.ways.testBit w = false ∧ lockedIn splitBusy 384 w ≠ 0))) := by
  simp only [CanIssue, AtLoopEnd, ControlReadable, Readable]
  decide +kernel

theorem wit_WaitsBegin_misaligned :
    CanIssue off1 ∧
    ¬ AtLoopEnd off1 ∧
    (off1.ctx 1536).a 0 % 8 ≠ 0 ∧
    Allowed (accessParts off1 ((off1.ctx 1536).a 0) 8 .load) := by
  simp only [CanIssue, allowed_iff, AtLoopEnd]
  decide +kernel

theorem wit_SystemReads :
    CanIssue idle ∧
    ¬ AtLoopEnd idle ∧
    0x300 ≤ 0x36F ∧ 0x36F < 0x370 ∧
    (me idle).missing (me idle).ports.flagDue = false ∧
    0x00F ≠ 0x003 := by
  simp only [CanIssue, AtLoopEnd]
  decide +kernel

theorem wit_SystemReads_unlisted :
    CanIssue idle ∧
    ¬ AtLoopEnd idle ∧
    (0xFFF : Nat) < 4096 ∧ 0xFFF ≠ 0x003 ∧
    0x2FF < 0x300 ∧
    0x370 ≤ 0x370 ∧ 0x370 < 4096 := by
  simp only [CanIssue, AtLoopEnd]
  decide +kernel

theorem wit_SystemReads_fpstat_waits :
    CanIssue (flagged false) ∧
    ¬ AtLoopEnd (flagged false) ∧
    (me (flagged false)).seq.cyc < (me (flagged false)).ports.flagDue ∧
    (me (flagged false)).missing (me (flagged false)).ports.flagDue = true := by
  simp only [CanIssue, AtLoopEnd]
  decide +kernel

theorem wit_SystemReads_fpstat :
    CanIssue (flagged true) ∧
    ¬ AtLoopEnd (flagged true) ∧
    (me (flagged true)).missing (me (flagged true)).ports.flagDue = false ∧
    (me idle).ports.flagDue ≤ (me idle).seq.cyc := by
  simp only [CanIssue, AtLoopEnd]
  decide +kernel

theorem wit_SystemWrites :
    CanIssue (sregs [(0, 2 ^ 64 - 1)]) ∧
    ¬ AtLoopEnd (sregs [(0, 2 ^ 64 - 1)]) ∧
    ControlReadable (sregs [(0, 2 ^ 64 - 1)]) 0x300 ∧
    0 ≤ (me (sregs [(0, 2 ^ 64 - 1)])).traps.level ∧
    (me (sregs [(0, 2 ^ 64 - 1)])).traps.level < 1 := by
  simp only [CanIssue, AtLoopEnd, ControlReadable, Readable]
  decide +kernel

theorem wit_SystemWrites_level2 :
    CanIssue (atLevel 2) ∧
    ¬ AtLoopEnd (atLevel 2) ∧
    ControlReadable (atLevel 2) 0x36F ∧
    2 ≤ (me (atLevel 2)).traps.level := by
  simp only [CanIssue, AtLoopEnd, ControlReadable, Readable]
  decide +kernel

theorem wit_SystemWrites_windows :
    CanIssue (sregs [(0, 16383 + 2 ^ 32)]) ∧
    ControlReadable (sregs [(0, 16383 + 2 ^ 32)]) 0x300 ∧
    (16383 + 2 ^ 32) / 2 ^ 0 % 2 ^ 14 + (16383 + 2 ^ 32) / 2 ^ 32 % 2 ^ 15 ≤ 16384 ∧
    ControlReadable (sregs [(0, 16383 + 2 * 2 ^ 32)]) 0x300 ∧
    ¬ (16383 + 2 * 2 ^ 32) / 2 ^ 0 % 2 ^ 14 + (16383 + 2 * 2 ^ 32) / 2 ^ 32 % 2 ^ 15 ≤ 16384 := by
  simp only [CanIssue, ControlReadable, Readable]
  decide +kernel

theorem wit_SystemWrites_vwin :
    (752 + 16 * 2 ^ 16) / 2 ^ 0 % 2 ^ 10 + (752 + 16 * 2 ^ 16) / 2 ^ 16 % 2 ^ 10 ≤ 768 ∧
    CanIssue (sregs [(0, 752 + 16 * 2 ^ 16)]) ∧
    ControlReadable (sregs [(0, 752 + 16 * 2 ^ 16)]) 0x300 ∧
    (∀ d ∈ [1537, 1538, 1539], ((sregs [(0, 752 + 16 * 2 ^ 16)]).ctx d).bound = false) := by
  simp only [CanIssue, ControlReadable, Readable]
  decide +kernel

theorem wit_SystemWrites_nreg :
    CanIssue granted ∧
    ControlReadable granted 0x300 ∧
    controlValue granted 0x300 % 16 = 15 ∧
    (granted.region 15).inst = true ∧
    (granted.job (me granted).sched.job).map (fun j => j.rmask.testBit 15) = some true := by
  simp only [CanIssue, ControlReadable, Readable]
  decide +kernel

theorem wit_SystemWrites_ldepth :
    controlValue (sregs [(0, 6)]) 0x300 < 7 ∧
    (me (sregs [(0, 6)])).loopBase ≤ 6 ∧
    CanIssue (sregs [(0, 6)]) ∧
    ControlReadable (sregs [(0, 6)]) 0x300 := by
  simp only [CanIssue, ControlReadable, Readable]
  decide +kernel

theorem wit_ControlSlots :
    CanIssue idle ∧
    ¬ AtLoopEnd idle ∧
    ControlReadable idle 0x300 ∧
    (me idle).traps.level = 0 ∧
    (me idle).seq.wait = none := by
  simp only [CanIssue, AtLoopEnd, ControlReadable, Readable]
  decide +kernel

theorem wit_ControlSlots_preempted :
    CanIssue asked ∧
    ¬ AtLoopEnd asked ∧
    (me asked).sched.preempt = some (0, 36000000) ∧
    (me asked).traps.level = 0 ∧
    (me asked).seq.wait = none := by
  simp only [CanIssue, AtLoopEnd]
  decide +kernel

theorem wit_ControlSlots_gmset :
    CanIssue grouped ∧
    ¬ AtLoopEnd grouped ∧
    (∃ p ∈ (grouped.loaded (grouped.ctx 1536).sched.job).places, p.die = 3 ∧ p.cluster = 0 / 4 ∧ p.core = 0 % 4 ∧ p.ctx = (grouped.ctx 1536).s 2 / 16 % 4) ∧
    (grouped.ctx 1536).s 0 = 1 ∧
    (grouped.ctx 1536).s 1 = 0 ∧
    (grouped.ctx 1536).s 2 % 16 = 8 := by
  simp only [CanIssue, AtLoopEnd]
  decide +kernel

theorem wit_ControlSlots_qpush :
    CanIssue pushing ∧
    ¬ AtLoopEnd pushing ∧
    Allowed (accessParts pushing 0 64 .load) ∧
    bitAt (pushing.queue 63).qcfg 4 = true ∧
    (pushing.job (pushing.ctx 1536).sched.job).map (fun j => j.qmask.testBit 63) = some true ∧
    (touched pushing false (accessParts pushing 0 64 .load)).hasSlot 63 = true ∧
    (pushing.ctx 1536).s 0 % 64 = 63 := by
  simp only [CanIssue, allowed_iff, AtLoopEnd]
  decide +kernel

theorem wit_ControlSlots_qpush_full :
    CanIssue filled ∧
    ¬ AtLoopEnd filled ∧
    Allowed (accessParts filled 0 64 .load) ∧
    bitAt (filled.queue 63).qcfg 4 = true ∧
    (filled.job (filled.ctx 1536).sched.job).map (fun j => j.qmask.testBit 63) = some true ∧
    (touched filled false (accessParts filled 0 64 .load)).hasSlot 63 = false := by
  simp only [CanIssue, allowed_iff, AtLoopEnd]
  decide +kernel

theorem wit_ControlSlots_qpush_forbidden :
    CanIssue (own 1 idle) ∧
    ¬ AtLoopEnd (own 1 idle) ∧
    Allowed (accessParts (own 1 idle) 0 64 .load) ∧
    bitAt ((own 1 idle).queue 0).qcfg 4 = false := by
  simp only [CanIssue, allowed_iff, AtLoopEnd]
  decide +kernel

theorem wit_ControlSlots_qpush_misaligned :
    CanIssue pushing8 ∧
    ¬ AtLoopEnd pushing8 ∧
    (pushing8.ctx 1536).a 0 % 64 ≠ 0 ∧
    Allowed (accessParts pushing8 8 64 .load) ∧
    bitAt (pushing8.queue 63).qcfg 4 = true := by
  simp only [CanIssue, allowed_iff, AtLoopEnd]
  decide +kernel

theorem wit_TrapLevels_enters_1 :
    DataArrived (handled idle |>.ctx 1536) ∧
    ((handled idle).ctx 1536).traps.tvec % 2 = 1 ∧
    ((handled idle).ctx 1536).traps.level = 0 := by
  simp only [dataArrived_iff]
  decide +kernel

theorem wit_TrapLevels_enters_2 :
    DataArrived ((atLevel 1).ctx 1536) ∧
    ((atLevel 1).ctx 1536).traps.tvec % 2 = 1 ∧
    ((atLevel 1).ctx 1536).traps.level = 1 ∧
    (atLevel 1).cur = 1536 ∧
    CanIssue (atLevel 1) := by
  simp only [CanIssue, dataArrived_iff]
  decide +kernel

theorem wit_TrapLevels_kills :
    DataArrived ((atLevel 2).ctx 1536) ∧
    ((atLevel 2).ctx 1536).traps.tvec % 2 = 1 ∧
    ((atLevel 2).ctx 1536).traps.level = 2 ∧
    (idle.ctx 1536).traps.tvec % 2 = 0 := by
  simp only [dataArrived_iff]
  decide +kernel

theorem wit_TrapEntry_arrived :
    ((atLevel 1).ctx 1536).traps.tvec % 2 = 1 ∧
    ((atLevel 1).ctx 1536).traps.level < 2 ∧
    DataArrived ((atLevel 1).ctx 1536) := by
  simp only [dataArrived_iff]
  decide +kernel

theorem wit_TrapEntry_waits :
    (expecting.ctx 1536).traps.tvec % 2 = 1 ∧
    (expecting.ctx 1536).traps.level < 2 ∧
    ¬ DataArrived (expecting.ctx 1536) ∧
    (expecting.ctx 1536).seq.wait = some (.entry 7 8 9 0) ∧
    (expecting.ctx 1536).resident = true := by
  simp only [dataArrived_iff]
  decide +kernel

theorem wit_TrapEntry_completes :
    (entering.ctx 1536).traps.tvec % 2 = 1 ∧
    (entering.ctx 1536).traps.level < 2 ∧
    DataArrived (entering.ctx 1536) ∧
    (entering.ctx 1536).seq.wait = some (.entry 7 8 9 0) ∧
    (entering.ctx 1536).resident = true := by
  simp only [dataArrived_iff]
  decide +kernel

theorem wit_TrapEntry_at_issue :
    ((atLevel 1).ctx (atLevel 1).cur).traps.tvec % 2 = 1 ∧
    ((atLevel 1).ctx (atLevel 1).cur).traps.level < 2 ∧
    DataArrived (me (atLevel 1)) := by
  simp only [dataArrived_iff]
  decide +kernel

theorem wit_TrapEntry_return :
    CanIssue (atLevel 2) ∧
    1 ≤ ((atLevel 2).ctx (atLevel 2).cur).traps.level ∧
    CanIssue idle ∧
    (idle.ctx idle.cur).traps.level = 0 := by
  simp only [CanIssue]
  decide +kernel

theorem wit_SoftwareTraps :
    CanIssue (atLevel 1) ∧
    (me (atLevel 1)).seq.wait = none ∧
    (me (atLevel 1)).sched.preempt = none ∧
    ((atLevel 1).ctx 1536).traps.tvec % 2 = 1 ∧
    ((atLevel 1).ctx 1536).traps.level < 2 ∧
    DataArrived (me (atLevel 1)) := by
  simp only [CanIssue, dataArrived_iff]
  decide +kernel

theorem wit_SoftwareTraps_kill :
    CanIssue (atLevel 2) ∧
    (me (atLevel 2)).seq.wait = none ∧
    (me (atLevel 2)).sched.preempt = none ∧
    ((atLevel 2).ctx 1536).traps.level = 2 ∧
    DataArrived (me (atLevel 2)) ∧
    CanIssue idle ∧
    (idle.ctx 1536).traps.tvec % 2 = 0 := by
  simp only [CanIssue, dataArrived_iff]
  decide +kernel

theorem wit_Kills :
    (jobbed idle).job ((jobbed idle).ctx 1536).sched.job = some someJob ∧
    physSpace someJob.log = .dram ∧
    (bytes .dram (0x4000000 + 8) 4 1 (jobbed idle)).readN .dram 0x4000000 8 < (bytes .dram (0x4000000 + 8) 4 1 (jobbed idle)).readN .dram (0x4000000 + 8) 4 := by decide +kernel

theorem wit_MatrixIssue_mstep :
    CanIssue edged ∧
    MatrixAccepts edged 1 (mo 0 false 0) ∧
    (Instr.mstep (mo 0 false 0), 1) ∈ matrixRows (mo 0 false 0) := by
  simp only [CanIssue, MatrixAccepts, TokenFree]
  decide +kernel

theorem wit_MatrixIssue_mstepG :
    CanIssue edged ∧
    MatrixAccepts edged 2 (mo 1 true 0) ∧
    (Instr.mstepG (mo 1 true 0), 2) ∈ matrixRows (mo 1 true 0) := by
  simp only [CanIssue, MatrixAccepts, TokenFree]
  decide +kernel

theorem wit_MatrixIssue_mpre :
    CanIssue edged ∧
    MatrixAccepts edged 3 (mo 0 false 0) ∧
    (Instr.mpre (mo 0 false 0), 3) ∈ matrixRows (mo 0 false 0) := by
  simp only [CanIssue, MatrixAccepts, TokenFree]
  decide +kernel

theorem wit_MatrixIssue_mstepWs :
    CanIssue edged ∧
    MatrixAccepts edged 4 (mo 1 false 0) ∧
    (Instr.mstepWs (mo 1 false 0), 4) ∈ matrixRows (mo 1 false 0) := by
  simp only [CanIssue, MatrixAccepts, TokenFree]
  decide +kernel

theorem wit_MatrixIssue_mfin :
    CanIssue edged ∧
    MatrixAccepts edged 5 (mo 3 false 0) ∧
    (Instr.mfin (mo 3 false 0), 5) ∈ matrixRows (mo 3 false 0) := by
  simp only [CanIssue, MatrixAccepts, TokenFree]
  decide +kernel

theorem wit_MatrixIssue_mzero :
    CanIssue edged ∧
    MatrixAccepts edged 6 (mo 3 false 0) ∧
    (Instr.mzero (mo 3 false 0), 6) ∈ matrixRows (mo 3 false 0) := by
  simp only [CanIssue, MatrixAccepts, TokenFree]
  decide +kernel

theorem wit_MatrixIssue_mcorr :
    CanIssue edged ∧
    MatrixAccepts edged 7 (mo 1 false 0) ∧
    (Instr.mcorr (mo 1 false 0), 7) ∈ matrixRows (mo 1 false 0) := by
  simp only [CanIssue, MatrixAccepts, TokenFree]
  decide +kernel

theorem wit_MatrixIssue_mcld :
    CanIssue edged ∧
    MatrixAccepts edged 8 (mo 0 false 0) ∧
    (Instr.mcld (mo 0 false 0), 8) ∈ matrixRows (mo 0 false 0) := by
  simp only [CanIssue, MatrixAccepts, TokenFree]
  decide +kernel

theorem wit_MatrixIssue_mcinv :
    CanIssue edged ∧
    MatrixAccepts edged 9 (mo 2 false 0) ∧
    (Instr.mcinv (mo 2 false 0), 9) ∈ matrixRows (mo 2 false 0) := by
  simp only [CanIssue, MatrixAccepts, TokenFree]
  decide +kernel

theorem wit_MatrixIssue_mscl :
    CanIssue edged ∧
    MatrixAccepts edged 10 (mo 1 false 0) ∧
    (Instr.mscl (mo 1 false 0), 10) ∈ matrixRows (mo 1 false 0) := by
  simp only [CanIssue, MatrixAccepts, TokenFree]
  decide +kernel

theorem wit_MatrixIssue_clash :
    CanIssue clashing ∧
    (∀ op ∈ [1, 4], mxReadsDesc op moving = true) ∧
    moving.inc = true ∧
    (((me clashing).desc 0).getD 3 0).testBit 56 = true ∧ (((me clashing).desc 0).getD 3 0).testBit 57 = true ∧
    ((me clashing).desc 0).getD 3 0 / 2 ^ 48 % 16 = ((me clashing).desc 0).getD 3 0 / 2 ^ 52 % 16 := by
  simp only [CanIssue]
  decide +kernel

theorem wit_MatrixIssue_fields :
    CanIssue edged ∧
    mxFieldsOk 6 (mo 0 false 1) = false ∧
    mxFieldsOk 1 (mo 2 false 0) = false := by
  simp only [CanIssue]
  decide +kernel

theorem wit_MatrixIssue_increments :
    CanIssue stepping ∧
    MatrixAccepts stepping 1 moving ∧
    moving.inc = true ∧
    (((me stepping).desc 0).getD 3 0).testBit 56 = true ∧
    (((me stepping).desc 0).getD 3 0).testBit 57 = true := by
  simp only [CanIssue, MatrixAccepts, TokenFree]
  decide +kernel

theorem wit_MatrixStarts_ready :
    ((mxQueued (.mstep (mo 0 false 0))).eng 384).mxq.length = 1 ∧
    mxReady (mxQueued (.mstep (mo 0 false 0))) 384 0 = true := by decide +kernel

theorem wit_MatrixStarts_zero :
    mxReady (mxQueued (.mzero (mo 0 false 0))) 384 0 = true ∧
    (mxHead (mxQueued (.mzero (mo 0 false 0)))).op = 6 := by decide +kernel

theorem wit_MatrixStarts_token_error :
    mxReady tokenBad 384 0 = true ∧
    (mxHead tokenBad).after = false ∧
    (tokenBad.ownerCtx (mxHead tokenBad).iss).tinsErr (mxHead tokenBad).tins = true := by decide +kernel

theorem wit_MatrixStarts_waits :
    ((mxRunning (.mstep (mo 0 false 0))).eng 384).mxq.all (fun r => r.iss.seq == 0 && r.iss.stage == .running) = true ∧
    ((done (.mzero ⟨2, 0, false, false, false, false, false, 0, false, 6, 5, 63, 63, 0, 0⟩) (mxQueued (.mstep (mo 0 false 0)))).eng 384).mxq.any (fun r => r.iss.seq == 1 && r.iss.stage == .queued && r.tins.contains 5) = true ∧
    ((done (.mzero ⟨2, 0, false, false, false, false, false, 0, false, 6, 5, 63, 63, 0, 0⟩) (mxQueued (.mstep (mo 0 false 0)))).ctx 1536).tokSet 5 = false := by decide +kernel

theorem wit_MatrixStarts_same_half :
    (∃ p ∈ ((done (.mstep ⟨0, 0, false, false, false, false, false, 0, false, 6, 63, 63, 63, 0, 0⟩) (mxRunning (.mstep (mo 0 false 0)))).eng 384).mxq, p.iss.stage = .running ∧ p.fed = false ∧ drainOp p.op = drainOp 1) ∧
    (∃ p ∈ ((done (.mstep ⟨0, 0, false, false, false, false, false, 0, false, 6, 63, 63, 63, 0, 0⟩) (mxQueued (.mstep (mo 0 false 0)))).eng 384).mxq, p.iss.seq < 1 ∧ p.iss.stage = .queued ∧ drainOp p.op = drainOp 1) := by decide +kernel

theorem wit_MatrixStarts_hazard :
    (∃ p ∈ ((done (.mfin ⟨0, 0, false, false, false, false, false, 0, false, 6, 63, 63, 63, 0, 0⟩) (mxRunning (.mstep (mo 0 false 0)))).eng 384).mxq, ∃ r ∈ ((done (.mfin ⟨0, 0, false, false, false, false, false, 0, false, 6, 63, 63, 63, 0, 0⟩) (mxRunning (.mstep (mo 0 false 0)))).eng 384).mxq, p.iss.seq < 1 ∧ r.iss.seq = 1 ∧ hazard p r = true) := by decide +kernel

theorem wit_MatrixCompletes_mstep :
    RunsMx (mxRunning (.mstep (mo 0 false 0))) 384 0 (mxHead (mxRunning (.mstep (mo 0 false 0)))) ∧
    Owner (mxRunning (.mstep (mo 0 false 0))) (mxHead (mxRunning (.mstep (mo 0 false 0)))).iss 1536 ∧
    (mxHead (mxRunning (.mstep (mo 0 false 0)))).o.tout < 64 ∧
    (mxHead (mxRunning (.mstep (mo 0 false 0)))).iss.poisoned = false ∧
    mxFault (mxRunning (.mstep (mo 0 false 0))) 384 (mxHead (mxRunning (.mstep (mo 0 false 0)))) = none ∧
    ((mxHead (mxRunning (.mstep (mo 0 false 0)))).edgeA ((mxHead (mxRunning (.mstep (mo 0 false 0)))).o.kk + 1)).fam.isSome = true ∧
    (mxHead (mxRunning (.mstep (mo 0 false 0)))).edgeB.fam.isSome = true ∧
    (mxHead (mxRunning (.mstep (mo 0 false 0)))).hitA = none ∧
    (mxHead (mxRunning (.mstep (mo 0 false 0)))).hitB = none ∧
    (mxHead (mxRunning (.mstep (mo 0 false 0)))).raced = false := by
  simp only [RunsMx, Owner]
  decide +kernel

theorem wit_MatrixCompletes_mstepG :
    RunsMx (mxRunning (.mstepG (mo 1 true 0))) 384 0 (mxHead (mxRunning (.mstepG (mo 1 true 0)))) ∧
    Owner (mxRunning (.mstepG (mo 1 true 0))) (mxHead (mxRunning (.mstepG (mo 1 true 0)))).iss 1536 ∧
    (mxHead (mxRunning (.mstepG (mo 1 true 0)))).o.tout < 64 ∧
    (mxHead (mxRunning (.mstepG (mo 1 true 0)))).iss.poisoned = false ∧
    mxFault (mxRunning (.mstepG (mo 1 true 0))) 384 (mxHead (mxRunning (.mstepG (mo 1 true 0)))) = none ∧
    ((mxHead (mxRunning (.mstepG (mo 1 true 0)))).edgeA ((mxHead (mxRunning (.mstepG (mo 1 true 0)))).o.kk + 1)).fam.isSome = true ∧
    (mxHead (mxRunning (.mstepG (mo 1 true 0)))).edgeB.fam.isSome = true := by
  simp only [RunsMx, Owner]
  decide +kernel

theorem wit_MatrixCompletes_mpre :
    RunsMx (mxRunning (.mpre (mo 0 false 0))) 384 0 (mxHead (mxRunning (.mpre (mo 0 false 0)))) ∧
    Owner (mxRunning (.mpre (mo 0 false 0))) (mxHead (mxRunning (.mpre (mo 0 false 0)))).iss 1536 ∧
    (mxHead (mxRunning (.mpre (mo 0 false 0)))).o.tout < 64 ∧
    (mxHead (mxRunning (.mpre (mo 0 false 0)))).iss.poisoned = false ∧
    mxFault (mxRunning (.mpre (mo 0 false 0))) 384 (mxHead (mxRunning (.mpre (mo 0 false 0)))) = none ∧
    ((mxRunning (.mpre (mo 0 false 0))).ctx (mxHead (mxRunning (.mpre (mo 0 false 0)))).iss.ctx).seq.run ≠ .halted ∧
    (mxHead (mxRunning (.mpre (mo 0 false 0)))).edgeB.fam.isSome = true ∧
    (mxHead (mxRunning (.mpre (mo 0 false 0)))).hitB = none ∧
    (mxHead (mxRunning (.mpre (mo 0 false 0)))).raced = false := by
  simp only [RunsMx, Owner]
  decide +kernel

theorem wit_MatrixCompletes_mfin :
    RunsMx (mxRunning (.mfin (mo 3 false 0))) 384 0 (mxHead (mxRunning (.mfin (mo 3 false 0)))) ∧
    Owner (mxRunning (.mfin (mo 3 false 0))) (mxHead (mxRunning (.mfin (mo 3 false 0)))).iss 1536 ∧
    (mxHead (mxRunning (.mfin (mo 3 false 0)))).o.tout < 64 ∧
    (mxHead (mxRunning (.mfin (mo 3 false 0)))).iss.poisoned = false ∧
    mxFault (mxRunning (.mfin (mo 3 false 0))) 384 (mxHead (mxRunning (.mfin (mo 3 false 0)))) = none ∧
    (((mxRunning (.mfin (mo 3 false 0))).eng 384).bank (mxHead (mxRunning (.mfin (mo 3 false 0)))).bank).raced = false ∧
    (mxHead (mxRunning (.mfin (mo 3 false 0)))).op = 5 := by
  simp only [RunsMx, Owner]
  decide +kernel

theorem wit_MatrixCompletes_mzero :
    RunsMx (mxRunning (.mzero (mo 3 false 0))) 384 0 (mxHead (mxRunning (.mzero (mo 3 false 0)))) ∧
    Owner (mxRunning (.mzero (mo 3 false 0))) (mxHead (mxRunning (.mzero (mo 3 false 0)))).iss 1536 ∧
    (mxHead (mxRunning (.mzero (mo 3 false 0)))).o.tout < 64 ∧
    (mxHead (mxRunning (.mzero (mo 3 false 0)))).iss.poisoned = false ∧
    mxFault (mxRunning (.mzero (mo 3 false 0))) 384 (mxHead (mxRunning (.mzero (mo 3 false 0)))) = none ∧
    (mxHead (mxRunning (.mzero (mo 3 false 0)))).op = 6 := by
  simp only [RunsMx, Owner]
  decide +kernel

theorem wit_MatrixCompletes_mcld :
    RunsMx (mxRunning (.mcld (mo 0 false 0))) 384 0 (mxHead (mxRunning (.mcld (mo 0 false 0)))) ∧
    Owner (mxRunning (.mcld (mo 0 false 0))) (mxHead (mxRunning (.mcld (mo 0 false 0)))).iss 1536 ∧
    (mxHead (mxRunning (.mcld (mo 0 false 0)))).o.tout < 64 ∧
    (mxHead (mxRunning (.mcld (mo 0 false 0)))).iss.poisoned = false ∧
    mxFault (mxRunning (.mcld (mo 0 false 0))) 384 (mxHead (mxRunning (.mcld (mo 0 false 0)))) = none ∧
    (mxHead (mxRunning (.mcld (mo 0 false 0)))).raced = false ∧
    (mxHead (mxRunning (.mcld (mo 0 false 0)))).op = 8 := by
  simp only [RunsMx, Owner]
  decide +kernel

theorem wit_MatrixCompletes_mscl :
    RunsMx (mxRunning (.mscl (mo 1 false 0))) 384 0 (mxHead (mxRunning (.mscl (mo 1 false 0)))) ∧
    Owner (mxRunning (.mscl (mo 1 false 0))) (mxHead (mxRunning (.mscl (mo 1 false 0)))).iss 1536 ∧
    (mxHead (mxRunning (.mscl (mo 1 false 0)))).o.tout < 64 ∧
    (mxHead (mxRunning (.mscl (mo 1 false 0)))).iss.poisoned = false ∧
    mxFault (mxRunning (.mscl (mo 1 false 0))) 384 (mxHead (mxRunning (.mscl (mo 1 false 0)))) = none ∧
    (mxHead (mxRunning (.mscl (mo 1 false 0)))).raced = false ∧
    (mxHead (mxRunning (.mscl (mo 1 false 0)))).op = 10 := by
  simp only [RunsMx, Owner]
  decide +kernel

theorem wit_MatrixCompletes_mcinv :
    RunsMx (mxRunning (.mcinv (mo 2 false 0))) 384 0 (mxHead (mxRunning (.mcinv (mo 2 false 0)))) ∧
    Owner (mxRunning (.mcinv (mo 2 false 0))) (mxHead (mxRunning (.mcinv (mo 2 false 0)))).iss 1536 ∧
    (mxHead (mxRunning (.mcinv (mo 2 false 0)))).o.tout < 64 ∧
    (mxHead (mxRunning (.mcinv (mo 2 false 0)))).iss.poisoned = false ∧
    mxFault (mxRunning (.mcinv (mo 2 false 0))) 384 (mxHead (mxRunning (.mcinv (mo 2 false 0)))) = none ∧
    (mxHead (mxRunning (.mcinv (mo 2 false 0)))).o.zb = 2 ∧
    (mxHead (mxRunning (.mcinv (mo 2 false 0)))).op = 9 := by
  simp only [RunsMx, Owner]
  decide +kernel

theorem wit_MatrixCompletes_mcorr :
    RunsMx (mxRunning (.mcorr (mo 1 false 0))) 384 0 (mxHead (mxRunning (.mcorr (mo 1 false 0)))) ∧
    Owner (mxRunning (.mcorr (mo 1 false 0))) (mxHead (mxRunning (.mcorr (mo 1 false 0)))).iss 1536 ∧
    (mxHead (mxRunning (.mcorr (mo 1 false 0)))).o.tout < 64 ∧
    (mxHead (mxRunning (.mcorr (mo 1 false 0)))).iss.poisoned = false ∧
    mxFault (mxRunning (.mcorr (mo 1 false 0))) 384 (mxHead (mxRunning (.mcorr (mo 1 false 0)))) = none ∧
    (mxHead (mxRunning (.mcorr (mo 1 false 0)))).edge.fam.isSome = true ∧
    (mxHead (mxRunning (.mcorr (mo 1 false 0)))).raced = false ∧
    (mxHead (mxRunning (.mcorr (mo 1 false 0)))).o.cmode ≠ 2 := by
  simp only [RunsMx, Owner]
  decide +kernel

theorem wit_MatrixCompletes_hit :
    RunsMx (hitting) 384 0 (mxHead (hitting)) ∧
    Owner (hitting) (mxHead (hitting)).iss 1536 ∧
    (mxHead (hitting)).o.tout < 64 ∧
    (mxHead (hitting)).iss.poisoned = false ∧
    mxFault (hitting) 384 (mxHead (hitting)) = none ∧
    (mxHead hitting).hitB = some (List.replicate 128 9) ∧
    ((mxHead hitting).edgeA 1).fam ≠ some .ts8 ∧ (mxHead hitting).edgeB.fam ≠ some .ts8 := by
  simp only [RunsMx, Owner]
  decide +kernel

theorem wit_MatrixCompletes_mstepWs :
    RunsMx (stationed) 384 0 (mxHead (stationed)) ∧
    Owner (stationed) (mxHead (stationed)).iss 1536 ∧
    (mxHead (stationed)).o.tout < 64 ∧
    (mxHead (stationed)).iss.poisoned = false ∧
    mxFault (stationed) 384 (mxHead (stationed)) = none ∧
    ((stationed.eng 384).stat).isSome = true ∧
    ((mxHead stationed).edgeA 1).fam.isSome = true ∧
    (famOf 2 false).isSome = true := by
  simp only [RunsMx, Owner]
  decide +kernel

theorem wit_MatrixCompletes_record :
    RunsMx (recording) 384 0 (mxHead (recording)) ∧
    Owner (recording) (mxHead (recording)).iss 1536 ∧
    (mxHead (recording)).o.tout < 64 ∧
    (mxHead (recording)).iss.poisoned = false ∧
    mxFault (recording) 384 (mxHead (recording)) = none ∧
    (mxHead recording).o.cmode = 2 ∧
    (mxHead recording).edge.fam.isSome = true ∧
    (mxHead recording).raced = false := by
  simp only [RunsMx, Owner]
  decide +kernel

theorem wit_MatrixCompletes_twin_mcorr :
    RunsMx (twinning (.mcorr (mo 1 false 31))) 384 0 (mxHead (twinning (.mcorr (mo 1 false 31)))) ∧
    Owner (twinning (.mcorr (mo 1 false 31))) (mxHead (twinning (.mcorr (mo 1 false 31)))).iss 1536 ∧
    (mxHead (twinning (.mcorr (mo 1 false 31)))).o.tout < 64 ∧
    (mxHead (twinning (.mcorr (mo 1 false 31)))).iss.poisoned = false ∧
    mxFault (twinning (.mcorr (mo 1 false 31))) 384 (mxHead (twinning (.mcorr (mo 1 false 31)))) = none ∧
    (mxHead (twinning (.mcorr (mo 1 false 31)))).edge.fam = some .ts8 := by
  simp only [RunsMx, Owner]
  decide +kernel

theorem wit_MatrixCompletes_twin_step :
    RunsMx (twinning (.mstep (mo 0 false 31))) 384 0 (mxHead (twinning (.mstep (mo 0 false 31)))) ∧
    Owner (twinning (.mstep (mo 0 false 31))) (mxHead (twinning (.mstep (mo 0 false 31)))).iss 1536 ∧
    (mxHead (twinning (.mstep (mo 0 false 31)))).o.tout < 64 ∧
    (mxHead (twinning (.mstep (mo 0 false 31)))).iss.poisoned = false ∧
    mxFault (twinning (.mstep (mo 0 false 31))) 384 (mxHead (twinning (.mstep (mo 0 false 31)))) = none ∧
    ((mxHead (twinning (.mstep (mo 0 false 31)))).edgeA 32).fam.isSome = true ∧
    (mxHead (twinning (.mstep (mo 0 false 31)))).edgeB.fam = some .ts8 := by
  simp only [RunsMx, Owner]
  decide +kernel

theorem wit_MatrixCompletes_behind :
    (∃ q ∈ (behindMx.eng 384).mxq, q.iss.seq = 1 ∧ q.iss.stage = .running ∧ ∃ p ∈ (behindMx.eng 384).mxq, p.iss.seq < 1 ∧ p.iss.stage = .running ∧ follows p q = true) ∧
    (behindMx.eng 384).mxq.all (fun q => q.iss.seq == 0 || q.iss.seq == 1) = true := by decide +kernel

theorem wit_MatrixCompletes_fault :
    RunsMx (mxRunning (.mstepWs (mo 0 false 0))) 384 0 (mxHead (mxRunning (.mstepWs (mo 0 false 0)))) ∧
    Owner (mxRunning (.mstepWs (mo 0 false 0))) (mxHead (mxRunning (.mstepWs (mo 0 false 0)))).iss 1536 ∧
    (mxHead (mxRunning (.mstepWs (mo 0 false 0)))).o.tout < 64 ∧
    (mxHead (mxRunning (.mstepWs (mo 0 false 0)))).iss.poisoned = false ∧
    mxFault (mxRunning (.mstepWs (mo 0 false 0))) 384 (mxHead (mxRunning (.mstepWs (mo 0 false 0)))) = some 0x42 ∧
    ((mxRunning (.mstepWs (mo 0 false 0))).ctx 1536).win.efclk ≠ (mxRunning (.mstepWs (mo 0 false 0))).clock + 1 := by
  simp only [RunsMx, Owner]
  decide +kernel

theorem wit_MatrixCompletes_bad :
    RunsMx ((unsound (.mstep (mo 0 false 0)))) 384 0 (mxHead ((unsound (.mstep (mo 0 false 0))))) ∧
    Owner ((unsound (.mstep (mo 0 false 0)))) (mxHead ((unsound (.mstep (mo 0 false 0))))).iss 1536 ∧
    (mxHead ((unsound (.mstep (mo 0 false 0))))).o.tout < 64 ∧
    (mxHead (unsound (.mstep (mo 0 false 0)))).fed = false ∧ (mxHead (unsound (.mstep (mo 0 false 0)))).iss.poisoned = false ∧ (mxHead (unsound (.mstep (mo 0 false 0)))).fault = none ∧
    (∃ g ∈ (unsound (.mstep (mo 0 false 0))).runReads 384 (mxHead (unsound (.mstep (mo 0 false 0)))), (unsound (.mstep (mo 0 false 0))).badIn .sp (384 * 2 ^ 24 + g.1) g.2 ≠ []) := by
  simp only [RunsMx, Owner]
  decide +kernel

theorem wit_MatrixCompletes_fed_mcorr :
    RunsMx ((fedRun (.mcorr (mo 1 false 0)))) 384 0 (mxHead ((fedRun (.mcorr (mo 1 false 0))))) ∧
    Owner ((fedRun (.mcorr (mo 1 false 0)))) (mxHead ((fedRun (.mcorr (mo 1 false 0))))).iss 1536 ∧
    (mxHead ((fedRun (.mcorr (mo 1 false 0))))).o.tout < 64 ∧
    (mxHead ((fedRun (.mcorr (mo 1 false 0))))).iss.poisoned = false ∧
    mxFault ((fedRun (.mcorr (mo 1 false 0)))) 384 (mxHead ((fedRun (.mcorr (mo 1 false 0))))) = none ∧
    (mxHead (fedRun (.mcorr (mo 1 false 0)))).fed = true ∧
    (mxHead (fedRun (.mcorr (mo 1 false 0)))).edge.fam.isSome = true ∧
    (mxHead (fedRun (.mcorr (mo 1 false 0)))).raced = false ∧
    (mxHead (fedRun (.mcorr (mo 1 false 0)))).hitA = none := by
  simp only [RunsMx, Owner]
  decide +kernel

theorem wit_MatrixCompletes_fed_mcld :
    RunsMx ((fedRun (.mcld (mo 0 false 0)))) 384 0 (mxHead ((fedRun (.mcld (mo 0 false 0))))) ∧
    Owner ((fedRun (.mcld (mo 0 false 0)))) (mxHead ((fedRun (.mcld (mo 0 false 0))))).iss 1536 ∧
    (mxHead ((fedRun (.mcld (mo 0 false 0))))).o.tout < 64 ∧
    (mxHead ((fedRun (.mcld (mo 0 false 0))))).iss.poisoned = false ∧
    mxFault ((fedRun (.mcld (mo 0 false 0)))) 384 (mxHead ((fedRun (.mcld (mo 0 false 0))))) = none ∧
    (mxHead (fedRun (.mcld (mo 0 false 0)))).fed = true ∧
    (mxHead (fedRun (.mcld (mo 0 false 0)))).raced = false := by
  simp only [RunsMx, Owner]
  decide +kernel

theorem wit_MatrixCompletes_fed_mcinv :
    RunsMx ((fedRun (.mcinv (mo 2 false 0)))) 384 0 (mxHead ((fedRun (.mcinv (mo 2 false 0))))) ∧
    Owner ((fedRun (.mcinv (mo 2 false 0)))) (mxHead ((fedRun (.mcinv (mo 2 false 0))))).iss 1536 ∧
    (mxHead ((fedRun (.mcinv (mo 2 false 0))))).o.tout < 64 ∧
    (mxHead ((fedRun (.mcinv (mo 2 false 0))))).iss.poisoned = false ∧
    mxFault ((fedRun (.mcinv (mo 2 false 0)))) 384 (mxHead ((fedRun (.mcinv (mo 2 false 0))))) = none ∧
    (mxHead (fedRun (.mcinv (mo 2 false 0)))).fed = true := by
  simp only [RunsMx, Owner]
  decide +kernel

theorem wit_MatrixCompletes_poisoned :
    RunsMx (poisonedMx) 384 0 (mxHead (poisonedMx)) ∧
    Owner (poisonedMx) (mxHead (poisonedMx)).iss 1536 ∧
    (mxHead (poisonedMx)).o.tout < 64 ∧
    (mxHead poisonedMx).iss.poisoned = true := by
  simp only [RunsMx, Owner]
  decide +kernel

theorem wit_CopyIssue_cpy :
    CanIssue copying ∧
    CopyAccepts copying (copyCands (begun copying) 1 (co 0)) (co 0) ∧
    (Instr.cpy (co 0), 1) ∈ copyRows (co 0) := by
  simp only [CanIssue, CopyAccepts, TokenFree]
  decide +kernel

theorem wit_CopyIssue_cpyf :
    CanIssue copying ∧
    CopyAccepts copying (copyCands (begun copying) 2 (co 1)) (co 1) ∧
    (Instr.cpyf (co 1), 2) ∈ copyRows (co 1) := by
  simp only [CanIssue, CopyAccepts, TokenFree]
  decide +kernel

theorem wit_CopyIssue_cpyt :
    CanIssue (patterned [(0, 0x100000), (1, 0x100), (2, 1), (3, 0x3200)]) ∧
    CopyAccepts (patterned [(0, 0x100000), (1, 0x100), (2, 1), (3, 0x3200)]) (copyCands (begun (patterned [(0, 0x100000), (1, 0x100), (2, 1), (3, 0x3200)])) 3 (co 0)) (co 0) ∧
    (Instr.cpyt (co 0), 3) ∈ copyRows (co 0) := by
  simp only [CanIssue, CopyAccepts, TokenFree]
  decide +kernel

theorem wit_CopyIssue_lblk :
    CanIssue copying ∧
    CopyAccepts copying (copyCands (begun copying) 4 (co 0)) (co 0) ∧
    (Instr.lblk (co 0), 4) ∈ copyRows (co 0) := by
  simp only [CanIssue, CopyAccepts, TokenFree]
  decide +kernel

theorem wit_CopyIssue_eblk :
    CanIssue copying ∧
    CopyAccepts copying (copyCands (begun copying) 5 (co 0)) (co 0) ∧
    (Instr.eblk (co 0), 5) ∈ copyRows (co 0) := by
  simp only [CanIssue, CopyAccepts, TokenFree]
  decide +kernel

theorem wit_CopyIssue_put :
    CanIssue copying ∧
    CopyAccepts copying (copyCands (begun copying) 6 (co 0)) (co 0) ∧
    (Instr.put (co 0), 6) ∈ copyRows (co 0) := by
  simp only [CanIssue, CopyAccepts, TokenFree]
  decide +kernel

theorem wit_CopyIssue_sread :
    CanIssue copying ∧
    CopyAccepts copying (copyCands (begun copying) 7 (co 0)) (co 0) ∧
    (Instr.sread (co 0), 7) ∈ copyRows (co 0) := by
  simp only [CanIssue, CopyAccepts, TokenFree]
  decide +kernel

theorem wit_CopyIssue_swrite :
    CanIssue copying ∧
    CopyAccepts copying (copyCands (begun copying) 8 (co 0)) (co 0) ∧
    (Instr.swrite (co 0), 8) ∈ copyRows (co 0) := by
  simp only [CanIssue, CopyAccepts, TokenFree]
  decide +kernel

theorem wit_CopyIssue_cfill :
    CanIssue copying ∧
    CopyAccepts copying (copyCands (begun copying) 9 (co 0)) (co 0) ∧
    (Instr.cfill (co 0), 9) ∈ copyRows (co 0) := by
  simp only [CanIssue, CopyAccepts, TokenFree]
  decide +kernel

theorem wit_CopyIssue_xcpy :
    CanIssue copying ∧
    CopyAccepts copying (copyCands (begun copying) 24 (co 0)) (co 0) ∧
    (Instr.xcpy (co 0), 24) ∈ copyRows (co 0) := by
  simp only [CanIssue, CopyAccepts, TokenFree]
  decide +kernel

theorem wit_CopyIssue_nput :
    CanIssue named ∧
    CopyAccepts named (namedCands (begun named) 16 (co 0)) (co 0) ∧
    (Instr.nput (co 0), 16) ∈ namedRows (co 0) := by
  simp only [CanIssue, CopyAccepts, TokenFree]
  decide +kernel

theorem wit_CopyIssue_nget :
    CanIssue named ∧
    CopyAccepts named (namedCands (begun named) 17 (co 0)) (co 0) ∧
    (Instr.nget (co 0), 17) ∈ namedRows (co 0) := by
  simp only [CanIssue, CopyAccepts, TokenFree]
  decide +kernel

theorem wit_CopyIssue_nref :
    CanIssue named ∧
    CopyAccepts named (namedCands (begun named) 18 (co 0)) (co 0) ∧
    (Instr.nref (co 0), 18) ∈ namedRows (co 0) := by
  simp only [CanIssue, CopyAccepts, TokenFree]
  decide +kernel

theorem wit_CopyIssue_nrel :
    CanIssue named ∧
    CopyAccepts named (namedCands (begun named) 19 (co 0)) (co 0) ∧
    (Instr.nrel (co 0), 19) ∈ namedRows (co 0) := by
  simp only [CanIssue, CopyAccepts, TokenFree]
  decide +kernel

theorem wit_CopyIssue_nswap :
    CanIssue named ∧
    CopyAccepts named (namedCands (begun named) 20 (co 0)) (co 0) ∧
    (Instr.nswap (co 0), 20) ∈ namedRows (co 0) := by
  simp only [CanIssue, CopyAccepts, TokenFree]
  decide +kernel

theorem wit_CopyIssue_nout :
    CanIssue named ∧
    CopyAccepts named (namedCands (begun named) 21 (co 0)) (co 0) ∧
    (Instr.nout (co 0), 21) ∈ namedRows (co 0) := by
  simp only [CanIssue, CopyAccepts, TokenFree]
  decide +kernel

theorem wit_CopyIssue_nstat :
    CanIssue named ∧
    CopyAccepts named (namedCands (begun named) 22 (co 0)) (co 0) ∧
    (Instr.nstat (co 0), 22) ∈ namedRows (co 0) := by
  simp only [CanIssue, CopyAccepts, TokenFree]
  decide +kernel

theorem wit_CopyIssue_no_region :
    CanIssue idle ∧
    (idle.region (me idle).win.nreg).inst = false := by
  simp only [CanIssue]
  decide +kernel

theorem wit_CopyIssue_stochastic :
    CanIssue drawing ∧
    CopyAccepts drawing (copyCands (begun drawing) 3 (co 0)) (co 0) ∧
    fld (me drawing).fmts.cvtctl 4 3 = 4 := by
  simp only [CanIssue, CopyAccepts, TokenFree]
  decide +kernel

theorem wit_CopyIssue_fill_select :
    2 * 2 ^ 58 + 2 ^ 20 < 2 ^ 64 ∧
    fld (2 * 2 ^ 58 + 2 ^ 20) 58 6 = 2 ∧
    bitAt (2 * 2 ^ 58 + 2 ^ 20) 20 = true ∧
    fld (0x16 * 2 ^ 58 + 2 ^ 20) 58 6 = 0x16 ∧
    bitAt (0x16 * 2 ^ 58 + 2 ^ 20) 20 = true := by decide +kernel

theorem wit_CopyStarts_ready :
    cpReady (cpQueued (.cpy (co 0))) 384 0 = true ∧
    ((cpQueued (.cpy (co 0))).eng 384).cpq.length = 1 ∧
    ((cpQueued (.cpy (co 0))).ownerCtx (cpHead (cpQueued (.cpy (co 0)))).iss).tinsErr [] = false := by decide +kernel

theorem wit_CopyStarts_sread :
    cpReady reading 384 0 = true ∧
    reading.nvmeOf 384 0 = [] ∧
    reading.handleValid (patHandle (cpHead reading).pat) = true ∧
    (cpHead reading).op = 7 := by decide +kernel

theorem wit_CopyStarts_no_handle :
    cpReady (cpQueued (.sread (co 0))) 384 0 = true ∧
    (cpQueued (.sread (co 0))).handleValid (patHandle (cpHead (cpQueued (.sread (co 0)))).pat) = false := by decide +kernel

theorem wit_CopyStarts_swrite :
    cpReady writing 384 0 = true ∧
    writing.nvmeOf 384 0 = [] ∧
    writing.handleValid (patHandle (cpHead writing).pat) = true ∧
    (match (nestBytes (cpHead writing) (patElems (cpHead writing).pat) writing).2 with | .ok raw => decide (raw.1.length = (fld (pw (cpHead writing).pat 0) 48 16 + 1) * writing.blockSize 0) | .error _ => false) = true ∧
    effFl 8 (cpHead writing).o (cpHead writing).pat = 0 := by decide +kernel

theorem wit_CopyStarts_nout :
    cpReady rooted 384 0 = true ∧
    (cpHead rooted).op = 0x15 ∧
    pw (cpHead rooted).pat 0 % 16 = 0 ∧
    OwnRange rooted 384 (cpHead rooted) (pw (cpHead rooted).pat 0) 16 ∧
    coreOf (cpHead rooted).iss.ctx = 384 := by
  simp only [OwnRange, Sound]
  decide +kernel

theorem wit_CopyStarts_span_held :
    (cpHead rootedAcross).op = 0x15 ∧
    (cpHead rootedAcross).spanHeld rootedAcross = true ∧
    (∀ p ∈ (rootedAcross.eng 384).cpq, p.iss.seq = 0 → p = cpHead rootedAcross) ∧
    (cpHead rooted).spanHeld rooted = false ∧
    (cpHead writing).spanHeld writing = false := by decide +kernel

theorem wit_CopyStarts_flume_held :
    flumeTurn expandingAcross 384 (cpHead expandingAcross) = true ∧
    flumeHeld expandingAcross 384 (cpHead expandingAcross) = true ∧
    flumeHeld expanding 384 (cpHead expanding) = false := by decide +kernel

theorem wit_CopyStarts_waits :
    ((cpRunning (.cpy (co 0))).eng 384).cpq.all (fun r => r.iss.seq == 0 && r.iss.stage == .running) = true ∧
    (∃ p ∈ ((done (.cfill ⟨0, 0, 6, 5, 63, 63, false, 0, false, 0⟩) (cpQueued (.cpy (co 0)))).eng 384).cpq, p.iss.stage = .queued ∧ p.iss.job = 1 ∧ p.iss.place = 0 ∧ p.iss.seq < 1) ∧
    ((done (.cfill ⟨0, 0, 6, 5, 63, 63, false, 0, false, 0⟩) (cpQueued (.cpy (co 0)))).ctx 1536).tokSet 5 = false := by decide +kernel

theorem wit_CopyStarts_full :
    8 ≤ (((busyCopies).eng 384).cpq.filter (fun p => p.iss.stage == .running)).length ∧
    ((busyCopies).eng 384).cpq.any (fun p => p.iss.seq == 8 && p.iss.stage == .queued) = true := by decide +kernel

theorem wit_CopyStarts_flume :
    (expanding.eng 384).cpq.any (fun r => r.iss.seq == 0 && flumeTurn expanding 384 r) = true ∧
    ((cpRunning (.cpy (co 0))).eng 384).cpq.any (fun r => r.iss.seq == 0 && !flumeTurn (cpRunning (.cpy (co 0))) 384 r) = true := by decide +kernel

theorem wit_CopyCompletes_waits :
    namedHeld expanding 384 (cpHead expanding) = false ∧
    RunsCp expanding 384 0 (cpHead expanding) ∧
    Owner expanding (cpHead expanding).iss 1536 ∧
    (cpHead expanding).o.tout < 64 ∧
    cpDone expanding 384 (cpHead expanding) = false := by
  simp only [RunsCp, Owner]
  decide +kernel

theorem wit_CopyCompletes_poisoned :
    namedHeld poisonedCp 384 (cpHead poisonedCp) = false ∧
    RunsCp poisonedCp 384 0 (cpHead poisonedCp) ∧
    Owner poisonedCp (cpHead poisonedCp).iss 1536 ∧
    (cpHead poisonedCp).o.tout < 64 ∧
    (cpHead poisonedCp).iss.poisoned = true := by
  simp only [RunsCp, Owner]
  decide +kernel

theorem wit_CopyCompletes_cpy :
    namedHeld (cpRunning (.cpy (co 0))) 384 (cpHead (cpRunning (.cpy (co 0)))) = false ∧
    RunsCp (cpRunning (.cpy (co 0))) 384 0 (cpHead (cpRunning (.cpy (co 0)))) ∧
    Owner (cpRunning (.cpy (co 0))) (cpHead (cpRunning (.cpy (co 0)))).iss 1536 ∧
    (cpHead (cpRunning (.cpy (co 0)))).o.tout < 64 ∧
    Untouched (cpRunning (.cpy (co 0))) 384 (cpHead (cpRunning (.cpy (co 0)))) ∧
    (cpHead (cpRunning (.cpy (co 0)))).op = 1 ∧
    OneElement (cpHead (cpRunning (.cpy (co 0)))) ⟨[0, 0, 0, 0, 0, 0], 0x100000, 0x100, false⟩ ∧
    OnePiece (cpRunning (.cpy (co 0))) (cpHead (cpRunning (.cpy (co 0)))) 0x100000 8 .load ⟨.sp, 384 * 2 ^ 24 + 0x100000, true, false, none⟩ ∧
    OnePiece (reached (cpRunning (.cpy (co 0))) (cpHead (cpRunning (.cpy (co 0)))) 0x100000 8 .load ⟨.sp, 384 * 2 ^ 24 + 0x100000, true, false, none⟩) (cpHead (cpRunning (.cpy (co 0)))) 0x100 8 .store ⟨.sp, 384 * 2 ^ 24 + 0x100, true, false, none⟩ ∧
    (cpHead (cpRunning (.cpy (co 0)))).counter = 0 ∧
    patEs (cpHead (cpRunning (.cpy (co 0)))).pat = 8 ∧
    patCarry (cpHead (cpRunning (.cpy (co 0)))).pat = false := by
  simp only [Untouched, OneElement, OnePiece, RunsCp, Owner, Sound]
  decide +kernel

theorem wit_CopyCompletes_put :
    namedHeld (cpRunning (.put (co 0))) 384 (cpHead (cpRunning (.put (co 0)))) = false ∧
    RunsCp (cpRunning (.put (co 0))) 384 0 (cpHead (cpRunning (.put (co 0)))) ∧
    Owner (cpRunning (.put (co 0))) (cpHead (cpRunning (.put (co 0)))).iss 1536 ∧
    (cpHead (cpRunning (.put (co 0)))).o.tout < 64 ∧
    Untouched (cpRunning (.put (co 0))) 384 (cpHead (cpRunning (.put (co 0)))) ∧
    (cpHead (cpRunning (.put (co 0)))).op = 6 ∧
    OneElement (cpHead (cpRunning (.put (co 0)))) ⟨[0, 0, 0, 0, 0, 0], 0x100000, 0x100, false⟩ ∧
    OnePiece (cpRunning (.put (co 0))) (cpHead (cpRunning (.put (co 0)))) 0x100000 8 .load ⟨.sp, 384 * 2 ^ 24 + 0x100000, true, false, none⟩ ∧
    OnePiece (reached (cpRunning (.put (co 0))) (cpHead (cpRunning (.put (co 0)))) 0x100000 8 .load ⟨.sp, 384 * 2 ^ 24 + 0x100000, true, false, none⟩) (cpHead (cpRunning (.put (co 0)))) 0x100 8 .store ⟨.sp, 384 * 2 ^ 24 + 0x100, true, false, none⟩ ∧
    (cpHead (cpRunning (.put (co 0)))).counter = 0 ∧
    patEs (cpHead (cpRunning (.put (co 0)))).pat = 8 ∧
    patCarry (cpHead (cpRunning (.put (co 0)))).pat = false := by
  simp only [Untouched, OneElement, OnePiece, RunsCp, Owner, Sound]
  decide +kernel

theorem wit_CopyCompletes_xcpy :
    namedHeld (cpRunning (.xcpy (co 0))) 384 (cpHead (cpRunning (.xcpy (co 0)))) = false ∧
    RunsCp (cpRunning (.xcpy (co 0))) 384 0 (cpHead (cpRunning (.xcpy (co 0)))) ∧
    Owner (cpRunning (.xcpy (co 0))) (cpHead (cpRunning (.xcpy (co 0)))).iss 1536 ∧
    (cpHead (cpRunning (.xcpy (co 0)))).o.tout < 64 ∧
    Untouched (cpRunning (.xcpy (co 0))) 384 (cpHead (cpRunning (.xcpy (co 0)))) ∧
    (cpHead (cpRunning (.xcpy (co 0)))).op = 0x18 ∧
    OneElement (cpHead (cpRunning (.xcpy (co 0)))) ⟨[0, 0, 0, 0, 0, 0], 0x100000, 0x100, false⟩ ∧
    OnePiece (cpRunning (.xcpy (co 0))) (cpHead (cpRunning (.xcpy (co 0)))) 0x100000 8 .load ⟨.sp, 384 * 2 ^ 24 + 0x100000, true, false, none⟩ ∧
    OnePiece (reached (cpRunning (.xcpy (co 0))) (cpHead (cpRunning (.xcpy (co 0)))) 0x100000 8 .load ⟨.sp, 384 * 2 ^ 24 + 0x100000, true, false, none⟩) (cpHead (cpRunning (.xcpy (co 0)))) 0x100 8 .store ⟨.sp, 384 * 2 ^ 24 + 0x100, true, false, none⟩ ∧
    (cpHead (cpRunning (.xcpy (co 0)))).counter = 0 := by
  simp only [Untouched, OneElement, OnePiece, RunsCp, Owner, Sound]
  decide +kernel

theorem wit_CopyCompletes_cfill :
    namedHeld (cpRunning (.cfill (co 0))) 384 (cpHead (cpRunning (.cfill (co 0)))) = false ∧
    RunsCp (cpRunning (.cfill (co 0))) 384 0 (cpHead (cpRunning (.cfill (co 0)))) ∧
    Owner (cpRunning (.cfill (co 0))) (cpHead (cpRunning (.cfill (co 0)))).iss 1536 ∧
    (cpHead (cpRunning (.cfill (co 0)))).o.tout < 64 ∧
    Untouched (cpRunning (.cfill (co 0))) 384 (cpHead (cpRunning (.cfill (co 0)))) ∧
    (cpHead (cpRunning (.cfill (co 0)))).op = 9 ∧
    OneElement (cpHead (cpRunning (.cfill (co 0)))) ⟨[0, 0, 0, 0, 0, 0], 0x100000, 0x100, false⟩ ∧
    OnePiece (cpRunning (.cfill (co 0))) (cpHead (cpRunning (.cfill (co 0)))) 0x100 8 .store ⟨.sp, 384 * 2 ^ 24 + 0x100, true, false, none⟩ ∧
    (cpHead (cpRunning (.cfill (co 0)))).counter = 0 := by
  simp only [Untouched, OneElement, OnePiece, RunsCp, Owner, Sound]
  decide +kernel

theorem wit_CopyCompletes_counts :
    namedHeld counting 384 (cpHead counting) = false ∧
    RunsCp counting 384 0 (cpHead counting) ∧
    Owner counting (cpHead counting).iss 1536 ∧
    (cpHead counting).o.tout < 64 ∧
    Untouched counting 384 (cpHead counting) ∧
    OneElement (cpHead counting) ⟨[0, 0, 0, 0, 0, 0], 0x100000, 0x100, false⟩ ∧
    OnePiece counting (cpHead counting) 0x100 8 .store ⟨.sp, 384 * 2 ^ 24 + 0x100, true, false, none⟩ ∧
    (cpHead counting).counter = 0x200 ∧
    (counting.engHit (cpHead counting) 0x200 .atomic) = .ok ⟨.sp, 384 * 2 ^ 24 + 0x200, true, false, none⟩ ∧
    Sound counting .sp (384 * 2 ^ 24 + 0x200) 8 := by
  simp only [Untouched, OneElement, OnePiece, Sound, RunsCp, Owner]
  decide +kernel

theorem wit_CopyCompletes_cpyf :
    namedHeld expanded 384 (cpHead expanded) = false ∧
    RunsCp expanded 384 0 (cpHead expanded) ∧
    Owner expanded (cpHead expanded).iss 1536 ∧
    (cpHead expanded).o.tout < 64 ∧
    Untouched expanded 384 (cpHead expanded) ∧
    OneElement (cpHead expanded) ⟨[0, 0, 0, 0, 0, 0], 0x100000, 0x100, false⟩ ∧
    (cpHead expanded).op = 2 ∧
    patEs (cpHead expanded).pat ≤ (cpHead expanded).data.length ∧
    OnePiece expanded (cpHead expanded) 0x100 8 .store ⟨.sp, 384 * 2 ^ 24 + 0x100, true, false, none⟩ := by
  simp only [Untouched, OneElement, OnePiece, RunsCp, Owner, Sound]
  decide +kernel

theorem wit_CopyCompletes_cpyt :
    (namedHeld (cpRunningIn converting (.cpyt (co 0))) 384 (cpHead (cpRunningIn converting (.cpyt (co 0)))) = false ∧
      RunsCp (cpRunningIn converting (.cpyt (co 0))) 384 0 (cpHead (cpRunningIn converting (.cpyt (co 0)))) ∧
      Owner (cpRunningIn converting (.cpyt (co 0))) (cpHead (cpRunningIn converting (.cpyt (co 0)))).iss 1536 ∧
      (cpHead (cpRunningIn converting (.cpyt (co 0)))).o.tout < 64 ∧
      Untouched (cpRunningIn converting (.cpyt (co 0))) 384 (cpHead (cpRunningIn converting (.cpyt (co 0)))) ∧
      (cpHead (cpRunningIn converting (.cpyt (co 0)))).op = 3) ∧
    (OneElement (cpHead (cpRunningIn converting (.cpyt (co 0)))) ⟨[0, 0, 0, 0, 0, 0], 0x100000, 0x100, false⟩ ∧
      OnePiece (cpRunningIn converting (.cpyt (co 0))) (cpHead (cpRunningIn converting (.cpyt (co 0)))) 0x100000 2 .load ⟨.sp, 384 * 2 ^ 24 + 0x100000, true, false, none⟩ ∧
      OnePiece (reached (cpRunningIn converting (.cpyt (co 0))) (cpHead (cpRunningIn converting (.cpyt (co 0)))) 0x100000 2 .load ⟨.sp, 384 * 2 ^ 24 + 0x100000, true, false, none⟩) (cpHead (cpRunningIn converting (.cpyt (co 0)))) 0x100 2 .store ⟨.sp, 384 * 2 ^ 24 + 0x100, true, false, none⟩ ∧
      memStream 3 (cpHead (cpRunningIn converting (.cpyt (co 0)))).o (cpHead (cpRunningIn converting (.cpyt (co 0)))).pat = false ∧
      patTop (cpHead (cpRunningIn converting (.cpyt (co 0)))).pat ≠ 2 ∧
      patRec (cpHead (cpRunningIn converting (.cpyt (co 0)))).pat = false) ∧
    ((transform (cpHead (cpRunningIn converting (.cpyt (co 0)))).pat (cpHead (cpRunningIn converting (.cpyt (co 0)))).cvtctl [some ((reached (cpRunningIn converting (.cpyt (co 0))) (cpHead (cpRunningIn converting (.cpyt (co 0)))) 0x100000 2 .load ⟨.sp, 384 * 2 ^ 24 + 0x100000, true, false, none⟩).readN .sp (384 * 2 ^ 24 + 0x100000) 2)]).vals = [some 0] ∧
      (transform (cpHead (cpRunningIn converting (.cpyt (co 0)))).pat (cpHead (cpRunningIn converting (.cpyt (co 0)))).cvtctl [some 0]).flags = [0] ∧
      dstBytes 3 (cpHead (cpRunningIn converting (.cpyt (co 0)))).pat = 2) := by
  simp only [Untouched, OneElement, OnePiece, RunsCp, Owner, Sound]
  refine ⟨by decide +kernel, by decide +kernel, by decide +kernel⟩

theorem wit_CopyCompletes_sread :
    namedHeld (staging 0 4 32) 384 (cpHead (staging 0 4 32)) = false ∧
    RunsCp (staging 0 4 32) 384 0 (cpHead (staging 0 4 32)) ∧
    Owner (staging 0 4 32) (cpHead (staging 0 4 32)).iss 1536 ∧
    (cpHead (staging 0 4 32)).o.tout < 64 ∧
    Untouched (staging 0 4 32) 384 (cpHead (staging 0 4 32)) ∧
    effFl 7 (cpHead (staging 0 4 32)).o (cpHead (staging 0 4 32)).pat = 0 ∧
    patEs (cpHead (staging 0 4 32)).pat ≤ 16 ∧
    ((staging 0 4 32).staged 384 0).length = patEs (cpHead (staging 0 4 32)).pat * (patElems (cpHead (staging 0 4 32)).pat).length ∧
    (∀ e ∈ patElems (cpHead (staging 0 4 32)).pat, e.clip = false) ∧
    (∀ e ∈ patElems (cpHead (staging 0 4 32)).pat, (staging 0 4 32).engHit (cpHead (staging 0 4 32)) e.dst .store = .ok ⟨.sp, 384 * 2 ^ 24 + e.dst, true, false, none⟩) := by
  simp only [Untouched, RunsCp, Owner]
  decide +kernel

theorem wit_CopyCompletes_sread_few :
    namedHeld (staging 0 3 1) 384 (cpHead (staging 0 3 1)) = false ∧
    RunsCp (staging 0 3 1) 384 0 (cpHead (staging 0 3 1)) ∧
    Owner (staging 0 3 1) (cpHead (staging 0 3 1)).iss 1536 ∧
    (cpHead (staging 0 3 1)).o.tout < 64 ∧
    Untouched (staging 0 3 1) 384 (cpHead (staging 0 3 1)) ∧
    OneElement (cpHead (staging 0 3 1)) ⟨[0, 0, 0, 0, 0, 0], 0, 0x100, false⟩ ∧
    ((staging 0 3 1).staged 384 0).length ≠ patEs (cpHead (staging 0 3 1)).pat ∧
    ((staging 0 3 1).ctx 1536).resident = true ∧
    ((staging 0 3 1).ctx 1536).win.efclk ≠ (staging 0 3 1).clock + 1 := by
  simp only [Untouched, OneElement, RunsCp, Owner]
  decide +kernel

theorem wit_CopyCompletes_sread_flume :
    namedHeld inflated 384 (cpHead inflated) = false ∧
    RunsCp inflated 384 0 (cpHead inflated) ∧
    Owner inflated (cpHead inflated).iss 1536 ∧
    (cpHead inflated).o.tout < 64 ∧
    Untouched inflated 384 (cpHead inflated) ∧
    OneElement (cpHead inflated) ⟨[0, 0, 0, 0, 0, 0], 0, 0x100, false⟩ ∧
    effFl 7 (cpHead inflated).o (cpHead inflated).pat ≠ 0 ∧
    (cpHead inflated).ended = true ∧
    patEs (cpHead inflated).pat ≤ (cpHead inflated).data.length ∧
    OnePiece inflated (cpHead inflated) 0x100 8 .store ⟨.sp, 384 * 2 ^ 24 + 0x100, true, false, none⟩ := by
  simp only [Untouched, OneElement, OnePiece, RunsCp, Owner, Sound]
  decide +kernel

theorem wit_CopyCompletes_swrite :
    namedHeld written 384 (cpHead written) = false ∧
    RunsCp written 384 0 (cpHead written) ∧
    Owner written (cpHead written).iss 1536 ∧
    (cpHead written).o.tout < 64 ∧
    Untouched written 384 (cpHead written) ∧
    (cpHead written).op = 8 ∧
    (cpHead written).counter = 0 := by
  simp only [Untouched, RunsCp, Owner]
  decide +kernel

theorem wit_CopyCompletes_fault :
    namedHeld unmapped 384 (cpHead unmapped) = false ∧
    RunsCp unmapped 384 0 (cpHead unmapped) ∧
    Owner unmapped (cpHead unmapped).iss 1536 ∧
    (cpHead unmapped).o.tout < 64 ∧
    Untouched unmapped 384 (cpHead unmapped) ∧
    OneElement (cpHead unmapped) ⟨[0, 0, 0, 0, 0, 0], 0x20000000, 0x100, false⟩ ∧
    pieces 0x20000000 8 = [(0x20000000, 8)] ∧
    unmapped.engHit (cpHead unmapped) 0x20000000 .load = .fault 0x50 0 ∧
    (unmapped.ctx 1536).win.efclk ≠ unmapped.clock + 1 ∧
    (unmapped.ctx 1536).resident = true := by
  simp only [Untouched, OneElement, RunsCp, Owner]
  decide +kernel

theorem wit_CopyCompletes_lost :
    namedHeld ((cpRunning (.cpy (co 0))).setWay 384 1 .cache) 384 (cpHead ((cpRunning (.cpy (co 0))).setWay 384 1 .cache)) = false ∧
    RunsCp ((cpRunning (.cpy (co 0))).setWay 384 1 .cache) 384 0 (cpHead ((cpRunning (.cpy (co 0))).setWay 384 1 .cache)) ∧
    Owner ((cpRunning (.cpy (co 0))).setWay 384 1 .cache) (cpHead ((cpRunning (.cpy (co 0))).setWay 384 1 .cache)).iss 1536 ∧
    (cpHead ((cpRunning (.cpy (co 0))).setWay 384 1 .cache)).o.tout < 64 ∧
    cpDone ((cpRunning (.cpy (co 0))).setWay 384 1 .cache) 384 (cpHead ((cpRunning (.cpy (co 0))).setWay 384 1 .cache)) = true ∧
    (cpHead ((cpRunning (.cpy (co 0))).setWay 384 1 .cache)).iss.poisoned = false ∧
    (cpHead ((cpRunning (.cpy (co 0))).setWay 384 1 .cache)).gone = 0 ∧
    (((cpRunning (.cpy (co 0))).setWay 384 1 .cache).lostWays (cpHead ((cpRunning (.cpy (co 0))).setWay 384 1 .cache)).iss).head? = some 1 ∧
    (((cpRunning (.cpy (co 0))).setWay 384 1 .cache).ctx 1536).win.efclk ≠ ((cpRunning (.cpy (co 0))).setWay 384 1 .cache).clock + 1 := by
  simp only [RunsCp, Owner]
  decide +kernel

theorem wit_CopyCompletes_lblk :
    namedHeld (blocking 63) 384 (cpHead (blocking 63)) = false ∧
    RunsCp (blocking 63) 384 0 (cpHead (blocking 63)) ∧
    Owner (blocking 63) (cpHead (blocking 63)).iss 1536 ∧
    (cpHead (blocking 63)).o.tout < 64 ∧
    Untouched (blocking 63) 384 (cpHead (blocking 63)) ∧
    (cpHead (blocking 63)).op = 4 ∧
    (cpHead (blocking 63)).counter = 0 ∧
    lblkBad (blocking 63) (cpHead (blocking 63)) (pw (cpHead (blocking 63)).pat 0) (patLevel (cpHead (blocking 63)).pat 0).n = [] ∧
    (match (engRead (blocking 63) (cpHead (blocking 63)) (pw (cpHead (blocking 63)).pat 0) (128 * (patLevel (cpHead (blocking 63)).pat 0).n)).2 with | .ok _ => true | .error _ => false) = true ∧
    ((blocking 63).core 384).blocks.length < 64 ∧
    (∃ w < 16, (blocking 63).way 384 w = .cache) ∧
    (∀ w < 16, (blocking 63).way 384 w = .cache → lockedIn (blocking 63) 384 w + (patLevel (cpHead (blocking 63)).pat 0).n ≤ 8192) := by
  simp only [Untouched, RunsCp, Owner]
  decide +kernel

theorem wit_CopyCompletes_lblk_full :
    namedHeld (blocking 64) 384 (cpHead (blocking 64)) = false ∧
    RunsCp (blocking 64) 384 0 (cpHead (blocking 64)) ∧
    Owner (blocking 64) (cpHead (blocking 64)).iss 1536 ∧
    (cpHead (blocking 64)).o.tout < 64 ∧
    Untouched (blocking 64) 384 (cpHead (blocking 64)) ∧
    64 ≤ ((blocking 64).core 384).blocks.length ∧
    lblkBad (blocking 64) (cpHead (blocking 64)) (pw (cpHead (blocking 64)).pat 0) 1 = [] := by
  simp only [Untouched, RunsCp, Owner]
  decide +kernel

theorem wit_CopyCompletes_eblk :
    namedHeld (cpRunning (.eblk (co 0))) 384 (cpHead (cpRunning (.eblk (co 0)))) = false ∧
    RunsCp (cpRunning (.eblk (co 0))) 384 0 (cpHead (cpRunning (.eblk (co 0)))) ∧
    Owner (cpRunning (.eblk (co 0))) (cpHead (cpRunning (.eblk (co 0)))).iss 1536 ∧
    (cpHead (cpRunning (.eblk (co 0)))).o.tout < 64 ∧
    Untouched (cpRunning (.eblk (co 0))) 384 (cpHead (cpRunning (.eblk (co 0)))) ∧
    (cpHead (cpRunning (.eblk (co 0)))).op = 5 ∧
    (cpHead (cpRunning (.eblk (co 0)))).counter = 0 ∧
    coreOf (cpHead (cpRunning (.eblk (co 0)))).iss.ctx = 384 := by
  simp only [Untouched, RunsCp, Owner]
  decide +kernel

theorem wit_CopyCompletes_eblk_block :
    namedHeld unblocking 384 (cpHead unblocking) = false ∧
    RunsCp unblocking 384 0 (cpHead unblocking) ∧
    Owner unblocking (cpHead unblocking).iss 1536 ∧
    (cpHead unblocking).o.tout < 64 ∧
    Untouched unblocking 384 (cpHead unblocking) ∧
    (cpHead unblocking).op = 5 ∧ (cpHead unblocking).counter = 0 ∧
    ((unblocking.core 384).blocks.filter (fun b => b.va == pw (cpHead unblocking).pat 0 && b.asid == unblocking.asidOf (cpHead unblocking).iss.job)).length = 1 := by
  simp only [Untouched, RunsCp, Owner]
  decide +kernel

theorem wit_NamedCompletes_nput_zero :
    (namedHeld (nputOf (lined 1) 0 0) 384 (cpHead (nputOf (lined 1) 0 0)) = false ∧
      RunsCp (nputOf (lined 1) 0 0) 384 0 (cpHead (nputOf (lined 1) 0 0)) ∧
      Owner (nputOf (lined 1) 0 0) (cpHead (nputOf (lined 1) 0 0)).iss 1536 ∧
      (cpHead (nputOf (lined 1) 0 0)).o.tout < 64 ∧
      (nputOf (lined 1) 0 0).mem.loose.any (Loose.meets Space.sp.code (384 * 2 ^ 24) (2 ^ 24)) = false ∧
      cpDone (nputOf (lined 1) 0 0) 384 (cpHead (nputOf (lined 1) 0 0)) = true ∧ (cpHead (nputOf (lined 1) 0 0)).iss.poisoned = false ∧ (cpHead (nputOf (lined 1) 0 0)).fault = none ∧ (cpHead (nputOf (lined 1) 0 0)).acts = 0 ∧ (cpHead (nputOf (lined 1) 0 0)).got = [] ∧ (cpHead (nputOf (lined 1) 0 0)).lost = [] ∧ (cpHead (nputOf (lined 1) 0 0)).gone = 0) ∧
    ((nputOf (lined 1) 0 0).lostWays (cpHead (nputOf (lined 1) 0 0)).iss = [] ∧
      (cpHead (nputOf (lined 1) 0 0)).removed (nputOf (lined 1) 0 0) = false ∧
      coreOf (cpHead (nputOf (lined 1) 0 0)).iss.ctx = 384 ∧
      (cpHead (nputOf (lined 1) 0 0)).counter = 0 ∧
      namedN (cpHead (nputOf (lined 1) 0 0)).pat = 1 ∧
      (cpHead (nputOf (lined 1) 0 0)).op = 0x10) ∧
    ((∀ g ∈ namedOwn 0x10 (cpHead (nputOf (lined 1) 0 0)).pat, g.1 % g.2.1 = 0 ∧ OwnRange (nputOf (lined 1) 0 0) 384 (cpHead (nputOf (lined 1) 0 0)) g.1 g.2.2) ∧
      (cpHead (nputOf (lined 1) 0 0)).acc = [] ∧
      pw (cpHead (nputOf (lined 1) 0 0)).pat 1 + 16 ≤ patRecs (cpHead (nputOf (lined 1) 0 0)).pat ∨ patRecs (cpHead (nputOf (lined 1) 0 0)).pat + 64 ≤ pw (cpHead (nputOf (lined 1) 0 0)).pat 1 ∧
      ownBytes (nputOf (lined 1) 0 0) 384 (pw (cpHead (nputOf (lined 1) 0 0)).pat 0) 128 = 0) := by
  simp only [OwnRange, RunsCp, Owner, Sound]
  refine ⟨by decide +kernel, by decide +kernel, by decide +kernel⟩

theorem wit_NamedCompletes_nput_present :
    (namedHeld (nputOf (holding 4096) 0 7) 384 (cpHead (nputOf (holding 4096) 0 7)) = false ∧
      RunsCp (nputOf (holding 4096) 0 7) 384 0 (cpHead (nputOf (holding 4096) 0 7)) ∧
      Owner (nputOf (holding 4096) 0 7) (cpHead (nputOf (holding 4096) 0 7)).iss 1536 ∧
      (cpHead (nputOf (holding 4096) 0 7)).o.tout < 64 ∧
      (nputOf (holding 4096) 0 7).mem.loose.any (Loose.meets Space.sp.code (384 * 2 ^ 24) (2 ^ 24)) = false ∧
      cpDone (nputOf (holding 4096) 0 7) 384 (cpHead (nputOf (holding 4096) 0 7)) = true ∧ (cpHead (nputOf (holding 4096) 0 7)).iss.poisoned = false ∧ (cpHead (nputOf (holding 4096) 0 7)).fault = none ∧ (cpHead (nputOf (holding 4096) 0 7)).acts = 0 ∧ (cpHead (nputOf (holding 4096) 0 7)).got = [] ∧ (cpHead (nputOf (holding 4096) 0 7)).lost = [] ∧ (cpHead (nputOf (holding 4096) 0 7)).gone = 0) ∧
    ((nputOf (holding 4096) 0 7).lostWays (cpHead (nputOf (holding 4096) 0 7)).iss = [] ∧
      (cpHead (nputOf (holding 4096) 0 7)).removed (nputOf (holding 4096) 0 7) = false ∧
      coreOf (cpHead (nputOf (holding 4096) 0 7)).iss.ctx = 384 ∧
      (cpHead (nputOf (holding 4096) 0 7)).counter = 0 ∧
      namedN (cpHead (nputOf (holding 4096) 0 7)).pat = 1 ∧
      (cpHead (nputOf (holding 4096) 0 7)).op = 0x10) ∧
    ((∀ g ∈ namedOwn 0x10 (cpHead (nputOf (holding 4096) 0 7)).pat, g.1 % g.2.1 = 0 ∧ OwnRange (nputOf (holding 4096) 0 7) 384 (cpHead (nputOf (holding 4096) 0 7)) g.1 g.2.2) ∧
      (cpHead (nputOf (holding 4096) 0 7)).acc = [] ∧
      pw (cpHead (nputOf (holding 4096) 0 7)).pat 1 + 16 ≤ patRecs (cpHead (nputOf (holding 4096) 0 7)).pat ∨ patRecs (cpHead (nputOf (holding 4096) 0 7)).pat + 64 ≤ pw (cpHead (nputOf (holding 4096) 0 7)).pat 1 ∧
      ownBytes (nputOf (holding 4096) 0 7) 384 (pw (cpHead (nputOf (holding 4096) 0 7)).pat 0) 128 ≠ 0 ∧
      pw (cpHead (nputOf (holding 4096) 0 7)).pat 3 % 2 = 0 ∧
      ((holding 4096).lookup false 7).2 = .name (mkName (lineHash 0 8 false 7) false 0) false) := by
  simp only [OwnRange, RunsCp, Owner, Sound]
  refine ⟨by decide +kernel, by decide +kernel, by decide +kernel⟩

theorem wit_NamedCompletes_nput_new :
    (namedHeld (nputOf (holding 4096) 0 8) 384 (cpHead (nputOf (holding 4096) 0 8)) = false ∧
      RunsCp (nputOf (holding 4096) 0 8) 384 0 (cpHead (nputOf (holding 4096) 0 8)) ∧
      Owner (nputOf (holding 4096) 0 8) (cpHead (nputOf (holding 4096) 0 8)).iss 1536 ∧
      (cpHead (nputOf (holding 4096) 0 8)).o.tout < 64 ∧
      (nputOf (holding 4096) 0 8).mem.loose.any (Loose.meets Space.sp.code (384 * 2 ^ 24) (2 ^ 24)) = false ∧
      cpDone (nputOf (holding 4096) 0 8) 384 (cpHead (nputOf (holding 4096) 0 8)) = true ∧ (cpHead (nputOf (holding 4096) 0 8)).iss.poisoned = false ∧ (cpHead (nputOf (holding 4096) 0 8)).fault = none ∧ (cpHead (nputOf (holding 4096) 0 8)).acts = 0 ∧ (cpHead (nputOf (holding 4096) 0 8)).got = [] ∧ (cpHead (nputOf (holding 4096) 0 8)).lost = [] ∧ (cpHead (nputOf (holding 4096) 0 8)).gone = 0) ∧
    ((nputOf (holding 4096) 0 8).lostWays (cpHead (nputOf (holding 4096) 0 8)).iss = [] ∧
      (cpHead (nputOf (holding 4096) 0 8)).removed (nputOf (holding 4096) 0 8) = false ∧
      coreOf (cpHead (nputOf (holding 4096) 0 8)).iss.ctx = 384 ∧
      (cpHead (nputOf (holding 4096) 0 8)).counter = 0 ∧
      namedN (cpHead (nputOf (holding 4096) 0 8)).pat = 1 ∧
      (cpHead (nputOf (holding 4096) 0 8)).op = 0x10) ∧
    ((∀ g ∈ namedOwn 0x10 (cpHead (nputOf (holding 4096) 0 8)).pat, g.1 % g.2.1 = 0 ∧ OwnRange (nputOf (holding 4096) 0 8) 384 (cpHead (nputOf (holding 4096) 0 8)) g.1 g.2.2) ∧
      (cpHead (nputOf (holding 4096) 0 8)).acc = [] ∧
      pw (cpHead (nputOf (holding 4096) 0 8)).pat 1 + 16 ≤ patRecs (cpHead (nputOf (holding 4096) 0 8)).pat ∨ patRecs (cpHead (nputOf (holding 4096) 0 8)).pat + 64 ≤ pw (cpHead (nputOf (holding 4096) 0 8)).pat 1 ∧
      ownBytes (nputOf (holding 4096) 0 8) 384 (pw (cpHead (nputOf (holding 4096) 0 8)).pat 0) 128 = 8 ∧
      (match ((holding 4096).lookup false 8).2 with | .name _ true => true | _ => false) = true) := by
  simp only [OwnRange, RunsCp, Owner, Sound]
  refine ⟨by decide +kernel, by decide +kernel, by decide +kernel⟩

theorem wit_NamedCompletes_nput_nfull :
    (namedHeld (nputOf (holding 1) 0 8) 384 (cpHead (nputOf (holding 1) 0 8)) = false ∧
      RunsCp (nputOf (holding 1) 0 8) 384 0 (cpHead (nputOf (holding 1) 0 8)) ∧
      Owner (nputOf (holding 1) 0 8) (cpHead (nputOf (holding 1) 0 8)).iss 1536 ∧
      (cpHead (nputOf (holding 1) 0 8)).o.tout < 64 ∧
      (nputOf (holding 1) 0 8).mem.loose.any (Loose.meets Space.sp.code (384 * 2 ^ 24) (2 ^ 24)) = false ∧
      cpDone (nputOf (holding 1) 0 8) 384 (cpHead (nputOf (holding 1) 0 8)) = true ∧ (cpHead (nputOf (holding 1) 0 8)).iss.poisoned = false ∧ (cpHead (nputOf (holding 1) 0 8)).fault = none ∧ (cpHead (nputOf (holding 1) 0 8)).acts = 0 ∧ (cpHead (nputOf (holding 1) 0 8)).got = [] ∧ (cpHead (nputOf (holding 1) 0 8)).lost = [] ∧ (cpHead (nputOf (holding 1) 0 8)).gone = 0) ∧
    ((nputOf (holding 1) 0 8).lostWays (cpHead (nputOf (holding 1) 0 8)).iss = [] ∧
      (cpHead (nputOf (holding 1) 0 8)).removed (nputOf (holding 1) 0 8) = false ∧
      coreOf (cpHead (nputOf (holding 1) 0 8)).iss.ctx = 384 ∧
      (cpHead (nputOf (holding 1) 0 8)).counter = 0 ∧
      namedN (cpHead (nputOf (holding 1) 0 8)).pat = 1 ∧
      (cpHead (nputOf (holding 1) 0 8)).op = 0x10) ∧
    ((∀ g ∈ namedOwn 0x10 (cpHead (nputOf (holding 1) 0 8)).pat, g.1 % g.2.1 = 0 ∧ OwnRange (nputOf (holding 1) 0 8) 384 (cpHead (nputOf (holding 1) 0 8)) g.1 g.2.2) ∧
      (cpHead (nputOf (holding 1) 0 8)).acc = [] ∧
      pw (cpHead (nputOf (holding 1) 0 8)).pat 1 + 16 ≤ patRecs (cpHead (nputOf (holding 1) 0 8)).pat ∨ patRecs (cpHead (nputOf (holding 1) 0 8)).pat + 64 ≤ pw (cpHead (nputOf (holding 1) 0 8)).pat 1 ∧
      ownBytes (nputOf (holding 1) 0 8) 384 (pw (cpHead (nputOf (holding 1) 0 8)).pat 0) 128 = 8 ∧
      ((holding 1).lookup false 8).2 = .nfull) := by
  simp only [OwnRange, RunsCp, Owner, Sound]
  refine ⟨by decide +kernel, by decide +kernel, by decide +kernel⟩

theorem wit_NamedCompletes_nput_collex :
    (namedHeld (nputOf (bucketed) 0 8) 384 (cpHead (nputOf (bucketed) 0 8)) = false ∧
      RunsCp (nputOf (bucketed) 0 8) 384 0 (cpHead (nputOf (bucketed) 0 8)) ∧
      Owner (nputOf (bucketed) 0 8) (cpHead (nputOf (bucketed) 0 8)).iss 1536 ∧
      (cpHead (nputOf (bucketed) 0 8)).o.tout < 64 ∧
      (nputOf (bucketed) 0 8).mem.loose.any (Loose.meets Space.sp.code (384 * 2 ^ 24) (2 ^ 24)) = false ∧
      cpDone (nputOf (bucketed) 0 8) 384 (cpHead (nputOf (bucketed) 0 8)) = true ∧ (cpHead (nputOf (bucketed) 0 8)).iss.poisoned = false ∧ (cpHead (nputOf (bucketed) 0 8)).fault = none ∧ (cpHead (nputOf (bucketed) 0 8)).acts = 0 ∧ (cpHead (nputOf (bucketed) 0 8)).got = [] ∧ (cpHead (nputOf (bucketed) 0 8)).lost = [] ∧ (cpHead (nputOf (bucketed) 0 8)).gone = 0) ∧
    ((nputOf (bucketed) 0 8).lostWays (cpHead (nputOf (bucketed) 0 8)).iss = [] ∧
      (cpHead (nputOf (bucketed) 0 8)).removed (nputOf (bucketed) 0 8) = false ∧
      coreOf (cpHead (nputOf (bucketed) 0 8)).iss.ctx = 384 ∧
      (cpHead (nputOf (bucketed) 0 8)).counter = 0 ∧
      namedN (cpHead (nputOf (bucketed) 0 8)).pat = 1 ∧
      (cpHead (nputOf (bucketed) 0 8)).op = 0x10) ∧
    ((∀ g ∈ namedOwn 0x10 (cpHead (nputOf (bucketed) 0 8)).pat, g.1 % g.2.1 = 0 ∧ OwnRange (nputOf (bucketed) 0 8) 384 (cpHead (nputOf (bucketed) 0 8)) g.1 g.2.2) ∧
      (cpHead (nputOf (bucketed) 0 8)).acc = [] ∧
      pw (cpHead (nputOf (bucketed) 0 8)).pat 1 + 16 ≤ patRecs (cpHead (nputOf (bucketed) 0 8)).pat ∨ patRecs (cpHead (nputOf (bucketed) 0 8)).pat + 64 ≤ pw (cpHead (nputOf (bucketed) 0 8)).pat 1 ∧
      ownBytes (nputOf (bucketed) 0 8) 384 (pw (cpHead (nputOf (bucketed) 0 8)).pat 0) 128 = 8 ∧
      ((bucketed).lookup false 8).2 = .collex) := by
  simp only [OwnRange, RunsCp, Owner, Sound]
  refine ⟨by decide +kernel, by decide +kernel, by decide +kernel⟩

theorem wit_NamedCompletes_nput_node :
    (namedHeld (nputOf (lined 1) 1 256) 384 (cpHead (nputOf (lined 1) 1 256)) = false ∧
      RunsCp (nputOf (lined 1) 1 256) 384 0 (cpHead (nputOf (lined 1) 1 256)) ∧
      Owner (nputOf (lined 1) 1 256) (cpHead (nputOf (lined 1) 1 256)).iss 1536 ∧
      (cpHead (nputOf (lined 1) 1 256)).o.tout < 64 ∧
      (nputOf (lined 1) 1 256).mem.loose.any (Loose.meets Space.sp.code (384 * 2 ^ 24) (2 ^ 24)) = false ∧
      cpDone (nputOf (lined 1) 1 256) 384 (cpHead (nputOf (lined 1) 1 256)) = true ∧ (cpHead (nputOf (lined 1) 1 256)).iss.poisoned = false ∧ (cpHead (nputOf (lined 1) 1 256)).fault = none ∧ (cpHead (nputOf (lined 1) 1 256)).acts = 0 ∧ (cpHead (nputOf (lined 1) 1 256)).got = [] ∧ (cpHead (nputOf (lined 1) 1 256)).lost = [] ∧ (cpHead (nputOf (lined 1) 1 256)).gone = 0) ∧
    ((nputOf (lined 1) 1 256).lostWays (cpHead (nputOf (lined 1) 1 256)).iss = [] ∧
      (cpHead (nputOf (lined 1) 1 256)).removed (nputOf (lined 1) 1 256) = false ∧
      coreOf (cpHead (nputOf (lined 1) 1 256)).iss.ctx = 384 ∧
      (cpHead (nputOf (lined 1) 1 256)).counter = 0 ∧
      namedN (cpHead (nputOf (lined 1) 1 256)).pat = 1 ∧
      (cpHead (nputOf (lined 1) 1 256)).op = 0x10) ∧
    ((∀ g ∈ namedOwn 0x10 (cpHead (nputOf (lined 1) 1 256)).pat, g.1 % g.2.1 = 0 ∧ OwnRange (nputOf (lined 1) 1 256) 384 (cpHead (nputOf (lined 1) 1 256)) g.1 g.2.2) ∧
      (cpHead (nputOf (lined 1) 1 256)).acc = [] ∧
      pw (cpHead (nputOf (lined 1) 1 256)).pat 1 + 16 ≤ patRecs (cpHead (nputOf (lined 1) 1 256)).pat ∨ patRecs (cpHead (nputOf (lined 1) 1 256)).pat + 64 ≤ pw (cpHead (nputOf (lined 1) 1 256)).pat 1 ∧
      pw (cpHead (nputOf (lined 1) 1 256)).pat 3 % 2 = 1 ∧
      (∀ x ∈ children 256, x ≠ 0 → (lined 1).known x = true)) := by
  simp only [OwnRange, RunsCp, Owner, Sound]
  refine ⟨by decide +kernel, by decide +kernel, by decide +kernel⟩

theorem wit_NamedCompletes_nput_unknown_child :
    (namedHeld (nputOf (lined 1) 1 512) 384 (cpHead (nputOf (lined 1) 1 512)) = false ∧
      RunsCp (nputOf (lined 1) 1 512) 384 0 (cpHead (nputOf (lined 1) 1 512)) ∧
      Owner (nputOf (lined 1) 1 512) (cpHead (nputOf (lined 1) 1 512)).iss 1536 ∧
      (cpHead (nputOf (lined 1) 1 512)).o.tout < 64 ∧
      (nputOf (lined 1) 1 512).mem.loose.any (Loose.meets Space.sp.code (384 * 2 ^ 24) (2 ^ 24)) = false ∧
      cpDone (nputOf (lined 1) 1 512) 384 (cpHead (nputOf (lined 1) 1 512)) = true ∧ (cpHead (nputOf (lined 1) 1 512)).iss.poisoned = false ∧ (cpHead (nputOf (lined 1) 1 512)).fault = none ∧ (cpHead (nputOf (lined 1) 1 512)).acts = 0 ∧ (cpHead (nputOf (lined 1) 1 512)).got = [] ∧ (cpHead (nputOf (lined 1) 1 512)).lost = [] ∧ (cpHead (nputOf (lined 1) 1 512)).gone = 0) ∧
    ((nputOf (lined 1) 1 512).lostWays (cpHead (nputOf (lined 1) 1 512)).iss = [] ∧
      (cpHead (nputOf (lined 1) 1 512)).removed (nputOf (lined 1) 1 512) = false ∧
      coreOf (cpHead (nputOf (lined 1) 1 512)).iss.ctx = 384 ∧
      (cpHead (nputOf (lined 1) 1 512)).counter = 0 ∧
      namedN (cpHead (nputOf (lined 1) 1 512)).pat = 1 ∧
      (cpHead (nputOf (lined 1) 1 512)).op = 0x10) ∧
    ((∀ g ∈ namedOwn 0x10 (cpHead (nputOf (lined 1) 1 512)).pat, g.1 % g.2.1 = 0 ∧ OwnRange (nputOf (lined 1) 1 512) 384 (cpHead (nputOf (lined 1) 1 512)) g.1 g.2.2) ∧
      (cpHead (nputOf (lined 1) 1 512)).acc = [] ∧
      pw (cpHead (nputOf (lined 1) 1 512)).pat 1 + 16 ≤ patRecs (cpHead (nputOf (lined 1) 1 512)).pat ∨ patRecs (cpHead (nputOf (lined 1) 1 512)).pat + 64 ≤ pw (cpHead (nputOf (lined 1) 1 512)).pat 1 ∧
      pw (cpHead (nputOf (lined 1) 1 512)).pat 3 % 2 = 1 ∧
      (∃ x ∈ children 512, x ≠ 0 ∧ (lined 1).known x = false) ∧
      ((nputOf (lined 1) 1 512).ctx 1536).resident = true) ∧
    (((nputOf (lined 1) 1 512).ctx 1536).win.efclk ≠ (nputOf (lined 1) 1 512).clock + 1) := by
  simp only [OwnRange, RunsCp, Owner, Sound]
  refine ⟨by decide +kernel, by decide +kernel, by decide +kernel, by decide +kernel⟩

theorem wit_NamedCompletes_nget_zero :
    (namedHeld (ngetOf 0) 384 (cpHead (ngetOf 0)) = false ∧
      RunsCp (ngetOf 0) 384 0 (cpHead (ngetOf 0)) ∧
      Owner (ngetOf 0) (cpHead (ngetOf 0)).iss 1536 ∧
      (cpHead (ngetOf 0)).o.tout < 64 ∧
      (ngetOf 0).mem.loose.any (Loose.meets Space.sp.code (384 * 2 ^ 24) (2 ^ 24)) = false ∧
      cpDone (ngetOf 0) 384 (cpHead (ngetOf 0)) = true ∧ (cpHead (ngetOf 0)).iss.poisoned = false ∧ (cpHead (ngetOf 0)).fault = none ∧ (cpHead (ngetOf 0)).acts = 0 ∧ (cpHead (ngetOf 0)).got = [] ∧ (cpHead (ngetOf 0)).lost = [] ∧ (cpHead (ngetOf 0)).gone = 0) ∧
    ((ngetOf 0).lostWays (cpHead (ngetOf 0)).iss = [] ∧
      (cpHead (ngetOf 0)).removed (ngetOf 0) = false ∧
      coreOf (cpHead (ngetOf 0)).iss.ctx = 384 ∧
      (cpHead (ngetOf 0)).counter = 0 ∧
      namedN (cpHead (ngetOf 0)).pat = 1 ∧
      (cpHead (ngetOf 0)).op = 0x11) ∧
    ((∀ g ∈ namedOwn 0x11 (cpHead (ngetOf 0)).pat, g.1 % g.2.1 = 0 ∧ OwnRange (ngetOf 0) 384 (cpHead (ngetOf 0)) g.1 g.2.2) ∧
      (cpHead (ngetOf 0)).todo = [0] ∧
      (cpHead (ngetOf 0)).left = List.range 8 ∧
      ownBytes (ngetOf 0) 384 (pw (cpHead (ngetOf 0)).pat 0) 16 = 0) := by
  simp only [OwnRange, RunsCp, Owner, Sound]
  refine ⟨by decide +kernel, by decide +kernel, by decide +kernel⟩

theorem wit_NamedCompletes_nget_known :
    (namedHeld (ngetOf 256) 384 (cpHead (ngetOf 256)) = false ∧
      RunsCp (ngetOf 256) 384 0 (cpHead (ngetOf 256)) ∧
      Owner (ngetOf 256) (cpHead (ngetOf 256)).iss 1536 ∧
      (cpHead (ngetOf 256)).o.tout < 64 ∧
      (ngetOf 256).mem.loose.any (Loose.meets Space.sp.code (384 * 2 ^ 24) (2 ^ 24)) = false ∧
      cpDone (ngetOf 256) 384 (cpHead (ngetOf 256)) = true ∧ (cpHead (ngetOf 256)).iss.poisoned = false ∧ (cpHead (ngetOf 256)).fault = none ∧ (cpHead (ngetOf 256)).acts = 0 ∧ (cpHead (ngetOf 256)).got = [] ∧ (cpHead (ngetOf 256)).lost = [] ∧ (cpHead (ngetOf 256)).gone = 0) ∧
    ((ngetOf 256).lostWays (cpHead (ngetOf 256)).iss = [] ∧
      (cpHead (ngetOf 256)).removed (ngetOf 256) = false ∧
      coreOf (cpHead (ngetOf 256)).iss.ctx = 384 ∧
      (cpHead (ngetOf 256)).counter = 0 ∧
      namedN (cpHead (ngetOf 256)).pat = 1 ∧
      (cpHead (ngetOf 256)).op = 0x11) ∧
    ((∀ g ∈ namedOwn 0x11 (cpHead (ngetOf 256)).pat, g.1 % g.2.1 = 0 ∧ OwnRange (ngetOf 256) 384 (cpHead (ngetOf 256)) g.1 g.2.2) ∧
      (cpHead (ngetOf 256)).todo = [0] ∧
      (cpHead (ngetOf 256)).left = List.range 8 ∧
      ownBytes (ngetOf 256) 384 (pw (cpHead (ngetOf 256)).pat 0) 16 = 256 ∧
      (lined 1).find 256 = some ⟨1, false, 0, 5, 1, false⟩) := by
  simp only [OwnRange, RunsCp, Owner, Sound]
  refine ⟨by decide +kernel, by decide +kernel, by decide +kernel⟩

theorem wit_NamedCompletes_nget_unknown :
    (namedHeld (ngetOf 512) 384 (cpHead (ngetOf 512)) = false ∧
      RunsCp (ngetOf 512) 384 0 (cpHead (ngetOf 512)) ∧
      Owner (ngetOf 512) (cpHead (ngetOf 512)).iss 1536 ∧
      (cpHead (ngetOf 512)).o.tout < 64 ∧
      (ngetOf 512).mem.loose.any (Loose.meets Space.sp.code (384 * 2 ^ 24) (2 ^ 24)) = false ∧
      cpDone (ngetOf 512) 384 (cpHead (ngetOf 512)) = true ∧ (cpHead (ngetOf 512)).iss.poisoned = false ∧ (cpHead (ngetOf 512)).fault = none ∧ (cpHead (ngetOf 512)).acts = 0 ∧ (cpHead (ngetOf 512)).got = [] ∧ (cpHead (ngetOf 512)).lost = [] ∧ (cpHead (ngetOf 512)).gone = 0) ∧
    ((ngetOf 512).lostWays (cpHead (ngetOf 512)).iss = [] ∧
      (cpHead (ngetOf 512)).removed (ngetOf 512) = false ∧
      coreOf (cpHead (ngetOf 512)).iss.ctx = 384 ∧
      (cpHead (ngetOf 512)).counter = 0 ∧
      namedN (cpHead (ngetOf 512)).pat = 1 ∧
      (cpHead (ngetOf 512)).op = 0x11) ∧
    ((∀ g ∈ namedOwn 0x11 (cpHead (ngetOf 512)).pat, g.1 % g.2.1 = 0 ∧ OwnRange (ngetOf 512) 384 (cpHead (ngetOf 512)) g.1 g.2.2) ∧
      (cpHead (ngetOf 512)).todo = [0] ∧
      (cpHead (ngetOf 512)).left = List.range 8 ∧
      ownBytes (ngetOf 512) 384 (pw (cpHead (ngetOf 512)).pat 0) 16 = 512 ∧
      (lined 1).find 512 = none ∧
      ((ngetOf 512).ctx 1536).resident = true) ∧
    (((ngetOf 512).ctx 1536).win.efclk ≠ (ngetOf 512).clock + 1) := by
  simp only [OwnRange, RunsCp, Owner, Sound]
  refine ⟨by decide +kernel, by decide +kernel, by decide +kernel, by decide +kernel⟩

theorem wit_NamedCompletes_nref_zero :
    (namedHeld (nrefOf 0) 384 (cpHead (nrefOf 0)) = false ∧
      RunsCp (nrefOf 0) 384 0 (cpHead (nrefOf 0)) ∧
      Owner (nrefOf 0) (cpHead (nrefOf 0)).iss 1536 ∧
      (cpHead (nrefOf 0)).o.tout < 64 ∧
      (nrefOf 0).mem.loose.any (Loose.meets Space.sp.code (384 * 2 ^ 24) (2 ^ 24)) = false ∧
      cpDone (nrefOf 0) 384 (cpHead (nrefOf 0)) = true ∧ (cpHead (nrefOf 0)).iss.poisoned = false ∧ (cpHead (nrefOf 0)).fault = none ∧ (cpHead (nrefOf 0)).acts = 0 ∧ (cpHead (nrefOf 0)).got = [] ∧ (cpHead (nrefOf 0)).lost = [] ∧ (cpHead (nrefOf 0)).gone = 0) ∧
    ((nrefOf 0).lostWays (cpHead (nrefOf 0)).iss = [] ∧
      (cpHead (nrefOf 0)).removed (nrefOf 0) = false ∧
      coreOf (cpHead (nrefOf 0)).iss.ctx = 384 ∧
      (cpHead (nrefOf 0)).counter = 0 ∧
      namedN (cpHead (nrefOf 0)).pat = 1 ∧
      (cpHead (nrefOf 0)).op = 0x12) ∧
    ((∀ g ∈ namedOwn 0x12 (cpHead (nrefOf 0)).pat, g.1 % g.2.1 = 0 ∧ OwnRange (nrefOf 0) 384 (cpHead (nrefOf 0)) g.1 g.2.2) ∧
      (cpHead (nrefOf 0)).acc = [] ∧
      ownBytes (nrefOf 0) 384 (pw (cpHead (nrefOf 0)).pat 0) 16 = 0) := by
  simp only [OwnRange, RunsCp, Owner, Sound]
  refine ⟨by decide +kernel, by decide +kernel, by decide +kernel⟩

theorem wit_NamedCompletes_nref_known :
    (namedHeld (nrefOf 256) 384 (cpHead (nrefOf 256)) = false ∧
      RunsCp (nrefOf 256) 384 0 (cpHead (nrefOf 256)) ∧
      Owner (nrefOf 256) (cpHead (nrefOf 256)).iss 1536 ∧
      (cpHead (nrefOf 256)).o.tout < 64 ∧
      (nrefOf 256).mem.loose.any (Loose.meets Space.sp.code (384 * 2 ^ 24) (2 ^ 24)) = false ∧
      cpDone (nrefOf 256) 384 (cpHead (nrefOf 256)) = true ∧ (cpHead (nrefOf 256)).iss.poisoned = false ∧ (cpHead (nrefOf 256)).fault = none ∧ (cpHead (nrefOf 256)).acts = 0 ∧ (cpHead (nrefOf 256)).got = [] ∧ (cpHead (nrefOf 256)).lost = [] ∧ (cpHead (nrefOf 256)).gone = 0) ∧
    ((nrefOf 256).lostWays (cpHead (nrefOf 256)).iss = [] ∧
      (cpHead (nrefOf 256)).removed (nrefOf 256) = false ∧
      coreOf (cpHead (nrefOf 256)).iss.ctx = 384 ∧
      (cpHead (nrefOf 256)).counter = 0 ∧
      namedN (cpHead (nrefOf 256)).pat = 1 ∧
      (cpHead (nrefOf 256)).op = 0x12) ∧
    ((∀ g ∈ namedOwn 0x12 (cpHead (nrefOf 256)).pat, g.1 % g.2.1 = 0 ∧ OwnRange (nrefOf 256) 384 (cpHead (nrefOf 256)) g.1 g.2.2) ∧
      (cpHead (nrefOf 256)).acc = [] ∧
      ownBytes (nrefOf 256) 384 (pw (cpHead (nrefOf 256)).pat 0) 16 = 256 ∧
      (lined 1).find 256 = some ⟨1, false, 0, 5, 1, false⟩) := by
  simp only [OwnRange, RunsCp, Owner, Sound]
  refine ⟨by decide +kernel, by decide +kernel, by decide +kernel⟩

theorem wit_NamedCompletes_nref_unknown :
    (namedHeld (nrefOf 512) 384 (cpHead (nrefOf 512)) = false ∧
      RunsCp (nrefOf 512) 384 0 (cpHead (nrefOf 512)) ∧
      Owner (nrefOf 512) (cpHead (nrefOf 512)).iss 1536 ∧
      (cpHead (nrefOf 512)).o.tout < 64 ∧
      (nrefOf 512).mem.loose.any (Loose.meets Space.sp.code (384 * 2 ^ 24) (2 ^ 24)) = false ∧
      cpDone (nrefOf 512) 384 (cpHead (nrefOf 512)) = true ∧ (cpHead (nrefOf 512)).iss.poisoned = false ∧ (cpHead (nrefOf 512)).fault = none ∧ (cpHead (nrefOf 512)).acts = 0 ∧ (cpHead (nrefOf 512)).got = [] ∧ (cpHead (nrefOf 512)).lost = [] ∧ (cpHead (nrefOf 512)).gone = 0) ∧
    ((nrefOf 512).lostWays (cpHead (nrefOf 512)).iss = [] ∧
      (cpHead (nrefOf 512)).removed (nrefOf 512) = false ∧
      coreOf (cpHead (nrefOf 512)).iss.ctx = 384 ∧
      (cpHead (nrefOf 512)).counter = 0 ∧
      namedN (cpHead (nrefOf 512)).pat = 1 ∧
      (cpHead (nrefOf 512)).op = 0x12) ∧
    ((∀ g ∈ namedOwn 0x12 (cpHead (nrefOf 512)).pat, g.1 % g.2.1 = 0 ∧ OwnRange (nrefOf 512) 384 (cpHead (nrefOf 512)) g.1 g.2.2) ∧
      (cpHead (nrefOf 512)).acc = [] ∧
      ownBytes (nrefOf 512) 384 (pw (cpHead (nrefOf 512)).pat 0) 16 = 512 ∧
      (lined 1).find 512 = none ∧
      ((nrefOf 512).ctx 1536).resident = true ∧
      ((nrefOf 512).ctx 1536).win.efclk ≠ (nrefOf 512).clock + 1) := by
  simp only [OwnRange, RunsCp, Owner, Sound]
  refine ⟨by decide +kernel, by decide +kernel, by decide +kernel⟩

theorem wit_NamedCompletes_nrel_zero :
    (namedHeld (nrelOf 0) 384 (cpHead (nrelOf 0)) = false ∧
      RunsCp (nrelOf 0) 384 0 (cpHead (nrelOf 0)) ∧
      Owner (nrelOf 0) (cpHead (nrelOf 0)).iss 1536 ∧
      (cpHead (nrelOf 0)).o.tout < 64 ∧
      (nrelOf 0).mem.loose.any (Loose.meets Space.sp.code (384 * 2 ^ 24) (2 ^ 24)) = false ∧
      cpDone (nrelOf 0) 384 (cpHead (nrelOf 0)) = true ∧ (cpHead (nrelOf 0)).iss.poisoned = false ∧ (cpHead (nrelOf 0)).fault = none ∧ (cpHead (nrelOf 0)).acts = 0 ∧ (cpHead (nrelOf 0)).got = [] ∧ (cpHead (nrelOf 0)).lost = [] ∧ (cpHead (nrelOf 0)).gone = 0) ∧
    ((nrelOf 0).lostWays (cpHead (nrelOf 0)).iss = [] ∧
      (cpHead (nrelOf 0)).removed (nrelOf 0) = false ∧
      coreOf (cpHead (nrelOf 0)).iss.ctx = 384 ∧
      (cpHead (nrelOf 0)).counter = 0 ∧
      namedN (cpHead (nrelOf 0)).pat = 1 ∧
      (cpHead (nrelOf 0)).op = 0x13) ∧
    ((∀ g ∈ namedOwn 0x13 (cpHead (nrelOf 0)).pat, g.1 % g.2.1 = 0 ∧ OwnRange (nrelOf 0) 384 (cpHead (nrelOf 0)) g.1 g.2.2) ∧
      (cpHead (nrelOf 0)).acc = [] ∧
      ownBytes (nrelOf 0) 384 (pw (cpHead (nrelOf 0)).pat 0) 16 = 0) := by
  simp only [OwnRange, RunsCp, Owner, Sound]
  refine ⟨by decide +kernel, by decide +kernel, by decide +kernel⟩

theorem wit_NamedCompletes_nrel_known :
    (namedHeld (nrelOf 256) 384 (cpHead (nrelOf 256)) = false ∧
      RunsCp (nrelOf 256) 384 0 (cpHead (nrelOf 256)) ∧
      Owner (nrelOf 256) (cpHead (nrelOf 256)).iss 1536 ∧
      (cpHead (nrelOf 256)).o.tout < 64 ∧
      (nrelOf 256).mem.loose.any (Loose.meets Space.sp.code (384 * 2 ^ 24) (2 ^ 24)) = false ∧
      cpDone (nrelOf 256) 384 (cpHead (nrelOf 256)) = true ∧ (cpHead (nrelOf 256)).iss.poisoned = false ∧ (cpHead (nrelOf 256)).fault = none ∧ (cpHead (nrelOf 256)).acts = 0 ∧ (cpHead (nrelOf 256)).got = [] ∧ (cpHead (nrelOf 256)).lost = [] ∧ (cpHead (nrelOf 256)).gone = 0) ∧
    ((nrelOf 256).lostWays (cpHead (nrelOf 256)).iss = [] ∧
      (cpHead (nrelOf 256)).removed (nrelOf 256) = false ∧
      coreOf (cpHead (nrelOf 256)).iss.ctx = 384 ∧
      (cpHead (nrelOf 256)).counter = 0 ∧
      namedN (cpHead (nrelOf 256)).pat = 1 ∧
      (cpHead (nrelOf 256)).op = 0x13) ∧
    ((∀ g ∈ namedOwn 0x13 (cpHead (nrelOf 256)).pat, g.1 % g.2.1 = 0 ∧ OwnRange (nrelOf 256) 384 (cpHead (nrelOf 256)) g.1 g.2.2) ∧
      (cpHead (nrelOf 256)).acc = [] ∧
      ownBytes (nrelOf 256) 384 (pw (cpHead (nrelOf 256)).pat 0) 16 = 256 ∧
      (lined 1).find 256 = some ⟨1, false, 0, 5, 1, false⟩) := by
  simp only [OwnRange, RunsCp, Owner, Sound]
  refine ⟨by decide +kernel, by decide +kernel, by decide +kernel⟩

theorem wit_NamedCompletes_nrel_unknown :
    (namedHeld (nrelOf 512) 384 (cpHead (nrelOf 512)) = false ∧
      RunsCp (nrelOf 512) 384 0 (cpHead (nrelOf 512)) ∧
      Owner (nrelOf 512) (cpHead (nrelOf 512)).iss 1536 ∧
      (cpHead (nrelOf 512)).o.tout < 64 ∧
      (nrelOf 512).mem.loose.any (Loose.meets Space.sp.code (384 * 2 ^ 24) (2 ^ 24)) = false ∧
      cpDone (nrelOf 512) 384 (cpHead (nrelOf 512)) = true ∧ (cpHead (nrelOf 512)).iss.poisoned = false ∧ (cpHead (nrelOf 512)).fault = none ∧ (cpHead (nrelOf 512)).acts = 0 ∧ (cpHead (nrelOf 512)).got = [] ∧ (cpHead (nrelOf 512)).lost = [] ∧ (cpHead (nrelOf 512)).gone = 0) ∧
    ((nrelOf 512).lostWays (cpHead (nrelOf 512)).iss = [] ∧
      (cpHead (nrelOf 512)).removed (nrelOf 512) = false ∧
      coreOf (cpHead (nrelOf 512)).iss.ctx = 384 ∧
      (cpHead (nrelOf 512)).counter = 0 ∧
      namedN (cpHead (nrelOf 512)).pat = 1 ∧
      (cpHead (nrelOf 512)).op = 0x13) ∧
    ((∀ g ∈ namedOwn 0x13 (cpHead (nrelOf 512)).pat, g.1 % g.2.1 = 0 ∧ OwnRange (nrelOf 512) 384 (cpHead (nrelOf 512)) g.1 g.2.2) ∧
      (cpHead (nrelOf 512)).acc = [] ∧
      ownBytes (nrelOf 512) 384 (pw (cpHead (nrelOf 512)).pat 0) 16 = 512 ∧
      (lined 1).find 512 = none ∧
      ((nrelOf 512).ctx 1536).resident = true ∧
      ((nrelOf 512).ctx 1536).win.efclk ≠ (nrelOf 512).clock + 1) := by
  simp only [OwnRange, RunsCp, Owner, Sound]
  refine ⟨by decide +kernel, by decide +kernel, by decide +kernel⟩

theorem wit_NamedCompletes_nswap_swaps :
    (namedHeld (nswapOf 3 256) 384 (cpHead (nswapOf 3 256)) = false ∧
      RunsCp (nswapOf 3 256) 384 0 (cpHead (nswapOf 3 256)) ∧
      Owner (nswapOf 3 256) (cpHead (nswapOf 3 256)).iss 1536 ∧
      (cpHead (nswapOf 3 256)).o.tout < 64 ∧
      (nswapOf 3 256).mem.loose.any (Loose.meets Space.sp.code (384 * 2 ^ 24) (2 ^ 24)) = false ∧
      cpDone (nswapOf 3 256) 384 (cpHead (nswapOf 3 256)) = true ∧ (cpHead (nswapOf 3 256)).iss.poisoned = false ∧ (cpHead (nswapOf 3 256)).fault = none ∧ (cpHead (nswapOf 3 256)).acts = 0 ∧ (cpHead (nswapOf 3 256)).got = [] ∧ (cpHead (nswapOf 3 256)).lost = [] ∧ (cpHead (nswapOf 3 256)).gone = 0) ∧
    ((nswapOf 3 256).lostWays (cpHead (nswapOf 3 256)).iss = [] ∧
      (cpHead (nswapOf 3 256)).removed (nswapOf 3 256) = false ∧
      coreOf (cpHead (nswapOf 3 256)).iss.ctx = 384 ∧
      (cpHead (nswapOf 3 256)).counter = 0 ∧
      namedN (cpHead (nswapOf 3 256)).pat = 1 ∧
      (cpHead (nswapOf 3 256)).op = 0x14) ∧
    ((∀ g ∈ namedOwn 0x14 (cpHead (nswapOf 3 256)).pat, g.1 % g.2.1 = 0 ∧ OwnRange (nswapOf 3 256) 384 (cpHead (nswapOf 3 256)) g.1 g.2.2) ∧
      (cpHead (nswapOf 3 256)).acc = [] ∧
      pw (cpHead (nswapOf 3 256)).pat 0 % 32 = 0 ∧
      OwnRange (nswapOf 3 256) 384 (cpHead (nswapOf 3 256)) (pw (cpHead (nswapOf 3 256)).pat 0) 32 ∧
      pw (cpHead (nswapOf 3 256)).pat 0 + 32 ≤ patRecs (cpHead (nswapOf 3 256)).pat ∨ patRecs (cpHead (nswapOf 3 256)).pat + 64 ≤ pw (cpHead (nswapOf 3 256)).pat 0 ∧
      ownBytes (nswapOf 3 256) 384 (pw (cpHead (nswapOf 3 256)).pat 1) 32 = 3) ∧
    (ownBytes (nswapOf 3 256) 384 (pw (cpHead (nswapOf 3 256)).pat 1 + 32) 32 = 256 ∧
      ownBytes (nswapOf 3 256) 384 (pw (cpHead (nswapOf 3 256)).pat 0) 32 = 3 ∧
      (lined 1).known 256 = true) := by
  simp only [OwnRange, RunsCp, Owner, Sound]
  refine ⟨by decide +kernel, by decide +kernel, by decide +kernel, by decide +kernel⟩

theorem wit_NamedCompletes_nswap_differs :
    (namedHeld (nswapOf 4 256) 384 (cpHead (nswapOf 4 256)) = false ∧
      RunsCp (nswapOf 4 256) 384 0 (cpHead (nswapOf 4 256)) ∧
      Owner (nswapOf 4 256) (cpHead (nswapOf 4 256)).iss 1536 ∧
      (cpHead (nswapOf 4 256)).o.tout < 64 ∧
      (nswapOf 4 256).mem.loose.any (Loose.meets Space.sp.code (384 * 2 ^ 24) (2 ^ 24)) = false ∧
      cpDone (nswapOf 4 256) 384 (cpHead (nswapOf 4 256)) = true ∧ (cpHead (nswapOf 4 256)).iss.poisoned = false ∧ (cpHead (nswapOf 4 256)).fault = none ∧ (cpHead (nswapOf 4 256)).acts = 0 ∧ (cpHead (nswapOf 4 256)).got = [] ∧ (cpHead (nswapOf 4 256)).lost = [] ∧ (cpHead (nswapOf 4 256)).gone = 0) ∧
    ((nswapOf 4 256).lostWays (cpHead (nswapOf 4 256)).iss = [] ∧
      (cpHead (nswapOf 4 256)).removed (nswapOf 4 256) = false ∧
      coreOf (cpHead (nswapOf 4 256)).iss.ctx = 384 ∧
      (cpHead (nswapOf 4 256)).counter = 0 ∧
      namedN (cpHead (nswapOf 4 256)).pat = 1 ∧
      (cpHead (nswapOf 4 256)).op = 0x14) ∧
    ((∀ g ∈ namedOwn 0x14 (cpHead (nswapOf 4 256)).pat, g.1 % g.2.1 = 0 ∧ OwnRange (nswapOf 4 256) 384 (cpHead (nswapOf 4 256)) g.1 g.2.2) ∧
      (cpHead (nswapOf 4 256)).acc = [] ∧
      pw (cpHead (nswapOf 4 256)).pat 0 % 32 = 0 ∧
      OwnRange (nswapOf 4 256) 384 (cpHead (nswapOf 4 256)) (pw (cpHead (nswapOf 4 256)).pat 0) 32 ∧
      pw (cpHead (nswapOf 4 256)).pat 0 + 32 ≤ patRecs (cpHead (nswapOf 4 256)).pat ∨ patRecs (cpHead (nswapOf 4 256)).pat + 64 ≤ pw (cpHead (nswapOf 4 256)).pat 0 ∧
      ownBytes (nswapOf 4 256) 384 (pw (cpHead (nswapOf 4 256)).pat 1) 32 = 4) ∧
    (ownBytes (nswapOf 4 256) 384 (pw (cpHead (nswapOf 4 256)).pat 1 + 32) 32 = 256 ∧
      ownBytes (nswapOf 4 256) 384 (pw (cpHead (nswapOf 4 256)).pat 0) 32 = 3 ∧
      (lined 1).known 256 = true) := by
  simp only [OwnRange, RunsCp, Owner, Sound]
  refine ⟨by decide +kernel, by decide +kernel, by decide +kernel, by decide +kernel⟩

theorem wit_NamedCompletes_nswap_no_name :
    (namedHeld (nswapOf 3 0) 384 (cpHead (nswapOf 3 0)) = false ∧
      RunsCp (nswapOf 3 0) 384 0 (cpHead (nswapOf 3 0)) ∧
      Owner (nswapOf 3 0) (cpHead (nswapOf 3 0)).iss 1536 ∧
      (cpHead (nswapOf 3 0)).o.tout < 64 ∧
      (nswapOf 3 0).mem.loose.any (Loose.meets Space.sp.code (384 * 2 ^ 24) (2 ^ 24)) = false ∧
      cpDone (nswapOf 3 0) 384 (cpHead (nswapOf 3 0)) = true ∧ (cpHead (nswapOf 3 0)).iss.poisoned = false ∧ (cpHead (nswapOf 3 0)).fault = none ∧ (cpHead (nswapOf 3 0)).acts = 0 ∧ (cpHead (nswapOf 3 0)).got = [] ∧ (cpHead (nswapOf 3 0)).lost = [] ∧ (cpHead (nswapOf 3 0)).gone = 0) ∧
    ((nswapOf 3 0).lostWays (cpHead (nswapOf 3 0)).iss = [] ∧
      (cpHead (nswapOf 3 0)).removed (nswapOf 3 0) = false ∧
      coreOf (cpHead (nswapOf 3 0)).iss.ctx = 384 ∧
      (cpHead (nswapOf 3 0)).counter = 0 ∧
      namedN (cpHead (nswapOf 3 0)).pat = 1 ∧
      (cpHead (nswapOf 3 0)).op = 0x14) ∧
    ((∀ g ∈ namedOwn 0x14 (cpHead (nswapOf 3 0)).pat, g.1 % g.2.1 = 0 ∧ OwnRange (nswapOf 3 0) 384 (cpHead (nswapOf 3 0)) g.1 g.2.2) ∧
      (cpHead (nswapOf 3 0)).acc = [] ∧
      pw (cpHead (nswapOf 3 0)).pat 0 % 32 = 0 ∧
      OwnRange (nswapOf 3 0) 384 (cpHead (nswapOf 3 0)) (pw (cpHead (nswapOf 3 0)).pat 0) 32 ∧
      pw (cpHead (nswapOf 3 0)).pat 0 + 32 ≤ patRecs (cpHead (nswapOf 3 0)).pat ∨ patRecs (cpHead (nswapOf 3 0)).pat + 64 ≤ pw (cpHead (nswapOf 3 0)).pat 0 ∧
      ownBytes (nswapOf 3 0) 384 (pw (cpHead (nswapOf 3 0)).pat 1) 32 = 3) ∧
    (ownBytes (nswapOf 3 0) 384 (pw (cpHead (nswapOf 3 0)).pat 1 + 32) 32 = 0 ∧
      ownBytes (nswapOf 3 0) 384 (pw (cpHead (nswapOf 3 0)).pat 0) 32 = 3) := by
  simp only [OwnRange, RunsCp, Owner, Sound]
  refine ⟨by decide +kernel, by decide +kernel, by decide +kernel, by decide +kernel⟩

theorem wit_NamedCompletes_nswap_unknown :
    (namedHeld (nswapOf 3 512) 384 (cpHead (nswapOf 3 512)) = false ∧
      RunsCp (nswapOf 3 512) 384 0 (cpHead (nswapOf 3 512)) ∧
      Owner (nswapOf 3 512) (cpHead (nswapOf 3 512)).iss 1536 ∧
      (cpHead (nswapOf 3 512)).o.tout < 64 ∧
      (nswapOf 3 512).mem.loose.any (Loose.meets Space.sp.code (384 * 2 ^ 24) (2 ^ 24)) = false ∧
      cpDone (nswapOf 3 512) 384 (cpHead (nswapOf 3 512)) = true ∧ (cpHead (nswapOf 3 512)).iss.poisoned = false ∧ (cpHead (nswapOf 3 512)).fault = none ∧ (cpHead (nswapOf 3 512)).acts = 0 ∧ (cpHead (nswapOf 3 512)).got = [] ∧ (cpHead (nswapOf 3 512)).lost = [] ∧ (cpHead (nswapOf 3 512)).gone = 0) ∧
    ((nswapOf 3 512).lostWays (cpHead (nswapOf 3 512)).iss = [] ∧
      (cpHead (nswapOf 3 512)).removed (nswapOf 3 512) = false ∧
      coreOf (cpHead (nswapOf 3 512)).iss.ctx = 384 ∧
      (cpHead (nswapOf 3 512)).counter = 0 ∧
      namedN (cpHead (nswapOf 3 512)).pat = 1 ∧
      (cpHead (nswapOf 3 512)).op = 0x14) ∧
    ((∀ g ∈ namedOwn 0x14 (cpHead (nswapOf 3 512)).pat, g.1 % g.2.1 = 0 ∧ OwnRange (nswapOf 3 512) 384 (cpHead (nswapOf 3 512)) g.1 g.2.2) ∧
      (cpHead (nswapOf 3 512)).acc = [] ∧
      pw (cpHead (nswapOf 3 512)).pat 0 % 32 = 0 ∧
      OwnRange (nswapOf 3 512) 384 (cpHead (nswapOf 3 512)) (pw (cpHead (nswapOf 3 512)).pat 0) 32 ∧
      pw (cpHead (nswapOf 3 512)).pat 0 + 32 ≤ patRecs (cpHead (nswapOf 3 512)).pat ∨ patRecs (cpHead (nswapOf 3 512)).pat + 64 ≤ pw (cpHead (nswapOf 3 512)).pat 0 ∧
      ownBytes (nswapOf 3 512) 384 (pw (cpHead (nswapOf 3 512)).pat 1) 32 = 3) ∧
    (ownBytes (nswapOf 3 512) 384 (pw (cpHead (nswapOf 3 512)).pat 1 + 32) 32 = 512 ∧
      ownBytes (nswapOf 3 512) 384 (pw (cpHead (nswapOf 3 512)).pat 0) 32 = 3 ∧
      (lined 1).known 512 = false) := by
  simp only [OwnRange, RunsCp, Owner, Sound]
  refine ⟨by decide +kernel, by decide +kernel, by decide +kernel, by decide +kernel⟩

theorem wit_NamedCompletes_nout_zero :
    (namedHeld (noutOf 0) 384 (cpHead (noutOf 0)) = false ∧
      RunsCp (noutOf 0) 384 0 (cpHead (noutOf 0)) ∧
      Owner (noutOf 0) (cpHead (noutOf 0)).iss 1536 ∧
      (cpHead (noutOf 0)).o.tout < 64 ∧
      (noutOf 0).mem.loose.any (Loose.meets Space.sp.code (384 * 2 ^ 24) (2 ^ 24)) = false ∧
      cpDone (noutOf 0) 384 (cpHead (noutOf 0)) = true ∧ (cpHead (noutOf 0)).iss.poisoned = false ∧ (cpHead (noutOf 0)).fault = none ∧ (cpHead (noutOf 0)).acts = 0 ∧ (cpHead (noutOf 0)).got = [] ∧ (cpHead (noutOf 0)).lost = [] ∧ (cpHead (noutOf 0)).gone = 0) ∧
    ((noutOf 0).lostWays (cpHead (noutOf 0)).iss = [] ∧
      (cpHead (noutOf 0)).removed (noutOf 0) = false ∧
      coreOf (cpHead (noutOf 0)).iss.ctx = 384 ∧
      (cpHead (noutOf 0)).counter = 0 ∧
      namedN (cpHead (noutOf 0)).pat = 1 ∧
      (cpHead (noutOf 0)).op = 0x15) ∧
    ((∀ g ∈ namedOwn 0x15 (cpHead (noutOf 0)).pat, g.1 % g.2.1 = 0 ∧ OwnRange (noutOf 0) 384 (cpHead (noutOf 0)) g.1 g.2.2) ∧
      (cpHead (noutOf 0)).acc = [0] ∧
      (cpHead (noutOf 0)).todo = [] ∧
      (cpHead (noutOf 0)).left = List.range 8 ∧
      (cpHead (noutOf 0)).depth = 0 ∧
      pw (cpHead (noutOf 0)).pat 1 % 128 = 0) ∧
    (OwnRange (noutOf 0) 384 (cpHead (noutOf 0)) (pw (cpHead (noutOf 0)).pat 1) 128) := by
  simp only [OwnRange, RunsCp, Owner, Sound]
  refine ⟨by decide +kernel, by decide +kernel, by decide +kernel, by decide +kernel⟩

theorem wit_NamedCompletes_nout_leaf :
    (namedHeld (noutOf 256) 384 (cpHead (noutOf 256)) = false ∧
      RunsCp (noutOf 256) 384 0 (cpHead (noutOf 256)) ∧
      Owner (noutOf 256) (cpHead (noutOf 256)).iss 1536 ∧
      (cpHead (noutOf 256)).o.tout < 64 ∧
      (noutOf 256).mem.loose.any (Loose.meets Space.sp.code (384 * 2 ^ 24) (2 ^ 24)) = false ∧
      cpDone (noutOf 256) 384 (cpHead (noutOf 256)) = true ∧ (cpHead (noutOf 256)).iss.poisoned = false ∧ (cpHead (noutOf 256)).fault = none ∧ (cpHead (noutOf 256)).acts = 0 ∧ (cpHead (noutOf 256)).got = [] ∧ (cpHead (noutOf 256)).lost = [] ∧ (cpHead (noutOf 256)).gone = 0) ∧
    ((noutOf 256).lostWays (cpHead (noutOf 256)).iss = [] ∧
      (cpHead (noutOf 256)).removed (noutOf 256) = false ∧
      coreOf (cpHead (noutOf 256)).iss.ctx = 384 ∧
      (cpHead (noutOf 256)).counter = 0 ∧
      namedN (cpHead (noutOf 256)).pat = 1 ∧
      (cpHead (noutOf 256)).op = 0x15) ∧
    ((∀ g ∈ namedOwn 0x15 (cpHead (noutOf 256)).pat, g.1 % g.2.1 = 0 ∧ OwnRange (noutOf 256) 384 (cpHead (noutOf 256)) g.1 g.2.2) ∧
      (cpHead (noutOf 256)).acc = [256] ∧
      (cpHead (noutOf 256)).todo = [] ∧
      (cpHead (noutOf 256)).left = List.range 8 ∧
      (cpHead (noutOf 256)).depth = 0 ∧
      pw (cpHead (noutOf 256)).pat 1 % 128 = 0) ∧
    (OwnRange (noutOf 256) 384 (cpHead (noutOf 256)) (pw (cpHead (noutOf 256)).pat 1) 128 ∧
      nameNode 256 = false ∧
      (lined 1).find 256 = some ⟨1, false, 0, 5, 1, false⟩) := by
  simp only [OwnRange, RunsCp, Owner, Sound]
  refine ⟨by decide +kernel, by decide +kernel, by decide +kernel, by decide +kernel⟩

theorem wit_NamedCompletes_nout_node :
    (namedHeld (noutOf (mkName 1 true 0)) 384 (cpHead (noutOf (mkName 1 true 0))) = false ∧
      RunsCp (noutOf (mkName 1 true 0)) 384 0 (cpHead (noutOf (mkName 1 true 0))) ∧
      Owner (noutOf (mkName 1 true 0)) (cpHead (noutOf (mkName 1 true 0))).iss 1536 ∧
      (cpHead (noutOf (mkName 1 true 0))).o.tout < 64 ∧
      (noutOf (mkName 1 true 0)).mem.loose.any (Loose.meets Space.sp.code (384 * 2 ^ 24) (2 ^ 24)) = false ∧
      cpDone (noutOf (mkName 1 true 0)) 384 (cpHead (noutOf (mkName 1 true 0))) = true ∧ (cpHead (noutOf (mkName 1 true 0))).iss.poisoned = false ∧ (cpHead (noutOf (mkName 1 true 0))).fault = none ∧ (cpHead (noutOf (mkName 1 true 0))).acts = 0 ∧ (cpHead (noutOf (mkName 1 true 0))).got = [] ∧ (cpHead (noutOf (mkName 1 true 0))).lost = [] ∧ (cpHead (noutOf (mkName 1 true 0))).gone = 0) ∧
    ((noutOf (mkName 1 true 0)).lostWays (cpHead (noutOf (mkName 1 true 0))).iss = [] ∧
      (cpHead (noutOf (mkName 1 true 0))).removed (noutOf (mkName 1 true 0)) = false ∧
      coreOf (cpHead (noutOf (mkName 1 true 0))).iss.ctx = 384 ∧
      (cpHead (noutOf (mkName 1 true 0))).counter = 0 ∧
      namedN (cpHead (noutOf (mkName 1 true 0))).pat = 1 ∧
      (cpHead (noutOf (mkName 1 true 0))).op = 0x15) ∧
    ((∀ g ∈ namedOwn 0x15 (cpHead (noutOf (mkName 1 true 0))).pat, g.1 % g.2.1 = 0 ∧ OwnRange (noutOf (mkName 1 true 0)) 384 (cpHead (noutOf (mkName 1 true 0))) g.1 g.2.2) ∧
      (cpHead (noutOf (mkName 1 true 0))).acc = [(mkName 1 true 0)] ∧
      (cpHead (noutOf (mkName 1 true 0))).todo = [] ∧
      (cpHead (noutOf (mkName 1 true 0))).left = List.range 8 ∧
      (cpHead (noutOf (mkName 1 true 0))).depth = 0 ∧
      pw (cpHead (noutOf (mkName 1 true 0))).pat 1 % 128 = 0) ∧
    (OwnRange (noutOf (mkName 1 true 0)) 384 (cpHead (noutOf (mkName 1 true 0))) (pw (cpHead (noutOf (mkName 1 true 0))).pat 1) 128 ∧
      nameNode (mkName 1 true 0) = true) := by
  simp only [OwnRange, RunsCp, Owner, Sound]
  refine ⟨by decide +kernel, by decide +kernel, by decide +kernel, by decide +kernel⟩

theorem wit_NamedCompletes_nstat :
    (namedHeld (nstatOf 256) 384 (cpHead (nstatOf 256)) = false ∧
      RunsCp (nstatOf 256) 384 0 (cpHead (nstatOf 256)) ∧
      Owner (nstatOf 256) (cpHead (nstatOf 256)).iss 1536 ∧
      (cpHead (nstatOf 256)).o.tout < 64 ∧
      (nstatOf 256).mem.loose.any (Loose.meets Space.sp.code (384 * 2 ^ 24) (2 ^ 24)) = false ∧
      cpDone (nstatOf 256) 384 (cpHead (nstatOf 256)) = true ∧ (cpHead (nstatOf 256)).iss.poisoned = false ∧ (cpHead (nstatOf 256)).fault = none ∧ (cpHead (nstatOf 256)).acts = 0 ∧ (cpHead (nstatOf 256)).got = [] ∧ (cpHead (nstatOf 256)).lost = [] ∧ (cpHead (nstatOf 256)).gone = 0) ∧
    ((nstatOf 256).lostWays (cpHead (nstatOf 256)).iss = [] ∧
      (cpHead (nstatOf 256)).removed (nstatOf 256) = false ∧
      coreOf (cpHead (nstatOf 256)).iss.ctx = 384 ∧
      (cpHead (nstatOf 256)).counter = 0 ∧
      namedN (cpHead (nstatOf 256)).pat = 1 ∧
      (cpHead (nstatOf 256)).op = 0x16) ∧
    ((∀ g ∈ namedOwn 0x16 (cpHead (nstatOf 256)).pat, g.1 % g.2.1 = 0 ∧ OwnRange (nstatOf 256) 384 (cpHead (nstatOf 256)) g.1 g.2.2) ∧
      (cpHead (nstatOf 256)).todo = [0] ∧
      (cpHead (nstatOf 256)).left = [0]) := by
  simp only [OwnRange, RunsCp, Owner, Sound]
  refine ⟨by decide +kernel, by decide +kernel, by decide +kernel⟩

theorem wit_NameCounts_saturated :
    (lined 0xFFFFFF).find 256 = some ⟨1, false, 0, 5, 0xFFFFFF, false⟩ ∧
    (∀ x ∈ (lined 0xFFFFFF).lines, x.named 256 = true → x = ⟨1, false, 0, 5, 0xFFFFFF, false⟩) ∧
    (lined 0xFFFFFF).stats.length = 7 ∧
    0xFFFFFF < 2 ^ 24 ∧
    (nameHash 512, nameNode 512, nameOrd 512) ≠ (nameHash 256, nameNode 256, nameOrd 256) := by decide +kernel

theorem wit_NameCounts_last :
    (lined 0xFFFFFE).find 256 = some ⟨1, false, 0, 5, 0xFFFFFE, false⟩ ∧
    (∀ x ∈ (lined 0xFFFFFE).lines, x.named 256 = true → x = ⟨1, false, 0, 5, 0xFFFFFE, false⟩) ∧
    (lined 0xFFFFFE).stats.length = 7 ∧
    0xFFFFFE < 2 ^ 24 ∧
    (nameHash 512, nameNode 512, nameOrd 512) ≠ (nameHash 256, nameNode 256, nameOrd 256) := by decide +kernel

theorem wit_NameCounts_two :
    (lined 2).find 256 = some ⟨1, false, 0, 5, 2, false⟩ ∧
    (∀ x ∈ (lined 2).lines, x.named 256 = true → x = ⟨1, false, 0, 5, 2, false⟩) ∧
    (lined 2).stats.length = 7 ∧
    2 < 2 ^ 24 ∧
    (nameHash 512, nameNode 512, nameOrd 512) ≠ (nameHash 256, nameNode 256, nameOrd 256) := by decide +kernel

theorem wit_NameCounts_one :
    (lined 1).find 256 = some ⟨1, false, 0, 5, 1, false⟩ ∧
    (∀ x ∈ (lined 1).lines, x.named 256 = true → x = ⟨1, false, 0, 5, 1, false⟩) ∧
    (lined 1).stats.length = 7 ∧
    1 < 2 ^ 24 ∧
    (nameHash 512, nameNode 512, nameOrd 512) ≠ (nameHash 256, nameNode 256, nameOrd 256) := by decide +kernel

theorem wit_NameTable_present :
    (hashed 1 []).lines.find? (fun x => x.hash == lineHash 0 8 false 7 && x.node == false && x.data == 7) = some ⟨lineHash 0 8 false 7, false, 0, 7, 1, false⟩ := by decide +kernel

theorem wit_NameTable_bad :
    (∃ l ∈ (spoilt).lines, l.hash = lineHash 0 8 false 7 ∧ l.node = false ∧ l.bad = true) := by decide +kernel

theorem wit_NameTable_first_ordinal :
    lineHash 0 8 false 1286 = 0 ∧
    (0 = 0 ∧ false = false ∧ 0 = 0) := by decide +kernel

theorem wit_NameTable_absent :
    (hashed 1 []).lines.find? (fun x => x.hash == lineHash 0 8 false 8 && x.node == false && x.data == 8) = none ∧
    0 ∉ (hashed 1 []).used (lineHash 0 8 false 8) false ∨ 1 ∉ (hashed 1 []).used (lineHash 0 8 false 8) false ∧
    (hashed 1 []).tentries ≤ (hashed 1 []).lines.length + (hashed 1 []).freeing.length ∧
    1 < (hashed 2 []).tentries ∧ 1 < (hashed 2 []).hsize / 128 := by decide +kernel

theorem wit_NameTable_bucket_full :
    (∀ i < 128, i ∈ (hashed 2 ((List.range 128).map (fun i => (lineHash 0 8 false 8, false, i)))).used (lineHash 0 8 false 8) false) := by decide +kernel

theorem wit_NameTable_reclaims :
    ({ lined 1 with pend := [256] } : Region).pend[0]? = some 256 ∧
    idle.mem.loose.any (Loose.meets Space.dram.code ((idle.region 0).desc + 0x30) 56) = false := by decide +kernel

theorem wit_RoundTrip :
    ((Instr.saAdd ⟨0x77F, 0xFFF, true, true, 15⟩).word).map (·.1) = some 4 ∧
    (Instr.saAdd ⟨0x77F, 0xFFF, true, true, 15⟩).wf = true ∧
    (Instr.saAdd ⟨0x77F, 0xFFF, true, true, 15⟩).isNop = false ∧
    (Instr.word .ctNop) = some (3, 0) ∧
    Instr.wf .ctNop = true := by decide +kernel

theorem wit_LiteralOrder :
    (List.replicate 24 0).length = 24 ∧
    (∀ w ∈ List.replicate 24 0, w < 65536) ∧
    (∀ k < 24, idle.fetchWord 1536 (1 + k) = .word ((List.replicate 24 0).getD k 0)) := by decide +kernel

theorem wit_NopSlots :
    2 ^ 57 < 2 ^ 64 ∧ fld (2 ^ 57) 58 6 = 0 ∧
    2 ^ 41 < 2 ^ 48 ∧ fld (2 ^ 41) 42 6 = 0 ∧
    slotBits (2 ^ (slotPlace 3).1) 3 ≠ 0 ∧ fld (slotBits (2 ^ (slotPlace 3).1) 3) 42 6 = 0 ∧
    slotBits (2 ^ (slotPlace 1).1) 1 ≠ 0 ∧ fld (slotBits (2 ^ (slotPlace 1).1) 1) 58 6 = 0 ∧
    CanIssue idle ∧
    ¬ AtLoopEnd idle := by
  simp only [CanIssue, AtLoopEnd]
  decide +kernel

theorem wit_StepRunsDecoded_input :
    ({ idle with inputs := [.ctNop] } : State).inputs = .ctNop :: [] := by decide +kernel

theorem wit_StepRunsDecoded_bundle :
    (literal (.saMov ⟨0x386, 0x386, false, false, 0⟩)).moves = [] ∧
    (literal (.saMov ⟨0x386, 0x386, false, false, 0⟩)).progress = (literal (.saMov ⟨0x386, 0x386, false, false, 0⟩)) ∧
    (literal (.saMov ⟨0x386, 0x386, false, false, 0⟩)).inputs = [] ∧
    (literal (.saMov ⟨0x386, 0x386, false, false, 0⟩)).forced = none ∧
    (literal (.saMov ⟨0x386, 0x386, false, false, 0⟩)).pick = some (.issue 1536) ∧
    ((literal (.saMov ⟨0x386, 0x386, false, false, 0⟩)).ctx 1536).resident = true ∧ ((literal (.saMov ⟨0x386, 0x386, false, false, 0⟩)).ctx 1536).seq.wake ≤ (literal (.saMov ⟨0x386, 0x386, false, false, 0⟩)).clock ∧ ((literal (.saMov ⟨0x386, 0x386, false, false, 0⟩)).ctx 1536).seq.wait = none ∧
    ((({ (literal (.saMov ⟨0x386, 0x386, false, false, 0⟩)) with cur := 1536 } : State).settled 1536).ctx 1536).seq.pend = none ∧ ((({ (literal (.saMov ⟨0x386, 0x386, false, false, 0⟩)) with cur := 1536 } : State).settled 1536).ctx 1536).seq.fpx = none ∧
    (({ (literal (.saMov ⟨0x386, 0x386, false, false, 0⟩)) with cur := 1536 } : State).settled 1536).fetch 1536 = .bundle (ofWords16 ((encode (.saMov ⟨0x386, 0x386, false, false, 0⟩)).drop 1)) 25 ∧
    (match decodeBundle (ofWords16 ((encode (.saMov ⟨0x386, 0x386, false, false, 0⟩)).drop 1)) with | .ok g => g.hdr == Header.none && bundleWork g == [(4, .saMov ⟨0x386, 0x386, false, false, 0⟩)] | .error _ => false) = true := by decide +kernel

theorem wit_BundleIssue_held :
    ((State.reset).ctx 1536).resident = false ∧
    (late).clock < ((late).ctx 1536).seq.wake := by decide +kernel

theorem wit_BundleIssue_waits :
    ((waiting .drain).ctx 1536).resident = true ∧
    Wait.stalls .drain = true ∧
    ((waiting .drain).ctx 1536).sched.stall = none ∧
    ((waiting .drain).ctx 1536).seq.wake ≤ (waiting .drain).clock ∧
    Wait.stalls (.save 5) = false ∧
    ((waiting (.save 5)).ctx 1536).seq.wait = some (.save 5) := by decide +kernel

theorem wit_BundleIssue_refill :
    (refilling.ctx 1536).resident = true ∧ (refilling.ctx 1536).seq.wake ≤ refilling.clock ∧ (refilling.ctx 1536).seq.wait = none ∧
    ((({ refilling with cur := 1536 } : State).settled 1536).ctx 1536).seq.pend = none ∧ ((({ refilling with cur := 1536 } : State).settled 1536).ctx 1536).seq.fpx = none ∧
    (({ refilling with cur := 1536 } : State).settled 1536).fetch 1536 = .refill 3 ∧
    (refilling.ctx 1536).sched.stall = none := by decide +kernel

theorem wit_BundleIssue_pending :
    (pending.ctx 1536).resident = true ∧ (pending.ctx 1536).seq.wake ≤ pending.clock ∧ (pending.ctx 1536).seq.wait = none ∧
    (pending.ctx 1536).seq.pend = some ⟨0x0F, 5⟩ := by decide +kernel

theorem wit_BundleIssue_fp :
    (fpPending.ctx 1536).resident = true ∧ (fpPending.ctx 1536).seq.wake ≤ fpPending.clock ∧ (fpPending.ctx 1536).seq.wait = none ∧
    (fpPending.ctx 1536).seq.pend = none ∧
    ((({ fpPending with cur := 1536 } : State).settled 1536).ctx 1536).seq.fpx = some 7 ∧
    (({ fpPending with cur := 1536 } : State).settled 1536).nextTrap 1536 = none := by decide +kernel

theorem wit_BundleIssue_fp_merged :
    (fpEnded.ctx 1536).resident = true ∧ (fpEnded.ctx 1536).seq.wake ≤ fpEnded.clock ∧ (fpEnded.ctx 1536).seq.wait = none ∧
    (fpEnded.ctx 1536).seq.pend = none ∧
    ((({ fpEnded with cur := 1536 } : State).settled 1536).ctx 1536).seq.fpx = some 7 ∧
    (({ fpEnded with cur := 1536 } : State).settled 1536).nextTrap 1536 = some (0x09, 25, 0) := by decide +kernel

theorem wit_BundleIssue_fetch_traps :
    (ended.ctx 1536).resident = true ∧ (ended.ctx 1536).seq.wake ≤ ended.clock ∧ (ended.ctx 1536).seq.wait = none ∧
    (ended.ctx 1536).seq.pend = none ∧
    ((({ ended with cur := 1536 } : State).settled 1536).ctx 1536).seq.fpx = none ∧
    (({ ended with cur := 1536 } : State).settled 1536).fetch 1536 = .trap 0x09 25 0 := by decide +kernel

theorem wit_BundleIssue_words :
    (uncached.ctx 1536).resident = true ∧ (uncached.ctx 1536).seq.wake ≤ uncached.clock ∧ (uncached.ctx 1536).seq.wait = none ∧
    ((({ uncached with cur := 1536 } : State).settled 1536).ctx 1536).seq.fpx = none ∧
    (({ uncached with cur := 1536 } : State).settled 1536).fetch 1536 = .words := by decide +kernel

theorem wit_BundleIssue_illegal :
    (illegal.ctx 1536).resident = true ∧ (illegal.ctx 1536).seq.wake ≤ illegal.clock ∧ (illegal.ctx 1536).seq.wait = none ∧
    (match (({ illegal with cur := 1536 } : State).settled 1536).fetch 1536 with | .bundle b _ => (match decodeBundle b with | .error _ => true | .ok _ => false) | _ => false) = true := by decide +kernel

theorem wit_BundleIssue_traps :
    (trapping.ctx 1536).resident = true ∧ (trapping.ctx 1536).seq.wake ≤ trapping.clock ∧ (trapping.ctx 1536).seq.wait = none ∧
    (match (({ trapping with cur := 1536 } : State).settled 1536).fetch 1536 with | .bundle b _ => (match decodeBundle b with | .ok g => attemptSlots (({ trapping with cur := 1536 } : State).settled 1536) 1536 g.hdr (bundleSems (({ trapping with cur := 1536 } : State).settled 1536) (bundleWork g)) == .trap 0x04 3 | .error _ => false) | _ => false) = true := by decide +kernel

theorem wit_BundleIssue_goes :
    ((literal (.saMov ⟨0x386, 0x386, false, false, 0⟩)).ctx 1536).resident = true ∧ ((literal (.saMov ⟨0x386, 0x386, false, false, 0⟩)).ctx 1536).seq.wake ≤ (literal (.saMov ⟨0x386, 0x386, false, false, 0⟩)).clock ∧ ((literal (.saMov ⟨0x386, 0x386, false, false, 0⟩)).ctx 1536).seq.wait = none ∧
    (match (({ (literal (.saMov ⟨0x386, 0x386, false, false, 0⟩)) with cur := 1536 } : State).settled 1536).fetch 1536 with | .bundle b _ => (match decodeBundle b with | .ok g => attemptSlots (({ (literal (.saMov ⟨0x386, 0x386, false, false, 0⟩)) with cur := 1536 } : State).settled 1536) 1536 g.hdr (bundleSems (({ (literal (.saMov ⟨0x386, 0x386, false, false, 0⟩)) with cur := 1536 } : State).settled 1536) (bundleWork g)) == .go | .error _ => false) | _ => false) = true := by decide +kernel

theorem wit_BundleIssue_stalls :
    (stalling.ctx 1536).resident = true ∧ (stalling.ctx 1536).seq.wake ≤ stalling.clock ∧ (stalling.ctx 1536).seq.wait = none ∧
    (match (({ stalling with cur := 1536 } : State).settled 1536).fetch 1536 with | .bundle b _ => (match decodeBundle b with | .ok g => (match attemptSlots (({ stalling with cur := 1536 } : State).settled 1536) 1536 g.hdr (bundleSems (({ stalling with cur := 1536 } : State).settled 1536) (bundleWork g)) with | .stall _ => true | _ => false) | .error _ => false) | _ => false) = true := by decide +kernel

theorem wit_NextOrNoContext :
    (Instr.word .ctNop).isSome = true ∧
    (State.reset.ctx State.reset.cur).resident = false ∧
    State.reset.inputs = [] := by decide +kernel

theorem wit_WaitsEnd_tokens :
    ((waiting (.tokens 6 true)).ctx 1536).resident = true ∧
    ((waiting (.tokens 6 true)).ctx 1536).seq.wait = some (.tokens 6 true) ∧
    (∀ t < 64, bitAt 6 t = true → ((waiting (.tokens 6 true)).ctx 1536).tokSet t = true) ∧
    (∃ t ∈ List.range 64, bitAt (2 ^ 5) t = true ∧ (tokenless.ctx 1536).tokSet t = false) ∧
    (tokenless.ctx 1536).seq.wait = some (.tokens (2 ^ 5) false) := by decide +kernel

theorem wit_WaitsEnd_stopped :
    ((stopping (.tokens 6 true)).ctx 1536).resident = true ∧
    ((stopping (.tokens 6 true)).ctx 1536).stopped = true ∧
    ((stopping (.tokens 6 true)).ctx 1536).seq.wait = some (.tokens 6 true) ∧
    ((stopping (.counter 0 0)).ctx 1536).stopped = true ∧
    watchRead (own 1 (stopping (.counter 0 0))) 1536 0 = some 0 ∧
    ((waiting (.tokens 6 true)).ctx 1536).stopped = false ∧ ((own 1 (waiting (.counter 0 0))).ctx 1536).stopped = false := by decide +kernel

theorem wit_WaitsEnd_engines :
    ((waiting .engines).ctx 1536).resident = true ∧
    (waiting .engines).engineBusy 1 0 (fun _ _ _ => true) = false ∧
    ((waiting .engines).ctx 1536).seq.wait = some .engines ∧
    (engined.ctx 1536).seq.wait = some .engines ∧
    engined.engineBusy (engined.ctx 1536).sched.job (engined.ctx 1536).sched.place (fun _ _ _ => true) = true := by decide +kernel

theorem wit_WaitsEnd_counter :
    ((own 1 (waiting (.counter 0 0))).ctx 1536).resident = true ∧
    watchRead (own 1 (waiting (.counter 0 0))) 1536 0 = some 0 ∧
    watchRead (own 1 (waiting (.counter 0 1))) 1536 0 = some 0 ∧
    ((own 1 (waiting (.counter 0 1))).ctx 1536).seq.wait = some (.counter 0 1) := by decide +kernel

theorem wit_WaitsEnd_fresh :
    ((freshened (.tokens 6 true)).ctx 1536).resident = true ∧
    (∃ f ∈ ((freshened (.tokens 6 true)).core 384).fresh, bitAt ((freshened (.tokens 6 true)).ctx 1536).win.ways f.way = true ∧ f.ofOwner 1 0 = true) ∧
    ((freshened .engines).ctx 1536).seq.wait = some .engines ∧
    ((freshened (.counter 0 0)).ctx 1536).seq.wait = some (.counter 0 0) := by decide +kernel

theorem wit_WaitsEnd_counter_held :
    ((watchAcross).ctx 1536).resident = true ∧
    (watchAcross.ctx 1536).seq.wait = some (.counter 0x20000000 1) ∧
    watchRead watchAcross 1536 0x20000000 = none := by decide +kernel

theorem wit_WaitsEnd_counter_leaf :
    ((watchPage pteDram).ctx 1536).resident = true ∧
    watchRead (watchPage pteDram) 1536 0x20000000 = some 0 ∧
    (match (watchTarget (watchPage pteDram) 1536 0x20000000).bind (·.leaf) with | some f => bitAt f.pte 11 | none => false) = true ∧
    watchRead (watchPage (pteDram - 2 ^ 11)) 1536 0x20000000 = some 0 ∧
    (match (watchTarget (watchPage (pteDram - 2 ^ 11)) 1536 0x20000000).bind (·.leaf) with | some f => !bitAt f.pte 11 | none => false) = true := by decide +kernel

theorem wit_WaitsEnd_drain :
    ((waiting .drain).ctx 1536).remotePending = false ∧
    (draining.ctx 1536).seq.wait = some .drain ∧
    (draining.ctx 1536).remotePending = true ∧
    ((draining).ctx 1536).resident = true := by decide +kernel

theorem wit_WaitsEnd_xfence :
    (waiting .xfence).xcpyPending ((waiting .xfence).ctx 1536) = false ∧
    xcopied.xcpyPending (xcopied.ctx 1536) = true ∧
    (xcopied.ctx 1536).seq.wait = some .xfence ∧
    ((xcopied).ctx 1536).resident = true := by decide +kernel

theorem wit_WaitsEnd_xfence_loose :
    ((loosened).ctx 1536).resident = true ∧
    (loosened.ctx 1536).seq.wait = some .xfence ∧
    loosened.xcpyPending (loosened.ctx 1536) = false ∧
    loosened.mem.loose.filter (fun e => e.job == (loosened.ctx 1536).sched.job && e.place == (loosened.ctx 1536).sched.place) = [⟨1, 0, 9, ⟨0, 0, 2, false⟩, 0x100, 1, 384 * 2 ^ 24 + 0x100, 8, 7⟩] ∧
    (1 : Nat) < 4 ∧
    (∀ d ∈ (waiting .xfence).mem.loose, ¬ OwnLoose ((waiting .xfence).ctx 1536) d) := by
  simp only [OwnLoose]
  decide +kernel

theorem wit_WaitsEnd_fsync_maint :
    ((maintaining).ctx 1536).resident = true ∧
    (maintaining.ctx 1536).seq.wait = some .fsync ∧
    (∃ m ∈ (maintaining.core 384).maint, m.ofOwner 1 0 = true ∧ m.inv = true) ∧
    (∃ m ∈ (maintaining.core 384).maint, m.ofOwner 1 0 = true ∧ m.inv = false) := by decide +kernel

theorem wit_WaitsEnd_fsync :
    ((waiting .fsync).ctx 1536).resident = true ∧
    ((waiting .fsync).ctx 1536).seq.wait = some .fsync := by decide +kernel

theorem wit_WaitsEnd_push :
    ((pushWait 3).ctx 1536).seq.wait = some (.push 63 5) ∧
    (pushWait 3).hasSlot 63 = true ∧
    (pushWait 4).hasSlot 63 = false ∧
    ((pushWait 4).ctx 1536).resident = true := by decide +kernel

theorem wit_WaysAndWeirs_split :
    ((waiting (.split 0xFFFF)).ctx 1536).resident = true ∧
    0xFFFF < 65536 ∧
    ((waiting (.split 0xFFFF)).ctx 1536).win.ways < 65536 ∧
    ((waiting (.split 0xFFFF)).ctx 1536).seq.wait = some (.split 0xFFFF) := by decide +kernel

theorem wit_WaysAndWeirs_ways :
    (∀ w < 16, (0xFFFF : Nat).testBit w = true → wayFree (waiting (.ways 0xFFFF)) 1536 w = true) ∧
    ((waiting (.ways 0xFFFF)).ctx 1536).seq.wait = some (.ways 0xFFFF) ∧
    wayFree taken 1536 15 = false ∧
    (taken.ctx 1536).seq.wait = some (.ways 0xFFFF) := by decide +kernel

theorem wit_WaysAndWeirs_ways_own :
    (∀ w < 16, (0xFFFF : Nat).testBit w = true → (owning.way 384 w = .owned (owning.ctx 1536).sched.job 1536 ∧ wayFree owning 1536 w = true)) ∧
    (owning.ctx 1536).seq.wait = some (.ways 0xFFFF) ∧
    ((owning).ctx 1536).resident = true := by decide +kernel

theorem wit_WaysAndWeirs_both :
    ((both).ctx 1536).resident = true ∧
    (both.ctx 1536).seq.behind.isSome = true ∧
    (both.ctx 1536).weir = (both.ctx 1536).seq.behind ∧
    (both.ctx 1536).weir = some (.weir 0 4 false false true) := by decide +kernel

theorem wit_WaysAndWeirs_stopped :
    ((weirStopped).ctx 1536).resident = true ∧
    (weirStopped.ctx 1536).weir = some (.weir 0 4 false true true) ∧
    (weirStopped.ctx 1536).stopped = true := by decide +kernel

theorem wit_WaysAndWeirs_paused :
    ((weirPaused).ctx 1536).resident = true ∧
    (weirPaused.ctx 1536).weir = some (.weir 0 4 false false true) ∧
    releasePaused weirPaused 1536 0 = true := by decide +kernel

theorem wit_WaysAndWeirs_arrive :
    ((weired false false).ctx 1536).resident = true ∧
    ((weired false false).ctx 1536).weir = some (.weir 0 4 false false false) ∧
    ((weired false false).ctx 1536).seq.behind = none ∧
    ((weired false false).ctx 1536).remotePending = false ∧
    (weired false false).xcpyPending ((weired false false).ctx 1536) = false ∧
    (∀ d ∈ (weired false false).mem.loose, ¬ OwnLoose ((weired false false).ctx 1536) d) := by
  simp only [OwnLoose]
  decide +kernel

theorem wit_WaysAndWeirs_release_weir :
    ((weired false true).ctx 1536).resident = true ∧
    ((weired false true).ctx 1536).seq.wait = some (.weir 0 4 false false true) ∧
    gmPlaces (weired false true) ((weired false true).ctx 1536) 0 = [0] ∧
    ((weired false true).ctxAt 1 0).isSome = true ∧
    look 0 ((weired false true).ctx 1536).sched.arrivals 0 = 4 ∧
    taggedBusy (weired false true) ((weired false true).ctx 1536) 0 = false := by decide +kernel

theorem wit_WaysAndWeirs_release_step :
    ((weired true true).ctx 1536).resident = true ∧
    ((weired true true).ctx 1536).seq.wait = some (.weir 0 4 true false true) ∧
    gmPlaces (weired true true) ((weired true true).ctx 1536) 0 = [0] ∧
    ((weired true true).ctxAt 1 0).isSome = true ∧
    look 0 ((weired true true).ctx 1536).sched.arrivals 0 = 4 ∧
    taggedBusy (weired true true) ((weired true true).ctx 1536) 0 = false := by decide +kernel

theorem wit_WaysAndWeirs_holds :
    (alone.ctx 1536).seq.wait = some (.weir 0 4 false false true) ∧
    gmPlaces alone (alone.ctx 1536) 0 = [0] ∧
    (alone.ctxAt 1 0).any (fun y => y.seq.run == .resident && decide (look 0 y.sched.arrivals 0 < 4)) = true ∧
    taggedBusy tagged (tagged.ctx 1536) 0 = true ∧
    (tagged.ctx 1536).seq.wait = some (.weir 0 4 true false true) := by decide +kernel

theorem wit_Landings_lands :
    ((flying [result]).ctx 1536).bound = true ∧
    ((flying [result]).ctx 1536).ports.flights[0]? = some result ∧
    ((flying [result]).ctx 1536).mayLand 0 result = true ∧
    ((flying [result]).ctx 1536).missing ((flying [result]).ctx 1536).seq.cyc = false ∧
    ((flying [{ result with lo := 1 }]).ctx 1536).mayLand 0 { result with lo := 1 } = false ∧
    result.landing.isNone = true := by decide +kernel

theorem wit_Landings_data :
    ((flying [landing (some (PVal.scal 1)) 9 false]).ctx 1536).bound = true ∧
    ((flying [landing (some (PVal.scal 1)) 9 false]).ctx 1536).ports.flights[0]? = some (landing (some (PVal.scal 1)) 9 false) ∧
    ((flying [landing (some (PVal.scal 1)) 9 false]).ctx 1536).sched.stall = none ∧ ((flying [landing (some (PVal.scal 1)) 9 false]).ctx 1536).seq.wait = none ∧
    ((flying [landing (some (PVal.scal 1)) 9 false]).ctx 1536).seq.cyc < (landing (some (PVal.scal 1)) 9 false).hi := by decide +kernel

theorem wit_Landings_comes :
    (flying [(landing (some (PVal.scal 1)) 9 false)]).comes 1536 ⟨1, false, true, none, 0⟩ = true ∧
    ((flying [(landing (some (PVal.scal 1)) 9 false)]).ctx 1536).bound = true ∧
    ((flying [(landing (some (PVal.scal 1)) 9 false)]).ctx 1536).seq.wait ≠ some (.fpstat 0x300 5) ∧
    (flying [landing (some (PVal.scal 1)) 9 true]).comes 1536 ⟨1, true, true, none, 0⟩ = false := by decide +kernel

theorem wit_Landings_host_error :
    (flying [asked1]).comes 1536 ⟨1, false, true, some 0x100, 0⟩ = true ∧
    asked1.landing = some ⟨1, false, true, some 0x100, 0⟩ ∧
    (flying [asked1]).miller.events.room = false ∧ (flying [asked1]).miller.events.buffer.length < 4096 ∧ (flying [asked1]).miller.events.folded = [] ∧
    ((flying [asked1]).ctx 1536).seq.wait = none := by decide +kernel

theorem wit_Landings_fpstat :
    (fpWaiting 8).comes 1536 ⟨1, false, true, none, 0⟩ = true ∧
    ((fpWaiting 8).ctx 1536).seq.wait = some (.fpstat 0x300 8) ∧
    ((fpWaiting 8).ctx 1536).resident = true ∧
    ((fpWaiting 8).ctx 1536).ports.flights[0]? = some (landing (some (PVal.scal 1)) 9 false) ∧
    (((fpWaiting 8).ctx 1536).setFlight 0 { (landing (some (PVal.scal 1)) 9 false) with landing := some ⟨1, true, true, none, 0⟩ }).missing 8 = false := by decide +kernel

theorem wit_Landings_fpstat_still :
    ((fpWaiting2).ctx 1536).seq.wait = some (.fpstat 0x300 9) ∧
    ((fpWaiting2).ctx 1536).resident = true ∧
    fpWaiting2.comes 1536 ⟨1, false, true, none, 0⟩ = true ∧
    ((fpWaiting2.ctx 1536).setFlight 0 { (landing (some (PVal.scal 1)) 9 false) with landing := some ⟨1, true, true, none, 0⟩ }).missing 9 = true := by decide +kernel

theorem wit_Landings_accepted :
    ((flying [landing none 9 false]).ctx 1536).ports.flights[0]? = some (landing none 9 false) ∧
    (landing none 9 false).val.isNone = true ∧
    ((flying [landing none 9 false]).ctx 1536).sched.stall = none := by decide +kernel

theorem wit_Landings_restart :
    ((frozen [landing none 0 false]).ctx 1536).sched.stall.isSome = true ∧
    ((frozen [landing none 0 false]).ctx 1536).seq.wait = none ∧
    (((frozen [landing none 0 false]).ctx 1536).setFlight 0 { landing none 0 false with landing := some ⟨1, true, true, none, 0⟩ }).missing ((frozen [landing none 0 false]).ctx 1536).seq.cyc = false := by decide +kernel

theorem wit_Landings_due :
    ((flying [landing none 0 false]).ctx 1536).missing 0 = true ∧
    (flying [landing none 0 false]).ready 1536 = true ∧
    (landing none 0 false).hi ≤ ((flying [landing none 0 false]).ctx 1536).seq.cyc ∧
    ((flying [landing none 0 true]).ctx 1536).missing ((flying [landing none 0 true]).ctx 1536).seq.cyc = false := by decide +kernel

theorem wit_Selector_slack :
    ((stalled 64).ctx 1536).sched.stall = some (0, 64) ∧
    0 + 64 ≤ (stalled 64).clock ∧
    ((stalled 65).ctx 1536).sched.stall = some (0, 65) ∧
    (stalled 65).clock < 0 + 65 ∧
    (idle.ctx 1536).sched.stall = none := by decide +kernel

theorem wit_Selector_yield :
    ((yielded 0).ctx 1536).sched.yieldAt = some 0 ∧
    0 + 64 ≤ (yielded 0).clock ∧
    ((yielded 1).ctx 1536).sched.yieldAt = some 1 ∧
    (yielded 1).clock < 1 + 64 ∧
    (idle.ctx 1536).sched.yieldAt = none := by decide +kernel

theorem wit_Selector_starved :
    (starving 4096).ready 1536 = true ∧
    ((starving 4096).ctx 1536).sched.readySince + 4096 ≤ (starving 4096).clock ∧
    (starving 4095).clock < ((starving 4095).ctx 1536).sched.readySince + 4096 := by decide +kernel

theorem wit_Fetch_walk :
    fetching.fetchAt 384 0 = some (.walk 0 0x10000 0x2000) ∧
    Fetch.walk 0 0x10000 0x2000 ∈ (fetching.die (dieOf 384)).walks.take 256 ∧
    fetching.walkBy (dieOf 384) 0 0x10000 (0x2000 * 65536) = none ∧
    (fetching.die 3).tables = [] ∧
    (∀ c ∈ ctxsOf 384, (fetching.ctx c).bound = true → c = 1536) := by decide +kernel

theorem wit_Fetch_walk_finds :
    mapped.fetchAt 384 0 = some (.walk 0 0 0x2000) ∧
    Fetch.walk 0 0 0x2000 ∈ (mapped.die (dieOf 384)).walks.take 256 ∧
    (mapped.walkBy (dieOf 384) 0 0 (0x2000 * 65536)).isSome = true ∧
    (mapped.core 384).tlb.length ≤ 256 := by decide +kernel

theorem wit_Fetch_walk_waits :
    crowded.fetchAt 384 256 = some (.walk 0 0x10000 256) ∧
    Fetch.walk 0 0x10000 256 ∉ (crowded.die (dieOf 384)).walks.take 256 := by decide +kernel

theorem wit_Fetch_refill :
    coded.fetchAt 384 0 = some (.refill 1536 3) ∧
    (coded.core 384).dict.find? (fun p => p.1 == 3) = some (3, ⟨0, 0x10000000, 0, 0, 1, false, ⟨0, 0x1000, 2, false⟩, ⟨0, 0x1000, 2, false⟩⟩) ∧
    (coded.refilled 384 ⟨0, 0x10000000, 0, 0, 1, false, ⟨0, 0x1000, 2, false⟩, ⟨0, 0x1000, 2, false⟩⟩).isSome = true ∧
    coded.mem.l1 = [] := by decide +kernel

theorem wit_Fetch_word :
    (coded.ctx 1536).resident = true ∧ (coded.ctx 1536).seq.wait = none ∧ (coded.ctx 1536).seq.pend = none ∧ (coded.ctx 1536).seq.fpx = none ∧
    coded.fetch 1536 = .words ∧
    coded.fetchWord 1536 (coded.ctx 1536).seq.pc = .miss ∧
    coded.inSegment (coded.ctx 1536) 0 = true ∧
    coded.fetchLeaf 384 1 0x10000000 = some ⟨2 ^ 11 + 21, 2, 0x128000, 0, 0x1000⟩ ∧
    coded.readPlace (leafTarget ⟨2 ^ 11 + 21, 2, 0x128000, 0, 0x1000⟩ 0x10000000).place 2 ≠ 0xFFFF ∧
    (coded.codeRead 384 1 0x10000000 2).mem = coded.mem ∧
    coded.mem.l1 = [] ∧
    idle.fetch 1536 ≠ .words ∧
    (ended.ctx 1536).seq.limit ≤ (ended.ctx 1536).seq.pc := by decide +kernel

theorem wit_PacketsStart_launch_region :
    (launching 15).hasTurn 3 1 = true ∧
    (launching 15).headJob 3 = none ∧
    bitAt (pktField ((launching 15).headPacket 3) 0x54 2) (pktField ((launching 15).headPacket 3) 0x52 1) = false ∧
    bitAt (pktField ((launching 0).headPacket 3) 0x54 2) (pktField ((launching 0).headPacket 3) 0x52 1) = true ∧
    ((launching 0).region 0).inst = false := by decide +kernel

theorem wit_PacketsStart_not_live :
    ¬ (State.reset.queueLive 3 = true) ∧
    (∀ t ∈ [1, 2, 3, 4, 5, 6], dev.hasTurn 3 t = false) := by decide +kernel

theorem wit_PacketsStart_good :
    (post dev 1 (pkt 3 1 [(4, 253)]) false).queueLive 3 = true ∧
    ((post dev 1 (pkt 3 1 [(4, 253)]) false).queue 3).valid ≠ some ((post dev 1 (pkt 3 1 [(4, 253)]) false).readIndex ((post dev 1 (pkt 3 1 [(4, 253)]) false).queue 3)) ∧
    1 ≤ (post dev 1 (pkt 3 1 [(4, 253)]) false).held ((post dev 1 (pkt 3 1 [(4, 253)]) false).queue 3) ∧
    (post dev 1 (pkt 3 1 [(4, 253)]) false).headSlots 3 ≤ (post dev 1 (pkt 3 1 [(4, 253)]) false).held ((post dev 1 (pkt 3 1 [(4, 253)]) false).queue 3) ∧
    (post dev 1 (pkt 3 1 [(4, 253)]) false).badReason ((post dev 1 (pkt 3 1 [(4, 253)]) false).headPacket 3) (fld ((post dev 1 (pkt 3 1 [(4, 253)]) false).queue 3).qcfg 8 3) (bitAt ((post dev 1 (pkt 3 1 [(4, 253)]) false).queue 3).qcfg 4) ((post dev 1 (pkt 3 1 [(4, 253)]) false).headJob 3) (decide (((post dev 1 (pkt 3 1 [(4, 253)]) false).queue 3).slots < (post dev 1 (pkt 3 1 [(4, 253)]) false).held ((post dev 1 (pkt 3 1 [(4, 253)]) false).queue 3))) = none := by decide +kernel

theorem wit_PacketsStart_bad :
    (post dev 1 (pkt 3 1 []) false).queueLive 3 = true ∧
    ((post dev 1 (pkt 3 1 []) false).queue 3).valid ≠ some ((post dev 1 (pkt 3 1 []) false).readIndex ((post dev 1 (pkt 3 1 []) false).queue 3)) ∧
    1 ≤ (post dev 1 (pkt 3 1 []) false).held ((post dev 1 (pkt 3 1 []) false).queue 3) ∧
    (post dev 1 (pkt 3 1 []) false).headSlots 3 ≤ (post dev 1 (pkt 3 1 []) false).held ((post dev 1 (pkt 3 1 []) false).queue 3) ∧
    (post dev 1 (pkt 3 1 []) false).badReason ((post dev 1 (pkt 3 1 []) false).headPacket 3) (fld ((post dev 1 (pkt 3 1 []) false).queue 3).qcfg 8 3) (bitAt ((post dev 1 (pkt 3 1 []) false).queue 3).qcfg 4) ((post dev 1 (pkt 3 1 []) false).headJob 3) (decide (((post dev 1 (pkt 3 1 []) false).queue 3).slots < (post dev 1 (pkt 3 1 []) false).held ((post dev 1 (pkt 3 1 []) false).queue 3))) = some 1 := by decide +kernel

theorem wit_PacketsStart_launch :
    (posted 3 (pkt 1 3 [])).hasTurn 3 1 = true := by decide +kernel

theorem wit_PacketsStart_wait :
    (posted 1 (pkt 2 1 [])).hasTurn 3 2 = true := by decide +kernel

theorem wit_PacketsStart_signal :
    (posted 1 (pkt 3 1 [])).hasTurn 3 3 = true := by decide +kernel

theorem wit_PacketsStart_node :
    (posted 2 (pkt 4 2 [])).hasTurn 3 4 = true := by decide +kernel

theorem wit_PacketsStart_tlbi :
    (posted 2 (pkt 6 2 [])).hasTurn 3 6 = true := by decide +kernel

theorem wit_PacketsStart_copy :
    ((posted 2 (pkt 5 2 [(0x40, 0x300000), (0x48, 0x300100), (0x50, 64)]))).hasTurn 3 5 = true ∧
    (posted 2 (pkt 5 2 [(0x40, 0x300000), (0x48, 0x300100), (0x50, 64)])).addressStatus none ((posted 2 (pkt 5 2 [(0x40, 0x300000), (0x48, 0x300100), (0x50, 64)])).headPacket 3) = none ∧
    (posted 2 (pkt 5 2 [(0x40, 0x300000), (0x48, 0x300100), (0x50, 64)])).headJob 3 = none := by decide +kernel

theorem wit_PacketsStart_copy_address :
    ((posted 2 (pkt 5 2 [(0x28, dramEnd)]))).hasTurn 3 5 = true ∧
    (posted 2 (pkt 5 2 [(0x28, dramEnd)])).addressStatus none ((posted 2 (pkt 5 2 [(0x28, dramEnd)])).headPacket 3) = some 3 ∧
    (posted 2 (pkt 5 2 [(0x28, dramEnd)])).headJob 3 = none := by decide +kernel

theorem wit_PacketsEnd_complete :
    (took 1 (some (0, 0)) (pkt 3 1 [(0x28, 0x400000), (0x30, 1)]) dev).takenOf 1 = some ⟨1, 3, 0, pkt 3 1 [(0x28, 0x400000), (0x30, 1)], none, none, some (0, 0)⟩ ∧
    (took 1 (some (0, 0)) (pkt 3 1 [(0x28, 0x400000), (0x30, 1)]) dev).miller.events.buffer.length < 4096 ∧
    pktSigAddr (pkt 3 1 [(0x28, 0x400000), (0x30, 1)]) = 0x400000 ∧
    (took 1 (some (0, 0)) (pkt 3 1 [(0x28, 0x400000), (0x30, 1)]) dev).millerHit none 0x400000 .atomic = .ok .dram 0x400000 none ∧
    pktSigAddr (pkt 3 1 []) = 0 ∧
    pktSigerr (pkt 3 1 []) = false ∧
    (∀ m ∈ (took 1 (some (0, 0)) (pkt 3 1 [(0x28, 0x400000), (0x30, 1)]) dev).miller.copies, m.n ≠ 1) := by decide +kernel

theorem wit_PacketsEnd_copy :
    (copyingFrom 0x300000 dev).takenOf 1 = some ⟨1, 3, 0, copyPkt, none, none, none⟩ ∧
    pktType copyPkt = 5 ∧
    (copyingFrom 0x300000 dev).miller.copies.find? (fun m => m.n == 1) = some (aCopy 0x300000) ∧
    (copyingFrom 0x300000 dev).paused (crossMask 0 3) = false ∧
    0x300100 % 65536 + 64 ≤ 65536 ∧
    (copyingFrom 0x300000 dev).millerHit none 0x300000 .load = .ok .dram 0x300000 none ∧
    ((copyingFrom 0x300000 dev).millerUse none 0x300000 none false 64).millerHit none 0x300100 .store = .ok .dram 0x300100 none ∧
    Sound (copyingFrom 0x300000 dev) .dram 0x300000 64 ∧
    pktSigAddr copyPkt = 0 ∧ pktNotify copyPkt = false := by
  simp only [Sound]
  decide +kernel

theorem wit_PacketsEnd_copy_fault :
    (copyingFrom dramEnd dev).takenOf 1 = some ⟨1, 3, 0, copyPkt, none, none, none⟩ ∧
    pktType copyPkt = 5 ∧
    (copyingFrom dramEnd dev).miller.copies.find? (fun m => m.n == 1) = some (aCopy dramEnd) ∧
    (copyingFrom dramEnd dev).paused (crossMask 0 3) = false ∧
    0x300100 % 65536 + 64 ≤ 65536 ∧
    (copyingFrom dramEnd dev).millerHit none dramEnd .load = .fault 0x50 0 ∧
    pktSigAddr copyPkt = 0 ∧
    (copyingFrom dramEnd dev).miller.events.room = false ∧ (copyingFrom dramEnd dev).miller.events.buffer.length < 4096 ∧ (copyingFrom dramEnd dev).miller.events.folded = [] ∧
    dramEnd % 65536 + 64 ≤ 65536 := by decide +kernel

theorem wit_PacketsEnd_copy_waits :
    (copyingFrom 0x300000 pausing).takenOf 1 = some ⟨1, 3, 0, copyPkt, none, none, none⟩ ∧
    pktType copyPkt = 5 ∧
    (copyingFrom 0x300000 pausing).miller.copies.find? (fun m => m.n == 1) = some (aCopy 0x300000) ∧
    (match (aCopy 0x300000).next (copyingFrom 0x300000 pausing) with | none => true | some _ => false) = true ∧
    (aCopy 0x300000).over = false := by decide +kernel

theorem wit_PacketsEnd_not_yet :
    (took 1 none 0 dev).takenOf 1 = some ⟨1, 3, 0, 0, none, none, none⟩ ∧
    dev.takenOf 1 = none ∧
    (∀ m ∈ dev.miller.copies, m.n ≠ 1) := by decide +kernel

theorem wit_PacketsEnd_job :
    (jobAt 2).job 1 = some { someJob with st := 2 } ∧
    (jobAt 2).allEnded 1 = true ∧
    (jobAt 2).engineWork 1 = false ∧
    (jobAt 2).hasChild 1 = false ∧
    (jobAt 0).job 1 = some { someJob with st := 0 } := by decide +kernel

theorem wit_PacketsEnd_node_unread :
    (noded dramEnd 0 0).takenOf ((noded dramEnd 0 0).node 7).taken = some ⟨1, 3, 0, pkt 4 2 [], none, none, none⟩ ∧
    ((noded dramEnd 0 0).node 7).defined = true ∧ ((noded dramEnd 0 0).node 7).count = 0 ∧ ((noded dramEnd 0 0).node 7).running = false ∧ (noded dramEnd 0 0).miller.snap = none ∧
    ((noded dramEnd 0 0).waitsHold ((noded dramEnd 0 0).node 7).job (pkt 4 2 [])).getD true = true ∧
    pktFence (pkt 4 2 []) = false ∧
    (noded dramEnd 0 0).workOf ((noded dramEnd 0 0).node 7) = none := by decide +kernel

theorem wit_PacketsEnd_node_held :
    ((noded 0 1 0).node 7).count ≠ 0 ∧
    (noded 0 1 0).takenOf ((noded 0 1 0).node 7).taken = some ⟨1, 3, 0, pkt 4 2 [], none, none, none⟩ := by decide +kernel

theorem wit_PacketsEnd_node_refused :
    (noded 0x300000 0 (pkt 2 1 [])).takenOf ((noded 0x300000 0 (pkt 2 1 [])).node 7).taken = some ⟨1, 3, 0, pkt 4 2 [], none, none, none⟩ ∧
    ((noded 0x300000 0 (pkt 2 1 [])).node 7).defined = true ∧ ((noded 0x300000 0 (pkt 2 1 [])).node 7).count = 0 ∧ ((noded 0x300000 0 (pkt 2 1 [])).node 7).running = false ∧ (noded 0x300000 0 (pkt 2 1 [])).miller.snap = none ∧
    ((noded 0x300000 0 (pkt 2 1 [])).waitsHold ((noded 0x300000 0 (pkt 2 1 [])).node 7).job (pkt 4 2 [])).getD true = true ∧
    pktFence (pkt 4 2 []) = false ∧
    (noded 0x300000 0 (pkt 2 1 [])).workOf ((noded 0x300000 0 (pkt 2 1 [])).node 7) = some (pkt 2 1 []) ∧
    (noded 0x300000 0 (pkt 2 1 [])).addressStatus none (pkt 4 2 []) = none ∧
    pktType (pkt 2 1 []) = 2 := by decide +kernel

theorem wit_PacketsEnd_node_dispatched :
    (noded 0x300000 0 (pkt 3 1 [(4, 253)])).takenOf ((noded 0x300000 0 (pkt 3 1 [(4, 253)])).node 7).taken = some ⟨1, 3, 0, pkt 4 2 [], none, none, none⟩ ∧
    ((noded 0x300000 0 (pkt 3 1 [(4, 253)])).node 7).defined = true ∧ ((noded 0x300000 0 (pkt 3 1 [(4, 253)])).node 7).count = 0 ∧ ((noded 0x300000 0 (pkt 3 1 [(4, 253)])).node 7).running = false ∧ (noded 0x300000 0 (pkt 3 1 [(4, 253)])).miller.snap = none ∧
    ((noded 0x300000 0 (pkt 3 1 [(4, 253)])).waitsHold ((noded 0x300000 0 (pkt 3 1 [(4, 253)])).node 7).job (pkt 4 2 [])).getD true = true ∧
    pktFence (pkt 4 2 []) = false ∧
    (noded 0x300000 0 (pkt 3 1 [(4, 253)])).workOf ((noded 0x300000 0 (pkt 3 1 [(4, 253)])).node 7) = some (pkt 3 1 [(4, 253)]) ∧
    (noded 0x300000 0 (pkt 3 1 [(4, 253)])).addressStatus none (pkt 4 2 []) = none ∧
    pktType (pkt 3 1 [(4, 253)]) = 3 ∧
    (noded 0x300000 0 (pkt 3 1 [(4, 253)])).badReason (pkt 3 1 [(4, 253)]) 0 false none false = none ∧
    pktFence (pkt 3 1 [(4, 253)]) = false ∧
    ((noded 0x300000 0 (pkt 3 1 [(4, 253)])).waitsHold none (pkt 3 1 [(4, 253)])).getD true = true := by decide +kernel

theorem wit_PacketsEnd_node_not_its_turn :
    (∃ i ∈ [7, 8], ((noded 0x300000 0 (pkt 3 1 [(4, 253)])).setNode 8 ⟨0, true, 3, 1, [], 0x300000, none, false⟩).workTurn i = false ∧ ((noded 0x300000 0 (pkt 3 1 [(4, 253)])).setNode 8 ⟨0, true, 3, 1, [], 0x300000, none, false⟩).workOf (((noded 0x300000 0 (pkt 3 1 [(4, 253)])).setNode 8 ⟨0, true, 3, 1, [], 0x300000, none, false⟩).node i) = some (pkt 3 1 [(4, 253)]) ∧ (((noded 0x300000 0 (pkt 3 1 [(4, 253)])).setNode 8 ⟨0, true, 3, 1, [], 0x300000, none, false⟩).node i).defined = true ∧ (((noded 0x300000 0 (pkt 3 1 [(4, 253)])).setNode 8 ⟨0, true, 3, 1, [], 0x300000, none, false⟩).node i).count = 0) := by decide +kernel

theorem wit_PacketsEnd_bind_shape :
    dev.shapeFits 3 = false ∧
    dev.boot.prof = 0 := by decide +kernel

theorem wit_PacketsEnd_bind_fails :
    (jobAt 0).job 1 = some { someJob with st := 0 } ∧
    (jobAt 0).heldBack 1 { someJob with st := 0 } = false ∧
    (jobAt 0).miller.snap = none ∧
    (jobAt 0).miller.events.buffer.length < 4096 ∧
    (jobAt 0).jobError { someJob with st := 0 } 1 = some 7 ∧
    (jobAt 1).job 1 = some { someJob with st := 1 } := by decide +kernel

theorem wit_PointsAndStorage_preempted :
    ((post { dev with miller := (jobAt 2).miller } 2 (pkt 8 2 [(0x40, 0), (0x50, 0x500000)]) true)).hasTurn 3 8 = true ∧
    (post { dev with miller := (jobAt 2).miller } 2 (pkt 8 2 [(0x40, 0), (0x50, 0x500000)]) true).addressStatus none ((post { dev with miller := (jobAt 2).miller } 2 (pkt 8 2 [(0x40, 0), (0x50, 0x500000)]) true).headPacket 3) = none ∧
    (post { dev with miller := (jobAt 2).miller } 2 (pkt 8 2 [(0x40, 0), (0x50, 0x500000)]) true).headPacket 3 = (pkt 8 2 [(0x40, 0), (0x50, 0x500000)]) ∧
    (post { dev with miller := (jobAt 2).miller } 2 (pkt 8 2 [(0x40, 0), (0x50, 0x500000)]) true).jobList.any (fun j => j.2.st == 2) = true := by decide +kernel

theorem wit_PointsAndStorage_no_region :
    ((posted 2 (pkt 8 2 [(0x40, 1), (0x50, 0x500000)]))).hasTurn 3 8 = true ∧
    (posted 2 (pkt 8 2 [(0x40, 1), (0x50, 0x500000)])).addressStatus none ((posted 2 (pkt 8 2 [(0x40, 1), (0x50, 0x500000)])).headPacket 3) = none ∧
    (posted 2 (pkt 8 2 [(0x40, 1), (0x50, 0x500000)])).headPacket 3 = (pkt 8 2 [(0x40, 1), (0x50, 0x500000)]) ∧
    (posted 2 (pkt 8 2 [(0x40, 1), (0x50, 0x500000)])).jobList.any (fun j => j.2.st == 2) = false ∧
    (dev.region 0).inst = false ∧
    pktField (pkt 8 2 [(0x40, 1), (0x50, 0x500000)]) 0x40 1 = 1 := by decide +kernel

theorem wit_PointsAndStorage_full :
    ((posted 2 (pkt 8 2 [(0x40, 0), (0x50, 0x500000)]) |> bytes .dram (0x500000 + 0x10) 4 193)).hasTurn 3 8 = true ∧
    (posted 2 (pkt 8 2 [(0x40, 0), (0x50, 0x500000)]) |> bytes .dram (0x500000 + 0x10) 4 193).addressStatus none ((posted 2 (pkt 8 2 [(0x40, 0), (0x50, 0x500000)]) |> bytes .dram (0x500000 + 0x10) 4 193).headPacket 3) = none ∧
    (posted 2 (pkt 8 2 [(0x40, 0), (0x50, 0x500000)]) |> bytes .dram (0x500000 + 0x10) 4 193).headPacket 3 = (pkt 8 2 [(0x40, 0), (0x50, 0x500000)]) ∧
    (posted 2 (pkt 8 2 [(0x40, 0), (0x50, 0x500000)]) |> bytes .dram (0x500000 + 0x10) 4 193).jobList.any (fun j => j.2.st == 2) = false ∧
    fullBytes ≤ ((posted 2 (pkt 8 2 [(0x40, 0), (0x50, 0x500000)]) |> bytes .dram (0x500000 + 0x10) 4 193).takeHead 3).readN .dram (0x500000 + 0x10) 4 * 2 ^ 30 ∧
    0 + fullBytes ≤ 2 ^ 52 := by decide +kernel

theorem wit_PointsAndStorage_begins :
    (snapping 0 0 0).miller.snap = some (aPoint 0 0 0) ∧
    (aPoint 0 0 0).stage = 0 ∧ (aPoint 0 0 0).kind = 0 := by decide +kernel

theorem wit_PointsAndStorage_ends :
    (aPoint 2 200000 0).stage = 2 ∧ (aPoint 2 200000 0).open_ = 0 ∧ (aPoint 2 200000 0).kind = 0 ∧
    (aPoint 2 200000 0).stripes ≤ (aPoint 2 200000 0).next ∧
    (aPoint 2 0 1).status ≠ 0 ∧
    (snapping 2 200000 0).mem.loose.any (Loose.meets Space.dram.code (aPoint 2 200000 0).manifest 128) = false := by decide +kernel

theorem wit_PointsAndStorage_kept :
    (∀ c ∈ ({ aPoint 1 0 0 with kept := [(0x100, 5, false)] } : Snap).kept, c.1 % 16 = 0) ∧
    0x110 % 16 = 0 := by decide +kernel

theorem wit_PointsAndStorage_no_turn :
    dev.hasTurn 3 8 = false ∧
    dev.hasTurn 3 9 = false := by decide +kernel

theorem wit_PointsAndStorage_query :
    ((posted 2 (pkt 9 2 [(0x40, 31), (0x48, 0x600000)]))).hasTurn 3 9 = true ∧
    (posted 2 (pkt 9 2 [(0x40, 31), (0x48, 0x600000)])).addressStatus none ((posted 2 (pkt 9 2 [(0x40, 31), (0x48, 0x600000)])).headPacket 3) = none ∧
    (countSent ((posted 2 (pkt 9 2 [(0x40, 31), (0x48, 0x600000)])).takeHead 3)).millerHit none 0x600000 .store = .ok .dram 0x600000 none ∧
    (countSent ((posted 2 (pkt 9 2 [(0x40, 31), (0x48, 0x600000)])).takeHead 3)).millerHit none (0x600000 + 511) .store = .ok .dram (0x600000 + 511) none ∧
    (posted 2 (pkt 9 2 [(0x40, 31), (0x48, 0x600000)])).mem.loose.any (Loose.meets Space.dram.code 0x600000 512) = false := by decide +kernel

theorem wit_PointsAndStorage_query_fault :
    ((posted 2 (pkt 9 2 [(0x48, dramEnd)]))).hasTurn 3 9 = true ∧
    (posted 2 (pkt 9 2 [(0x48, dramEnd)])).addressStatus none ((posted 2 (pkt 9 2 [(0x48, dramEnd)])).headPacket 3) = none ∧
    ((posted 2 (pkt 9 2 [(0x48, dramEnd)])).takeHead 3).millerHit none dramEnd .store = .fault 0x50 0 := by decide +kernel

theorem wit_PointsAndStorage_nvme :
    (storing 0).links.nvme.find? (fun c => c.n == 4 && c.sent.isSome && !c.done) = some command ∧
    command.core ≠ 512 ∧
    0x81 % 2048 ≠ 0 := by decide +kernel

theorem wit_PointsAndStorage_timeout :
    (storing (1000 * 600000)).links.nvme.find? (fun c => c.n == 4 && !c.done) = some command ∧
    command.sent = some 0 ∧
    0 + (storing (1000 * 600000)).handleLimit command.handle ≤ (storing (1000 * 600000)).clock ∧
    (storing (1000 * 600000 - 1)).clock < 0 + (storing (1000 * 600000 - 1)).handleLimit command.handle := by decide +kernel

theorem wit_Preemption_deadline :
    ((deadline 36000001).ctx 1536).sched.preempt = some (0, 36000000) ∧
    ((deadline 36000001).ctx 1536).resident = true ∧
    36000000 < (deadline 36000001).clock ∧
    (deadline 36000000).clock ≤ 36000000 ∧
    (idle.ctx 1536).sched.preempt = none := by decide +kernel

theorem wit_Preemption_save :
    ((saving 36000000).ctx 1536).sched.preempt = some (0, 36000000) ∧
    (saving 36000000).saveReady 1536 = true ∧
    (saving 36000000).clock ≤ 36000000 ∧
    (saving 36000001).saveReady 1536 = true ∧
    36000000 < (saving 36000001).clock ∧
    (deadline 0).saveReady 1536 = false := by decide +kernel

theorem wit_Preemption_resume :
    (savedJob 8).job 1 = some { someJob with st := 2 } ∧
    (savedJob 8).heldBack 1 { someJob with st := 2 } = false ∧
    (∀ p ∈ (savedJob 8).ctxs, p.2.ofJob 1 = true → p.2.sched.preempt = none) ∧
    (savedJob 8).resumePlan 1 = some [(⟨0, Ctx.reset, [], [], none, 384, []⟩, 1536)] ∧
    [1536].Nodup ∧
    (jobAt 0).job 1 = some { someJob with st := 0 } := by decide +kernel

theorem wit_QueuesAndRegions_installs :
    ((asking described).region 2).inst = false ∧
    6 ≤ (asking described).boot.stage ∧
    (asking described).descOk ((asking described).region 2).desc = true ∧
    (asking dev).descOk ((asking dev).region 2).desc = false := by decide +kernel

theorem wit_QueuesAndRegions_ready :
    bitAt (opened (asking described)).boot.ready 33 = true ∧
    ((opened (asking described)).region 2).inst = false ∧ 6 ≤ (opened (asking described)).boot.stage ∧ (opened (asking described)).descOk 0x700000 = true ∧
    bitAt (opened (asking dev)).boot.ready 33 = true ∧ (opened (asking dev)).descOk 0x700000 = false ∧
    bitAt (opened (installed true)).boot.ready 33 = true ∧ ((opened (installed true)).region 2).inst = true ∧
    bitAt dev.boot.ready 33 = false := by decide +kernel

theorem wit_QueuesAndRegions_waits :
    State.reset.boot.stage < 6 ∧
    ((installed true).region 2).inst = true := by decide +kernel

theorem wit_QueuesAndRegions_removes :
    ((installed false).region 2).inst = true ∧ ((installed false).region 2).req = false ∧
    (installed false).regionHeld 2 = false ∧
    ((installed true).region 2).req = true ∧
    (dev.region 2).inst = false := by decide +kernel

theorem wit_QueuesAndRegions_bar0 :
    (3 : Nat) ≠ 1 ∧ (3 : Nat) ≠ 2 ∧ (3 : Nat) ≠ 4 ∧ (3 : Nat) ≠ 8 ∧
    6 % 4 ≠ 0 ∧
    2 ^ 20 ≤ 2 ^ 20 ∧
    0x10000 ≤ 0x10FFE ∧ 0x10FFE < 0x11000 ∧ 2 < 4 ∧
    63 < 64 := by decide +kernel

theorem wit_RolesAndBoot_changes :
    ((roled 12 0x800000)).hasTurn 3 7 = true ∧
    (roled 12 0x800000).addressStatus none ((roled 12 0x800000).headPacket 3) = none ∧
    pktField ((roled 12 0x800000).headPacket 3) 0x48 8 + 8 ≤ dramEnd ∧
    (roled 12 0x800000).roleCode (pktField ((roled 12 0x800000).headPacket 3) 0x40 1) = none := by decide +kernel

theorem wit_RolesAndBoot_code_1 :
    ((roled 8 0x800000)).hasTurn 3 7 = true ∧
    (roled 8 0x800000).addressStatus none ((roled 8 0x800000).headPacket 3) = none ∧
    (roled 8 0x800000).roleCode (pktField ((roled 8 0x800000).headPacket 3) 0x40 1) = some 1 := by decide +kernel

theorem wit_RolesAndBoot_code_2 :
    ((roled 5 0x800000)).hasTurn 3 7 = true ∧
    (roled 5 0x800000).addressStatus none ((roled 5 0x800000).headPacket 3) = none ∧
    (roled 5 0x800000).roleCode (pktField ((roled 5 0x800000).headPacket 3) 0x40 1) = some 2 := by decide +kernel

theorem wit_RolesAndBoot_code_3 :
    ((roled 14 0x800000)).hasTurn 3 7 = true ∧
    (roled 14 0x800000).addressStatus none ((roled 14 0x800000).headPacket 3) = none ∧
    (roled 14 0x800000).roleCode (pktField ((roled 14 0x800000).headPacket 3) 0x40 1) = some 3 := by decide +kernel

theorem wit_RolesAndBoot_address :
    ((posted 2 (pkt 7 2 [(0x28, dramEnd)]))).hasTurn 3 7 = true ∧
    (posted 2 (pkt 7 2 [(0x28, dramEnd)])).addressStatus none ((posted 2 (pkt 7 2 [(0x28, dramEnd)])).headPacket 3) = some 3 ∧
    dev.hasTurn 3 7 = false ∧
    dev.boot.chg = none := by decide +kernel

theorem wit_RolesAndBoot_grace :
    (changing 0 5).boot.chg = some ⟨12, 0, 5, 0x800000, 0, 0, 1⟩ ∧
    0 + 5 ≤ (changing 0 5).clock ∧
    ¬ 0 + 5 ≤ (changing 0 4).clock ∧
    (bound2 (changing 0 5)).dieLeaving (dieOf (coreOf 1024)) = true := by decide +kernel

theorem wit_RolesAndBoot_drain :
    (changing 1 5).boot.chg = some ⟨12, 0, 5, 0x800000, 0, 1, 1⟩ ∧
    (changing 1 5).drained = true ∧
    (bound2 (changing 1 5)).drained = false := by decide +kernel

theorem wit_RolesAndBoot_flush :
    (changing 2 5).boot.chg = some ⟨12, 0, 5, 0x800000, 0, 2, 1⟩ ∧
    (changing 0 5).boot.chg = some ⟨12, 0, 5, 0x800000, 0, 0, 1⟩ := by decide +kernel

theorem wit_RolesAndBoot_role_at_boot :
    (configured 8).boot.stage = 4 ∧ (configured 8).boot.err = 0 ∧ (configured 8).cfg 6 = 8 ∧
    (configured 5).cfg 6 = 5 ∧ (configured 14).coolOk = false ∧
    (bootAt 1).boot.stage = 1 ∧ (bootAt 2).boot.stage = 2 := by decide +kernel

theorem wit_RolesAndBoot_boot :
    (∀ n < 6, (bootAt n).boot.err = 0 ∧ (bootAt n).boot.stage < 6) ∧
    6 ≤ (bootAt 6).boot.stage := by decide +kernel

theorem wit_LinksAndCounters_due :
    (0 : Nat) < 3 ∧
    (link VLink.reset 0).links.vlinks.length = 3 ∧
    4 ≤ (link VLink.reset 0).boot.stage ∧
    ((link VLink.reset 0).vlink 0).busy = false ∧ ((link VLink.reset 0).vlink 0).due ≤ (link VLink.reset 0).clock ∧
    (link VLink.reset 0).holdsRetrain = false ∧
    (link VLink.reset 0).linkTurn 0 0 = true ∧
    State.reset.boot.stage < 4 := by decide +kernel

theorem wit_LinksAndCounters_defers :
    4 ≤ (drainingLink).boot.stage ∧
    drainingLink.holdsRetrain = true ∧
    (drainingLink.vlink 0).busy = false ∧ (drainingLink.vlink 0).due ≤ drainingLink.clock ∧
    drainingLink.links.vlinks.length = 3 := by decide +kernel

theorem wit_LinksAndCounters_forced :
    ((link { VLink.reset with deferred := true } 1200000).vlink 0).deferred = true ∧ ((link { VLink.reset with deferred := true } 1200000).vlink 0).busy = false ∧
    ((link { VLink.reset with deferred := true } 1200000).vlink 0).due + 1200000 ≤ (link { VLink.reset with deferred := true } 1200000).clock ∧
    (link { VLink.reset with deferred := true } 1200000).linkTurn 0 1200000 = true ∧
    ((link VLink.reset 0).vlink 0).deferred = false := by decide +kernel

theorem wit_LinksAndCounters_ends :
    ((link { VLink.reset with busy := true } 0).vlink 0).busy = true ∧
    ((link VLink.reset 0).vlink 0).busy = false := by decide +kernel

theorem wit_LinksAndCounters_ports :
    (lanes8.port 3).lanes ≠ 0 ∧
    3 < 16 ∧
    (dev.port 3).lanes = 0 ∧
    (lanes8.cfg 10 + 256 * lanes8.cfg 11).testBit 3 = true ∧
    1 ≤ 8 ∧ 8 ≤ 8 ∧
    (lanes8.cfg 10 + 256 * lanes8.cfg 11).testBit 4 = false := by decide +kernel

theorem wit_LinksAndCounters_events :
    dev.miller.events.room = false ∧ dev.miller.events.buffer.length < 4096 ∧ dev.miller.events.folded = [] := by decide +kernel

theorem wit_LinksAndCounters_scrub :
    0x105 % 2 ^ 52 / 16 * 16 + 16 ≤ dramEnd ∧
    0x105 < 2 ^ 52 ∧
    (∀ r ∈ [1, 2], (r * 2 ^ 52 + 0x105) / 2 ^ 52 = r ∧ (r * 2 ^ 52 + 0x105) % 2 ^ 52 / 16 * 16 + 16 ≤ 2 ^ 33) ∧
    (3 * 2 ^ 52 + (2 ^ 29 - 1)) / 2 ^ 52 = 3 ∧ (3 * 2 ^ 52 + (2 ^ 29 - 1)) % 2 ^ 52 / 16 * 16 + 16 ≤ 2 ^ 29 ∧
    ¬ ((3 * 2 ^ 52 + 2 ^ 29) % 2 ^ 52 / 16 * 16 + 16 ≤ 2 ^ 29) ∧
    dramEnd < dramEnd / 16 * 16 + 16 := by decide +kernel

theorem wit_OutsideAccesses_memory :
    (dramEnd - 2) + [1, 2].length ≤ dramEnd ∧
    dramEnd < (dramEnd - 1) + [1, 2].length ∧
    (opened dev).hostReady = true ∧
    dev.hostReady = false ∧
    dramEnd < (dramEnd - 1) + 2 := by decide +kernel

theorem wit_OutsideAccesses_atomic :
    2 = 2 ∧ 16 = 16 ∧
    (dramEnd - 16) + 16 ≤ dramEnd ∧
    (dramEnd - 16) % 16 = 0 ∧
    (opened dev).hostReady = true ∧
    dev.hostReady = false ∧
    ¬ ((2 < 2 ∧ (16 = 4 ∨ 16 = 8)) ∨ (2 = 2 ∧ (3 = 4 ∨ 3 = 8 ∨ 3 = 16))) := by decide +kernel

theorem wit_OutsideAccesses_peer :
    dev.links.lexp % 256 * 2 ^ 30 < 0 + [0].length ∧
    (2 ^ 30 - 8) + (List.replicate 8 1).length ≤ exporting.links.lexp % 256 * 2 ^ 30 ∧
    fld exporting.links.lexp 30 22 * 2 ^ 30 + (2 ^ 30 - 8) + 8 ≤ dramEnd ∧
    (fld exporting.links.lexp 30 22 * 2 ^ 30 + (2 ^ 30 - 8)) % 8 = 0 ∧
    (opened exporting).peerReady = true ∧
    exporting.peerReady = false ∧
    (opened exporting).links.lexp = exporting.links.lexp := by decide +kernel

theorem wit_OutsideAccesses_snoop :
    [9] ≠ [] ∧
    (2 ^ 52 - 1) + [9].length ≤ 2 ^ 52 ∧
    2 ^ 52 < 2 ^ 52 + [9].length := by decide +kernel

theorem wit_MemoryStaysCanonical :
    MemOk idle ∧
    (match step idle with | .next t => (t.ctx 1536).seq.pc | _ => 0) = 25 := by
  simp only [MemOk]
  decide +kernel

/-! ## A job that binds

An object of one dictionary entry, one index word and one place. The stepping of the part is open (Config.stepping): it loads on
every stepping that the 32 bits of stepmask can name. -/

/-- The object at 0x8310000, its load list, and the page table that maps it. -/
def loadable : State :=
  let tables := bytes .dram 0x100000 8 0x110003 (bytes .dram 0x110000 8 (2 ^ 11 + 2 ^ 4 + 2 ^ 2 + 1) dev)
  let list := bytes .dram 0x8300000 16 (1 + 2 ^ 64 * 0x8310000) tables
  let head := bytes .dram 0x8310000 128 (pkt 0x4B 1 [(1, 0x4D4452), (4, 1), (8, 2 ^ 32 - 1), (0x20, 3), (0x24, 128), (0x28, 0x20002), (0x30, 1)]) list
  let secs := bytes .dram 0x8310080 72 (pkt 1 1 [(8, 0x10000), (16, 48), (24, 2), (32, 0x20000), (40, 2), (48, 3), (56, 0x200), (64, 88)]) head
  let map := bytes .dram 0x8310200 88 (pkt 1 1 [(2, 1), (3, 1), (4, 1)]) secs
  { map with
    miller := { map.miller with
      jobs := [(1, { someJob with st := 0, root := 0x100000, loadlist := 0x8300000 })]
      regions := [(0, { Region.reset with inst := true })] }
    boot := { map.boot with cmask := 8, ready := 8 } }

theorem wit_PacketsEnd_bind_holds :
    loadable.job 1 = some { someJob with st := 0, root := 0x100000, loadlist := 0x8300000 } ∧
    loadable.heldBack 1 { someJob with st := 0, root := 0x100000, loadlist := 0x8300000 } = false ∧
    loadable.miller.snap = none ∧ loadable.miller.events.buffer.length < 4096 ∧
    loadable.jobError { someJob with st := 0, root := 0x100000, loadlist := 0x8300000 } 1 = none ∧
    (loadable.jobMap 1).any (fun m => loadable.shapeFits m.dies && m.places.length == 1) = true ∧ (loadable.loaded 1).places = [] ∧
    loadable.loadList 1 0x8300000 = some [0x8310000] := by decide +kernel
/-- The binding of one job's entries, the clusters tried in an order. -/
def planBy (s : State) (order : List Nat) (ps : List Place) : Option (List Place) :=
  (assign (fun k c => s.dieReady (physDie k.1) && !s.dieLeaving (physDie k.1) &&
      ([] : List ((Nat × Nat) × Nat)).all (fun f => (f.1 != k || f.2 == c) && (f.1 == k || !(f.1.1 == k.1 && f.2 == c))) &&
      ps.all (fun p => p.key != k || s.placeOpen [] 1 (p.on c) p)) order ((ps.map Place.key).eraseDups) []).map (fun m =>
    ps.map (fun p => { p with bound := p.on ((m.find? (fun f => f.1 == p.key)).elim 0 (·.2)) }))
theorem plan_eq (s : State) (ps : List Place) : s.plan 1 [] [] ps = planBy s s.clusterOrder ps := rfl
theorem planBy_holds : ∀ n < 32, (loadable.jobMap 1).any (fun m =>
    (planBy loadable ((List.range 32).map (fun i => (i + n) % 32)) m.places).any (fun ps => decide (ps.map (fun p => p.bound)).Nodup)) = true := by
  decide +kernel
/-- Wherever the Miller begins to look for a cluster, it finds one. -/
theorem wit_PacketsEnd_bind_plans :
    (loadable.jobMap 1).any (fun m => (loadable.plan 1 [] [] m.places).any (fun ps => decide (ps.map (fun p => p.bound)).Nodup)) = true := by
  have h : loadable.clusterOrder = (List.range 32).map (fun i => (i + loadable.free 9000 % 32) % 32) := by
    simp [State.clusterOrder]
  simp only [plan_eq, h]
  exact planBy_holds _ (Nat.mod_lt _ (by decide))
/-- The header passes check 3 on every stepping that stepmask can name. -/
theorem stepping_holds : ∀ n < 32, n < 32 ∧ bitAt (fld ((loadable.virtNat 1 0x8310000 128).getD 0) 64 32) n = true := by decide +kernel
theorem header_gen : fld ((loadable.virtNat 1 0x8310000 128).getD 0) (8 * 0x30) 8 = 1 := by decide +kernel
theorem wit_PacketsEnd_bind_loads (h : Config.stepping 0 % 256 < 32) :
    (match loadJob loadable 1 { someJob with st := 0, root := 0x100000, loadlist := 0x8300000 } [0x8310000] with
      | .ok l => l.map.isSome | .error _ => false) = true := by
  have hs : steppingBad ((loadable.virtNat 1 0x8310000 128).getD 0) = none := by
    simp only [steppingBad]
    exact if_pos ⟨header_gen, stepping_holds _ h⟩
  simp only [loadJob, loadObjects, loadObject, hs]
  decide +kernel

/-! ## Exact values

The numbers 1, −1 and 0, finite values as codes stand for, and a block of one value. -/

theorem wit_FloatRounding_finite :
    IsFinite (.fin false ⟨1, 1, 0⟩) ∧ IsFinite (.fin true ⟨1, 1, 0⟩) ∧ IsFinite (.zero true) ∧ 0 < (⟨1, 1, 0⟩ : Mag).num ∧ 0 < (⟨1, 1, 0⟩ : Mag).den :=
  ⟨⟨rfl, by rintro n m h; cases h; exact ⟨Nat.one_pos, rfl⟩⟩, ⟨rfl, by rintro n m h; cases h; exact ⟨Nat.one_pos, rfl⟩⟩,
    ⟨rfl, by rintro n m h; cases h⟩, Nat.one_pos, Nat.one_pos⟩
theorem wit_FloatRounding_values :
    valRat (.fin false ⟨1, 1, 0⟩) + valRat (.fin false ⟨1, 1, 0⟩) ≠ 0 ∧ valRat (.fin false ⟨1, 1, 0⟩) + valRat (.fin true ⟨1, 1, 0⟩) = 0 ∧
    valRat (.fin false ⟨1, 1, 0⟩) * valRat (.fin true ⟨1, 1, 0⟩) ≠ 0 ∧ valRat (.fin false ⟨1, 1, 0⟩) * valRat (.zero true) = 0 ∧
    valRat (.zero true) = 0 ∧ valRat (.fin true ⟨1, 1, 0⟩) ≠ 0 ∧ |valRat (.fin true ⟨1, 1, 0⟩)| ≤ 2 := by
  norm_num [valRat]
theorem wit_FloatRounding_kinds :
    ffmt 0xD = some f32 ∧ f32.top = .ieee ∧ (FVal.nan false true).isNaN = true ∧ (f16.readFlush 0x3C00 = .fin false ⟨1024, 1, -10⟩) ∧
    f16.readFlush 0x8000 = .zero true ∧ f16.readFlush 0xFC00 = .inf true ∧ (f16.readFlush 0x7E01).isNaN = true ∧ f16.top ≠ .finite ∧ ffmt 0x2 = some f16 ∧
    fmtIsInt 0x4 = true ∧ fmtInt 0x4 0 = 0 ∧ fmtInt 0x4 0xFF ≠ 0 ∧ fmtInt 0x0 300 > fmtMax 0x4 ∧ fmtInt 0x0 0x8000 < fmtMin 0x4 := by decide +kernel
theorem wit_FloatRounding_block :
    blkEmax 0x6 = some 8 ∧ ffmt 0x2 = some f16 ∧ [Rnd.rne].length = [0x3C00].length ∧ (∀ d, Rnd.sr d ∈ [Rnd.rne] → d < 65536) ∧
    (∀ v ∈ [0x3C00].map f16.readFlush, v.special = false ∧ |valRat v| ≤ 1) ∧ (∃ v ∈ [0x3C00].map f16.readFlush, |valRat v| = 1) ∧
    ((2 : ℚ) ^ (0 : Int) ≤ 1 ∧ (1 : ℚ) < 2 ^ ((0 : Int) + 1)) ∧ (∃ v ∈ [0x7C00].map f16.readFlush, v.special = true) := by
  have h : f16.readFlush 0x3C00 = .fin false ⟨1024, 1, -10⟩ := by decide +kernel
  have v : |valRat (.fin false ⟨1024, 1, -10⟩)| = 1 := by norm_num [valRat]
  refine ⟨by decide, by decide, rfl, by simp, ?_, ?_, by norm_num, ⟨f16.readFlush 0x7C00, by simp, by decide +kernel⟩⟩
  · simp [h, v, FVal.special]
  · simp [h, v]
theorem wit_FloatRounding_compares :
    IsFinite (.fin false ⟨1, 1, 0⟩) ∧ IsFinite (.fin true ⟨1, 1, 0⟩) ∧ valRat (.fin true ⟨1, 1, 0⟩) < valRat (.fin false ⟨1, 1, 0⟩) ∧
    (FVal.nan false false).isNaN = true ∧ (FVal.zero true).special = false ∧ valRat (.zero true) = valRat (.zero false) := by
  refine ⟨⟨rfl, ?_⟩, ⟨rfl, ?_⟩, by norm_num [valRat], rfl, rfl, rfl⟩ <;> · rintro n m h; cases h; exact ⟨Nat.one_pos, rfl⟩
theorem wit_FloatRounding_extremes :
    f16.top = .ieee ∧ (f16.readFlush 0x7D00).isSNaN = true ∧ (f16.readFlush 0x7E00).isSNaN = false ∧ (f16.readFlush 0x7E00).isNaN = true ∧
    (f16.readFlush 0x3C00).isNaN = false ∧ fcompare (f16.readFlush 0xBC00) (f16.readFlush 0x3C00) = some .lt ∧
    fcompare (f16.readFlush 0x3C00) (f16.readFlush 0xBC00) = some .gt ∧ fcompare (f16.readFlush 0x8000) (f16.readFlush 0) = some .eq := by decide +kernel
theorem wit_FloatRounding_divisors :
    (0x00800000 ≤ 0x3F800000 % 2 ^ 32 ∧ 0x3F800000 % 2 ^ 32 < 0x7F800000) ∧ ¬ (0x00800000 ≤ 0x80000000 % 2 ^ 32 ∧ 0x80000000 % 2 ^ 32 < 0x7F800000) ∧
    (divisorOf 0x3F800000).isSome = true ∧ divisorOf 0 = none ∧ f16.readFlush 0x3C00 = .fin false ⟨1024, 1, -10⟩ ∧ f16.readFlush 0x7D00 = .nan false true ∧
    (∃ g, ffmt 0x6 = some g ∧ g.top = .nanOnly) ∧ (∃ g, ffmt 0x8 = some g ∧ g.top = .finite) ∧ fmtIsInt 0x4 = true :=
  ⟨by decide, by decide, by decide +kernel, by decide +kernel, by decide +kernel, by decide +kernel, ⟨_, rfl, rfl⟩, ⟨_, rfl, rfl⟩, by decide⟩
theorem wit_FloatRounding_dequant :
    ffmt 0x2 = some f16 ∧ f16.top = .ieee ∧ blkEmax 0x7 = some 15 ∧ (511 = 511 ∧ (255 : Nat) < 511) ∧ (blkRead 0x7 0x3C).special = false ∧
    blkRead 0x7 0xFC = .inf true ∧ blkRead 0x7 0x7D = .nan false true ∧ elementRat 0x7 0x3C * 2 ^ (((255 : Nat) : Int) - 255) ≠ 0 ∧
    elementRat 0x7 0x80 * 2 ^ (((255 : Nat) : Int) - 255) = 0 := by
  refine ⟨by decide, by decide, by decide, by decide, by decide +kernel, by decide +kernel, by decide +kernel, ?_, ?_⟩
  · have h : blkRead 0x7 0x3C = .fin false ⟨4, 1, -2⟩ := by decide +kernel
    norm_num [elementRat, valRat, h]
  · have h : blkRead 0x7 0x80 = .zero true := by decide +kernel
    norm_num [elementRat, valRat, h]
theorem wit_FloatRounding_zero_block :
    ∀ v ∈ [0x0000, 0x8000].map f16.readFlush, v = .zero v.neg := by decide +kernel
theorem wit_SpecialFunctions_cases :
    f16.readFlush 0x8000 = .zero true ∧ f16.readFlush 0x7C00 = .inf false ∧ (f16.readFlush 0x7E00).isNaN = true ∧
    f16.readFlush 0xBC00 = .fin true ⟨1024, 1, -10⟩ ∧ f16.readFlush 0x3C00 = .fin false ⟨1024, 1, -10⟩ ∧ f16.readFlush 0x3800 = .fin false ⟨1024, 1, -11⟩ ∧
    valRat (.fin false ⟨1024, 1, -10⟩) = ((1 : Int) : ℚ) ∧ valRat (.fin false ⟨1024, 1, -11⟩) = ((0 : Int) : ℚ) + 1 / 2 ∧
    valRat (.fin false ⟨1024, 1, -10⟩) = 2 ^ (0 : Int) ∧ (4 : ℚ) ^ (0 : Int) ≤ 1 / valRat (.fin false ⟨1024, 1, -10⟩) ∧
    1 / valRat (.fin false ⟨1024, 1, -10⟩) < (4 : ℚ) ^ ((0 : Int) + 1) := by
  refine ⟨by decide +kernel, by decide +kernel, by decide +kernel, by decide +kernel, by decide +kernel, by decide +kernel, ?_, ?_, ?_, ?_, ?_⟩ <;>
    norm_num [valRat]
/-- An f16 tile of quarters. -/
def quarters : State := tile 0 (fun _ => 0x3400) idle
theorem wit_SpecialBounds_state :
    CanIssue quarters ∧ UnitFree quarters 6 ∧ Readable quarters 0x000 .tile ∧ OperandOk quarters 0xFFF .any ∧ ffmt 0x2 = some f16 ∧
    f16.readFlush (valAt 0x2 (valueOf quarters 0x000 .tile).asTile (valueOf quarters 0x000 .tile).asHigh 1023) = .fin false ⟨1024, 1, -12⟩ ∧
    f16.read f16.maxFin = .fin false ⟨2047, 1, 5⟩ := by
  simp only [CanIssue, UnitFree, OperandOk, Readable]
  refine ⟨?_, ?_, ?_, ?_, ?_, ?_, ?_⟩ <;> decide +kernel
/-- There each of the six functions has a value that is not 0 and at most 2, or -2. -/
theorem wit_SpecialBounds_values :
    ((valRat (.fin false ⟨1024, 1, -12⟩) : ℚ) : ℝ) = 1 / 4 ∧ (2 : ℝ) ≤ ((codeRat f16 f16.maxFin : ℚ) : ℝ) ∧
    ∀ y ∈ [(2 : ℝ) ^ (1 / 4 : ℝ), Real.log (1 / 4) / Real.log 2, Real.sin (Real.pi * (1 / 4)), Real.cos (Real.pi * (1 / 4)), Real.tanh (1 / 4),
      1 / (1 + Real.exp (-(1 / 4)))], y ≠ 0 ∧ |y| ≤ 2 := by
  have hm : f16.read f16.maxFin = .fin false ⟨2047, 1, 5⟩ := by decide +kernel
  refine ⟨by norm_num [valRat], by norm_num [codeRat, hm, valRat], ?_⟩
  have e : Real.pi * (1 / 4) = Real.pi / 4 := by ring
  have l2 : Real.log 2 ≠ 0 := (Real.log_pos (by norm_num)).ne'
  have l : Real.log (1 / 4) / Real.log 2 = -2 := by
    rw [show (1 / 4 : ℝ) = 2 ^ (-2 : ℤ) by norm_num, Real.log_zpow]
    field_simp
    norm_num
  have s2 : (0 : ℝ) < √2 / 2 := by positivity
  have x : (0 : ℝ) < Real.exp (-(1 / 4)) := Real.exp_pos _
  intro y hy
  simp only [List.mem_cons, List.not_mem_nil, or_false] at hy
  rcases hy with rfl | rfl | rfl | rfl | rfl | rfl
  · refine ⟨(Real.rpow_pos_of_pos (by norm_num) _).ne', ?_⟩
    rw [abs_of_pos (Real.rpow_pos_of_pos (by norm_num) _)]
    calc (2 : ℝ) ^ (1 / 4 : ℝ) ≤ 2 ^ (1 : ℝ) := Real.rpow_le_rpow_of_exponent_le (by norm_num) (by norm_num)
      _ = 2 := Real.rpow_one 2
  · rw [l]; norm_num
  · rw [e]
    exact ⟨by rw [Real.sin_pi_div_four]; exact s2.ne', (Real.abs_sin_le_one _).trans (by norm_num)⟩
  · rw [e]
    exact ⟨by rw [Real.cos_pi_div_four]; exact s2.ne', (Real.abs_cos_le_one _).trans (by norm_num)⟩
  · rw [Real.tanh_eq_sinh_div_cosh]
    have h := Real.sinh_pos_iff.mpr (show (0 : ℝ) < 1 / 4 by norm_num)
    have c := Real.cosh_pos (1 / 4)
    refine ⟨(div_pos h c).ne', ?_⟩
    rw [abs_of_pos (div_pos h c), div_le_iff₀ c]
    linarith [Real.sinh_lt_cosh (1 / 4)]
  · refine ⟨by positivity, ?_⟩
    rw [abs_of_pos (by positivity), div_le_iff₀ (by positivity)]
    linarith
theorem wit_MatrixSums_lanes :
    famOf 0x2 false = some .fl16 ∧ (Fam.fl16).isInt = false ∧ (blkRead 0x2 0x3C00).special = false ∧ 255 % 512 ≠ 511 ∧
    (∃ c s, some (c, s) ∈ [some (0x3C00, 511)] ∧ s % 512 = 511) ∧ famOf 0x0 false = some .i16 ∧ (Fam.i16).isInt = true ∧ Fam.i16 ≠ .ts8 :=
  ⟨by decide, by decide, by decide +kernel, by decide, ⟨0x3C00, 511, by simp, by decide⟩, by decide, by decide, by decide⟩
theorem wit_MatrixSums_twin :
    (127 : Nat) < 128 ∧ [some (0x80, 256), some (0x01, 255)].length = (([(some 0, [5, 6], [])] : List Lane).getD 0 zeroLane).2.1.length ∧
    (∀ x ∈ [some (0x80, 256), some (0x01, 255)], ∀ c s, x = some (c, s) → s % 512 ≠ 511 ∧ ((s % 512 : Nat) : Int) - 255 ≤ 1) ∧
    (∃ c s, some (c, s) ∈ [some (0x80, 256), some (0x01, 255)] ∧ ((s % 512 : Nat) : Int) - 255 = 1) := by
  refine ⟨by decide, rfl, ?_, ⟨0x80, 256, by simp, by decide⟩⟩
  intro x hx c s h
  simp only [List.mem_cons, List.not_mem_nil, or_false] at hx
  rcases hx with rfl | rfl <;> cases h <;> decide
theorem wit_MatrixSums_fin :
    ({ Bank.reset with frac := 29 } : Bank).frac = (if ({ Bank.reset with frac := 29 } : Bank).twin then (14 : Int) else 2 * 14 + 1) ∧
    ({ Bank.reset with aexp := [none] } : Bank).aexp.getD 0 (some 0) = none ∧ (Bank.reset).aexp.getD 0 (some 0) = some 0 ∧
    (f32.readFlush ((Bank.reset).u.getD 0 0x3F800000)).special = false ∧ (f32.read 0).special = false := by decide +kernel
theorem wit_PointsAndStorage_share :
    (List.replicate (2 ^ 20) 0).length = 2 ^ 20 ∧ (snapping 1 0 0).miller.snap = some (aPoint 1 0 0) ∧ (aPoint 1 0 0).kept = [] ∧ (aPoint 1 0 0).share = fullBytes ∧
    (snapping 1 0 0).snapWindow (aPoint 1 0 0) + fullBytes ≤ 2 ^ 52 ∧ (aPoint 1 0 0).kind = 0 :=
  ⟨List.length_replicate, by decide +kernel, rfl, rfl, by decide +kernel, rfl⟩

end Sys2Proof.Tests
end

section
/-! Bundle encoding: the order of a literal's words (R54), and the nops of the engine and control slots (R72). -/

namespace Sys2Proof.Machine

open Sys2Proof

/-! ## The words of a literal -/

/-- Field `k` of 16 bits of a number that is packed from 16-bit words is word `k`; past the end it is zero. -/
theorem fld_ofWords16 (ws : List Nat) (hw : ∀ w ∈ ws, w < 65536) (k : Nat) : fld (ofWords16 ws) (16 * k) 16 = ws.getD k 0 := by
  induction ws generalizing k with
  | nil => simp [ofWords16, fld]
  | cons w r ih =>
    have hlt : w < 65536 := hw w (by simp)
    have hpack : ofWords16 (w :: r) = w + 65536 * ofWords16 r := by rw [ofWords16, Nat.mod_eq_of_lt hlt]
    cases k with
    | zero => simp only [fld, hpack, List.getD_cons_zero]; omega
    | succ k =>
      have hdiv : (w + 65536 * ofWords16 r) / 2 ^ 16 = ofWords16 r := by omega
      have hpow : 2 ^ (16 * (k + 1)) = 2 ^ 16 * 2 ^ (16 * k) := by rw [← Nat.pow_add]; congr 1; omega
      rw [List.getD_cons_succ, ← ih (fun v hv => hw v (by simp [hv])) k, fld, fld, hpack, hpow, ← Nat.div_div_eq_div_mul, hdiv]

/-- The escape, 24 words of a bundle, and what follows them. -/
theorem decodeLiteral_escape (ws rest : List Nat) (hl : ws.length = 24) :
    decodeLiteral (0xFFFF :: ws ++ rest) = (match decodeBundle (ofWords16 ws) with
      | .ok b => .ok (b, rest)
      | .error e => .error (.illegalBundle e)) := by
  have htake : (ws ++ rest).take 24 = ws := by rw [← hl, List.take_left]
  have hdrop : (ws ++ rest).drop 24 = rest := by rw [← hl, List.drop_left]
  have hlong : ¬ (ws ++ rest).length < 24 := by simp [hl]
  simp only [List.cons_append, decodeLiteral, hlong, if_false, htake, hdrop]
  cases decodeBundle (ofWords16 ws) <;> rfl

/-- A literal whose words are all in the segment and in the cache is fetched, behind the words `l` (the last first) that are
fetched already. -/
theorem fetchLiteral_words (s : State) (c w : Nat) (ws l : List Nat) (h : ∀ k < ws.length, s.fetchWord c (w + k) = .word (ws.getD k 0)) :
    s.fetchLiteral c w ws.length l = .bundle (ofWords16 (l.reverse ++ ws)) 25 := by
  induction ws generalizing w l with
  | nil => simp [State.fetchLiteral]
  | cons v r ih =>
    have hv : s.fetchWord c w = .word v := h 0 (by simp)
    have hr : ∀ k < r.length, s.fetchWord c (w + 1 + k) = .word (r.getD k 0) := by
      intro k hk
      have := h (k + 1) (by simpa using hk)
      rwa [List.getD_cons_succ, show w + (k + 1) = w + 1 + k by omega] at this
    simp [State.fetchLiteral, hv, ih (w + 1) (v :: l) hr]

/-- Settles O42, word by word along the list. -/
theorem literalOrder : Obligations.LiteralOrder := by
  unfold Obligations.LiteralOrder
  intro ws rest hl hw
  have hfld := fld_ofWords16 ws hw
  refine ⟨fun k _ => hfld k, hfld 23, decodeLiteral_escape ws rest hl, fun s c w hf => ?_⟩
  simpa [hl] using fetchLiteral_words s c w ws [] (by rwa [hl])

/-! ## Decoding nops -/

/-- A matrix slot of opcode 0. -/
theorem decodeMatrix_opcode_zero (w : Nat) (h : fld w 58 6 = 0) : decodeMatrix w = if w = 0 then some .mxNop else none := by
  rw [decodeMatrix, if_pos h]

/-- A copy slot of opcode 0. -/
theorem decodeCopy_opcode_zero (w : Nat) (h : fld w 58 6 = 0) : decodeCopy w = if w = 0 then some .cpNop else none := by
  rw [decodeCopy, if_pos h]

/-- A 48-bit control slot of opcode 0. -/
theorem decodeControl_opcode_zero (w : Nat) (hw : w < 2 ^ 48) (h : fld w 42 6 = 0) :
    decodeControl w = if w = 0 then some .ctNop else none := by
  have hlow : fld w 0 42 = w := by simp only [fld] at *; omega
  simp [decodeControl, h, hlow]

theorem slotBits_lt (b k : Nat) : slotBits b k < 2 ^ (slotPlace k).2 := Nat.mod_lt _ (by positivity)

/-- A matrix, copy or control slot of a bundle that has opcode 0 and is not zero does not decode. -/
theorem decodeSlot_opcode_zero_ne (b : Nat)
    (h : (slotBits b 1 ≠ 0 ∧ fld (slotBits b 1) 58 6 = 0) ∨ (slotBits b 2 ≠ 0 ∧ fld (slotBits b 2) 58 6 = 0) ∨
      (slotBits b 3 ≠ 0 ∧ fld (slotBits b 3) 42 6 = 0)) :
    ∃ k, 1 ≤ k ∧ k < 1 + 7 ∧ decodeSlot k (slotBits b k) = none := by
  rcases h with ⟨hne, hop⟩ | ⟨hne, hop⟩ | ⟨hne, hop⟩
  · exact ⟨1, by omega, by omega, by simp [decodeSlot, decodeMatrix_opcode_zero _ hop, hne]⟩
  · exact ⟨2, by omega, by omega, by simp [decodeSlot, decodeCopy_opcode_zero _ hop, hne]⟩
  · exact ⟨3, by omega, by omega, by simp [decodeSlot, decodeControl_opcode_zero _ (slotBits_lt b 3) hop, hne]⟩

/-- A slot that does not decode makes its bundle's slots illegal. -/
theorem decodeSlots_error (b k n j : Nat) (hk : k ≤ j) (hj : j < k + n) (h : decodeSlot j (slotBits b j) = none) :
    ∃ e, decodeSlots b k n = .error e := by
  induction n generalizing k with
  | zero => omega
  | succ n ih =>
    rw [decodeSlots]
    cases hd : decodeSlot k (slotBits b k) with
    | none => exact ⟨k, rfl⟩
    | some i =>
      have hne : k ≠ j := by rintro rfl; simp [hd] at h
      obtain ⟨e, he⟩ := ih (k + 1) (by omega) (by omega)
      exact ⟨e, by rw [he]⟩

/-- A slot that does not decode makes its bundle illegal. -/
theorem decodeBundle_error (b j : Nat) (hk : 1 ≤ j) (hj : j < 1 + 7) (h : decodeSlot j (slotBits b j) = none) :
    ∃ e, decodeBundle b = .error e := by
  obtain ⟨e, he⟩ := decodeSlots_error b 1 7 j hk hj h
  rw [decodeBundle, he]
  cases decodeHeader (slotBits b 0) with
  | none => exact ⟨0, rfl⟩
  | some h => exact ⟨e, rfl⟩

/-- An illegal bundle traps with the code of its illegal slot (R74). -/
theorem issueBits_error (s : State) (c b len e : Nat) (h : decodeBundle b = .error e) :
    issueBits s c b len = trapBundle s c 0x01 e (if len = 25 then 1 else 0) := by
  simp only [issueBits, h]

theorem slotBits_zero (k : Nat) : slotBits 0 k = 0 := by simp [slotBits, fld]

/-- A bundle of zeros: an empty header, three nops, four empty move slots. -/
theorem decodeBundle_zero : decodeBundle 0 = .ok ⟨Header.none, [(1, .mxNop), (2, .cpNop), (3, .ctNop)]⟩ := by
  simp only [decodeBundle, decodeSlots, slotBits_zero]
  rfl

/-! ## Issuing nops -/

/-- Away from a loop's end the bundle falls through with its loop stack (R115). -/
theorem closeLoop_of_not_end (x : Ctx) (fall : Nat) (h : ¬ (x.loopBase < x.seq.ldepth ∧ (x.loopAt 0).exit = fall)) :
    x.closeLoop fall = (x, fall, false) := by
  simp only [Ctx.closeLoop, if_neg h]

/-- What a slot that goes on, with no writes after the bundle, does to the context's sequencing. -/
theorem finishCtx_loops_next (x : Ctx) (clock len k : Nat) (m : Sem) (hl : m.late = id) (ht : m.flow = .next) :
    (finishCtx x clock len Header.none [(k, m)]).seq.loops = (x.closeLoop (x.seq.pc + len)).1.seq.loops := by
  unfold finishCtx; simp [ht, hl, Ctx.restart]
theorem finishCtx_ldepth_next (x : Ctx) (clock len k : Nat) (m : Sem) (hl : m.late = id) (ht : m.flow = .next) :
    (finishCtx x clock len Header.none [(k, m)]).seq.ldepth = (x.closeLoop (x.seq.pc + len)).1.seq.ldepth := by
  unfold finishCtx; simp [ht, hl, Ctx.restart]
theorem finishCtx_wake_next (x : Ctx) (clock len k : Nat) (m : Sem) (ht : m.flow = .next) :
    (finishCtx x clock len Header.none [(k, m)]).seq.wake = clock + (1 + m.extra x) := by
  unfold finishCtx; simp [ht, Ctx.restart]

/-- The state a bundle starts in holds its current context, so that writing it back changes nothing. -/
theorem begun_modCtx_id (s : State) : (begun s).modCtx s.cur id = begun s := by
  obtain ⟨x, hx, -⟩ := settled_eq s s.cur
  have hb : begun s = s.setCtx s.cur x := hx
  rw [hb, State.modCtx, setCtx_setCtx, setCtx_ctx_self, id]

theorem nop_clear (s u v : State) : Clear s (nopSem u v) := by
  simp [Clear, nopSem]

/-- The context after a bundle of one nop. -/
theorem after_nop_ctx (s u v : State) (k : Nat) :
    (afterSlot s k (nopSem u v)).ctx s.cur = finishCtx (me s) s.clock (lenOf s) Header.none [(k, nopSem u v)] :=
  after_ctx s k _ rfl (begun_clock s)

/-- A bundle of one nop does nothing but go on to the next bundle. -/
theorem after_nop (s u v : State) (k : Nat) (hend : ¬ AtLoopEnd s) : OnlyContext s (afterSlot s k (nopSem u v)) ∧
    FallsThrough s (afterSlot s k (nopSem u v)) ∧ SamePorts s (afterSlot s k (nopSem u v)) ∧ SameRegs s (afterSlot s k (nopSem u v)) := by
  have hloop := closeLoop_of_not_end (me s) ((me s).seq.pc + lenOf s) hend
  have hx := after_nop_ctx s u v k
  have hports : ((afterSlot s k (nopSem u v)).ctx s.cur).ports = (me s).ports := by rw [hx, finishCtx_ports _ _ _ _ _ rfl]
  refine ⟨after_outside s k _ rfl id (begun_modCtx_id s).symm, ⟨⟨?_, ?_, ?_⟩, ?_, ?_⟩, ?_, ?_⟩
  · rw [hx, finishCtx_pc_next _ _ _ _ _ rfl, hloop, nextPc]
  · rw [hx, finishCtx_cyc _ _ _ _ _ rfl rfl]; rfl
  · rw [hx, finishCtx_wake_next _ _ _ _ _ rfl]; rfl
  · rw [hx, finishCtx_loops_next _ _ _ _ _ rfl rfl, hloop]
  · rw [hx, finishCtx_ldepth_next _ _ _ _ _ rfl rfl, hloop]
  · simp only [SamePorts, hports, and_self]
  · refine ⟨?_, ?_, ?_, ?_, ?_⟩ <;> rw [hx]
    · rw [finishCtx_regs _ _ _ _ _ rfl, me_regs]
    · rw [finishCtx_traps _ _ _ _ _ rfl (by simp [nopSem]), me_traps]
    · rw [finishCtx_win _ _ _ _ _ rfl, me_win]
    · rw [finishCtx_kcond _ _ _ _ _ rfl]
    · rw [finishCtx_fmts _ _ _ _ _ rfl]

/-- A nop alone completes. -/
theorem issueOne_nop (s : State) (k : Nat) (hi : CanIssue s) :
    issueOne k nopSem s = .next (afterSlot s k (nopSem (begun s) (begun s))) :=
  issueOne_go s k nopSem hi (semsOf_one k nopSem _ (by simp [nopSem])) (by simp [nopSem, phases]) (nop_clear s _ _)

/-- A bundle of nops alone issues as its control slot's nop. -/
theorem issueBits_zero (s : State) (hi : CanIssue s) :
    issueBits (begun s) s.cur 0 (lenOf s) = afterSlot s 3 (nopSem (begun s) (begun s)) := by
  have hwork : bundleSems (begun s) (bundleWork ⟨Header.none, [(1, .mxNop), (2, .cpNop), (3, .ctNop)]⟩) =
      [(3, nopSem (begun s) (begun s))] := semsOf_one 3 nopSem _ (by simp [nopSem])
  have hgo := attempt_go_one s 3 (nopSem (begun s) (begun s)) hi (nop_clear s _ _)
  have hrun := runPhases_one 3 (nopSem (begun s) (begun s)) (by simp [nopSem, phases]) (begun s)
  simp only [issueBits, decodeBundle_zero, hwork, issueSlots, hgo, afterSlot, hrun]

/-- Settles O43: decoding by opcode, and the one state that issuing nops leaves. -/
theorem nopSlots : Obligations.NopSlots := by
  unfold Obligations.NopSlots
  refine ⟨fun w => ⟨fun _ hop => ⟨?_, ?_⟩, fun hw hop => ?_⟩, fun b hb => ?_, ⟨_, decodeBundle_zero, rfl, by decide⟩,
    fun s hi hend => ⟨⟨_, issueBits_zero s hi, after_nop s _ _ 3 hend⟩, ?_⟩⟩
  · rw [decodeSlot, decodeMatrix_opcode_zero w hop]; split <;> rfl
  · rw [decodeSlot, decodeCopy_opcode_zero w hop]; split <;> rfl
  · rw [decodeSlot, decodeControl_opcode_zero w hw hop]; split <;> rfl
  · obtain ⟨k, hk, hk', hd⟩ := decodeSlot_opcode_zero_ne b hb
    obtain ⟨e, he⟩ := decodeBundle_error b k hk hk' hd
    exact ⟨e, he, fun s c len => issueBits_error s c b len e he⟩
  · have hnop : ∀ k, ∃ t, issueOne k nopSem s = .next t ∧ OnlyContext s t ∧ FallsThrough s t ∧ SamePorts s t ∧ SameRegs s t :=
      fun k => ⟨_, issueOne_nop s k hi, after_nop s _ _ k hend⟩
    intro i hmem
    simp only [List.mem_cons, List.not_mem_nil, or_false] at hmem
    rcases hmem with rfl | rfl | rfl
    · exact hnop 1
    · exact hnop 2
    · exact hnop 3

end Sys2Proof.Machine
end


section
/-! The counts of the name table (R248): what an increment and a decrement leave in each line, and in the saturation count. -/

namespace Sys2Proof.Machine

open Sys2Proof

/-! ## Lines and the names they answer to -/

/-- The line with its count changed by `c`, when it is the one `v` names. -/
def Line.recount (v : Nat) (c : Nat → Nat) (x : Line) : Line := if x.named v then { x with count := c x.count } else x

theorem Line.recount_of_named {v : Nat} {x : Line} (h : x.named v = true) (c : Nat → Nat) :
    x.recount v c = { x with count := c x.count } := if_pos h

theorem Line.recount_of_not_named {v : Nat} {x : Line} (h : ¬ x.named v = true) (c : Nat → Nat) : x.recount v c = x := if_neg h

/-- A count is no part of what a line is named by. -/
@[simp] theorem Line.named_recount (u v : Nat) (c : Nat → Nat) (x : Line) : (x.recount v c).named u = x.named u := by
  unfold Line.recount; split <;> rfl

theorem Line.named_iff (x : Line) (v : Nat) : x.named v = true ↔ (x.hash, x.node, x.ord) = (nameHash v, nameNode v, nameOrd v) := by
  simp [Line.named, and_assoc]

/-- One line does not answer to two names that differ in a part. -/
theorem Line.not_named_of_named {u v : Nat} {x : Line} (hx : x.named u = true)
    (huv : (nameHash u, nameNode u, nameOrd u) ≠ (nameHash v, nameNode v, nameOrd v)) : ¬ x.named v = true := fun hv =>
  huv (((x.named_iff u).1 hx).symm.trans ((x.named_iff v).1 hv))

/-! ## Finding a line after recounting or freeing another -/

theorem Region.named_of_find {g : Region} {v : Nat} {l : Line} (h : g.find v = some l) : l.named v = true :=
  List.find?_some (p := fun x : Line => x.named v) h

theorem Region.find_of_recount {g g' : Region} {v : Nat} {c : Nat → Nat} (hl : g'.lines = g.lines.map (Line.recount v c)) (u : Nat) :
    g'.find u = (g.find u).map (Line.recount v c) := by
  simp only [Region.find, hl, List.find?_map, Function.comp_def, Line.named_recount]

theorem Region.find_recount_same {g g' : Region} {v : Nat} {c : Nat → Nat} {l : Line} (hl : g'.lines = g.lines.map (Line.recount v c))
    (h : g.find v = some l) : g'.find v = some { l with count := c l.count } := by
  rw [Region.find_of_recount hl, h, Option.map_some, Line.recount_of_named (Region.named_of_find h)]

theorem Region.find_recount_other {g g' : Region} {u v : Nat} {c : Nat → Nat} (hl : g'.lines = g.lines.map (Line.recount v c))
    (huv : (nameHash u, nameNode u, nameOrd u) ≠ (nameHash v, nameNode v, nameOrd v)) : g'.find u = g.find u := by
  rw [Region.find_of_recount hl]
  cases hu : g.find u with
  | none => rfl
  | some x => rw [Option.map_some, Line.recount_of_not_named (Line.not_named_of_named (Region.named_of_find hu) huv)]

theorem Region.find_freed_same {g g' : Region} {v : Nat} (hl : g'.lines = g.lines.filter (fun x => !x.named v)) : g'.find v = none := by
  simp [Region.find, hl]

theorem Region.find_freed_other {g g' : Region} {u v : Nat} (hl : g'.lines = g.lines.filter (fun x => !x.named v))
    (huv : (nameHash u, nameNode u, nameOrd u) ≠ (nameHash v, nameNode v, nameOrd v)) : g'.find u = g.find u := by
  have hkept : ∀ x : Line, ((!x.named v) = true ∧ x.named u = true) ↔ x.named u = true := fun x =>
    and_iff_right_of_imp fun hu => by simp [Line.not_named_of_named hu huv]
  simp only [Region.find, hl, List.find?_filter, hkept, Bool.decide_eq_true]

/-! ## What an increment and a decrement do (R248) -/

theorem Region.inc_of_unknown {g : Region} {v : Nat} (h : g.find v = none) : g.inc v = g := by
  simp only [Region.inc, h]

theorem Region.dec_of_unknown {g : Region} {v : Nat} (h : g.find v = none) : g.dec v = g := by
  simp only [Region.dec, h]

section
variable {g : Region} {v : Nat} {l : Line} (h : g.find v = some l)
include h

theorem Region.inc_of_saturated (hc : l.count = 0xFFFFFF) : g.inc v = g := by
  simp only [Region.inc, h, if_pos hc]

theorem Region.dec_of_saturated (hc : l.count = 0xFFFFFF) : g.dec v = g := by
  simp only [Region.dec, h, if_pos hc]

theorem Region.inc_lines (hc : l.count ≠ 0xFFFFFF) : (g.inc v).lines = g.lines.map (Line.recount v (· + 1)) := by
  simp only [Region.inc, h, if_neg hc]
  split <;> rfl

/-- An increment counts in satur exactly when it reaches the top. -/
theorem Region.inc_stats (hc : l.count ≠ 0xFFFFFF) :
    (g.inc v).stats = if l.count + 1 = 0xFFFFFF then (g.bump 2 1).stats else g.stats := by
  simp only [Region.inc, h, if_neg hc]
  split <;> rfl

theorem Region.dec_lines (hc : l.count ≠ 0xFFFFFF) (h1 : 1 < l.count) :
    (g.dec v).lines = g.lines.map (Line.recount v (· - 1)) := by
  simp only [Region.dec, h, if_neg hc, if_pos h1]
  rfl

/-- A decrement that brings the count to zero frees the line. -/
theorem Region.dec_lines_freed (h1 : l.count ≤ 1) : (g.dec v).lines = g.lines.filter (fun x => !x.named v) := by
  have hc : l.count ≠ 0xFFFFFF := by omega
  simp only [Region.dec, h, if_neg hc, if_neg (Nat.not_lt.2 h1)]
  rfl

end

/-- An increment leaves the lines of other names, whatever the count it meets. -/
theorem Region.find_inc_other (g : Region) {u v : Nat}
    (huv : (nameHash u, nameNode u, nameOrd u) ≠ (nameHash v, nameNode v, nameOrd v)) : (g.inc v).find u = g.find u := by
  cases h : g.find v with
  | none => rw [Region.inc_of_unknown h]
  | some l =>
    by_cases hc : l.count = 0xFFFFFF
    · rw [Region.inc_of_saturated h hc]
    · exact Region.find_recount_other (Region.inc_lines h hc) huv

/-- A decrement leaves the lines of other names, the one that frees its line too. -/
theorem Region.find_dec_other (g : Region) {u v : Nat}
    (huv : (nameHash u, nameNode u, nameOrd u) ≠ (nameHash v, nameNode v, nameOrd v)) : (g.dec v).find u = g.find u := by
  cases h : g.find v with
  | none => rw [Region.dec_of_unknown h]
  | some l =>
    by_cases hc : l.count = 0xFFFFFF
    · rw [Region.dec_of_saturated h hc]
    · rcases Nat.lt_or_ge 1 l.count with h1 | h1
      · exact Region.find_recount_other (Region.dec_lines h hc h1) huv
      · exact Region.find_freed_other (Region.dec_lines_freed h h1) huv

/-! ## The statistics words -/

/-- One more in a statistics word of 64 bits. -/
theorem Region.bump_one_stat (g : Region) {i : Nat} (hi : i < g.stats.length) :
    (g.bump i 1).stats.getD i 0 = (g.stats.getD i 0 + 1) % 2 ^ 64 := by
  have hwrap : wrapInt 64 ((g.stats.getD i 0 : Int) + 1) = (g.stats.getD i 0 + 1) % 2 ^ 64 := by
    unfold wrapInt; omega
  rw [← hwrap, Region.bump, List.getD_eq_getElem?_getD, List.getElem?_set_self hi, Option.getD_some]

/-- Settles O38: the saturated count, the counts below the top, the freed line, and the other names. -/
theorem nameCounts : Obligations.NameCounts := by
  unfold Obligations.NameCounts
  intro g v l h _ hlen _
  refine ⟨fun hc => ⟨Region.inc_of_saturated h hc, Region.dec_of_saturated h hc⟩, fun hlt => ?_, fun h1 hlt => ?_, fun h1 => ?_,
    fun u huv => ⟨Region.find_inc_other g huv, Region.find_dec_other g huv⟩⟩
  · have hc : l.count ≠ 0xFFFFFF := Nat.ne_of_lt hlt
    refine ⟨Region.find_recount_same (Region.inc_lines h hc) h, by omega, ?_⟩
    rw [Region.inc_stats h hc]
    split
    · exact Region.bump_one_stat g (by omega)
    · rfl
  · exact Region.find_recount_same (Region.dec_lines h (Nat.ne_of_lt hlt) h1) h
  · exact Region.find_freed_same (Region.dec_lines_freed h h1)

end Sys2Proof.Machine
end


section
/-! Trap levels (R290): what a write to memory, the fault log, a stop and a run-on leave of a context, and then where a trap and
a return lead. -/

namespace Sys2Proof.Machine

open Sys2Proof

/-! ## A write to memory changes of a context at most its window, where its corrections are counted (R174, R176) -/

theorem raceMx_ctx (s : State) (k a n : Nat) (free : MxRun → Bool) (c : Nat) : (raceMx s k a n free).ctx c = s.ctx c := by
  unfold raceMx; split <;> rfl

theorem keepOld_ctx (s : State) (w : Space) (a n c : Nat) : (s.keepOld w a n).ctx c = s.ctx c := by
  unfold State.keepOld
  split
  · rfl
  · simp only; split <;> rfl

theorem passL1_ctx (s : State) (w : Space) (a n c : Nat) : (s.passL1 w a n).ctx c = s.ctx c := by
  unfold State.passL1; split <;> rfl

section
variable {β : Type} (g : Ctx → β) (hg : ∀ (x : Ctx) (w : Windows), g { x with win := w } = g x)
include hg

theorem countInval_ctx_keeps (s : State) (l : List Corr) (c : Nat) : g ((countInval s l).ctx c) = g (s.ctx c) := by
  induction l generalizing s with
  | nil => rfl
  | cons e r ih =>
    rw [countInval, ih, State.modPlace]
    cases s.placeCtx e.job e.place with
    | none => rfl
    | some d =>
      by_cases h : d = c
      · subst h; simp only [modCtx_ctx, if_true, hg]
      · simp only [modCtx_ctx, if_neg h]

theorem invalCorr_ctx_keeps (s : State) (k a n c : Nat) : g ((invalCorr s k a n).ctx c) = g (s.ctx c) := by
  rw [invalCorr, dropCorr]
  split
  · exact countInval_ctx_keeps g hg _ _ c
  · rfl

theorem storeBy_ctx_keeps (free : MxRun → Bool) (s : State) (w : Space) (a n v c : Nat) :
    g ((s.storeBy free w a n v).ctx c) = g (s.ctx c) := by
  have hbytes : (((s.keepOld w a n).passL1 w a n).modMem (fun m => m.write w a n v)).ctx c = s.ctx c := by
    rw [modMem_ctx, passL1_ctx, keepOld_ctx]
  cases w with
  | sp => simp only [State.storeBy, raceMx_ctx, invalCorr_ctx_keeps g hg, hbytes]
  | dram | host | peer => exact congrArg g hbytes

theorem showPicked_ctx_keeps (s : State) (pick : Loose → Nat → Bool) (c : Nat) : g ((s.showPicked pick).ctx c) = g (s.ctx c) := by
  unfold State.showPicked
  generalize shownWith pick s.mem.loose 0 = l
  induction l generalizing s with
  | nil => rfl
  | cons d r ih => rw [List.foldl_cons, ih, State.showOne, storeBy_ctx_keeps g hg, modMem_ctx]

theorem writeN_ctx_keeps (s : State) (w : Space) (a n v c : Nat) : g ((s.writeN w a n v).ctx c) = g (s.ctx c) := by
  rw [State.writeN, State.writeBy, storeBy_ctx_keeps g hg, State.passLoose]
  split
  · exact showPicked_ctx_keeps g hg _ _ c
  · rfl

/-- An entry of the fault log is written to memory alone. -/
theorem logEntry_ctx_keeps (s : State) (j typ cause level place body c : Nat) :
    g ((logEntry s j typ cause level place body).ctx c) = g (s.ctx c) := by
  unfold logEntry
  split
  · rfl
  · simp only
    split <;> simp only [writeN_ctx_keeps g hg]

end

@[simp] theorem logEntry_traps (s : State) (j typ cause level place body c : Nat) :
    ((logEntry s j typ cause level place body).ctx c).traps = (s.ctx c).traps :=
  logEntry_ctx_keeps (·.traps) (fun _ _ => rfl) s j typ cause level place body c

/-! ## Stopping and running on -/

@[simp] theorem stop_traps (x : Ctx) (f : Nat → Nat) (r : Run) : (x.stop f r).traps = x.traps :=
  landUpTo_traps _ _ _

@[simp] theorem stop_run (x : Ctx) (f : Nat → Nat) (r : Run) : (x.stop f r).seq.run = r := rfl

@[simp] theorem land_run (x : Ctx) (f : Flight) : (x.land f).seq.run = x.seq.run := by
  rcases f with ⟨_, _, _, _, _, _ | v, _, _, _, _ | ⟨n, b⟩, _, _⟩ <;> simp only [Ctx.land, Ctx.orFlags, Ctx.setCond] <;> split_ifs <;> rfl

/-- Running on keeps what neither a landing nor leaving the list of flights changes, beside the time. -/
theorem runOn_keeps {β : Type} (g : Ctx → β) (hg : ∀ x f, g (Ctx.land x f) = g x)
    (hp : ∀ (x : Ctx) l, g { x with ports := { x.ports with flights := l } } = g x)
    (hs : ∀ (x : Ctx) n, g { x with seq := { x.seq with cyc := n } } = g x) (x : Ctx) (f : Nat → Nat) (t : Nat) :
    g (x.runOn f t) = g x := by
  simp only [Ctx.runOn, hs, landThe_keeps g hg hp, Ctx.early, hp]

@[simp] theorem runOn_traps (x : Ctx) (f : Nat → Nat) (t : Nat) : (x.runOn f t).traps = x.traps :=
  runOn_keeps (·.traps) land_traps (fun _ _ => rfl) (fun _ _ => rfl) x f t
@[simp] theorem runOn_run (x : Ctx) (f : Nat → Nat) (t : Nat) : (x.runOn f t).seq.run = x.seq.run :=
  runOn_keeps (·.seq.run) land_run (fun _ _ => rfl) (fun _ _ => rfl) x f t

/-! ## Where a trap leads -/

theorem trapKills_iff (x : Ctx) : x.trapKills = true ↔ x.traps.tvec % 2 = 0 ∨ 2 ≤ x.traps.level := by
  rw [Ctx.trapKills, Bool.or_eq_true, beq_iff_eq, decide_eq_true_eq, Ctx.level]

/-- Whether a trap kills is in the trap registers alone. -/
theorem trapKills_congr {x y : Ctx} (h : y.traps = x.traps) : y.trapKills = x.trapKills := by
  rw [Bool.eq_iff_iff, trapKills_iff, trapKills_iff, h]

theorem traps_enter_level (t : Traps) (cause tval epc ldepth : Nat) (h : t.level < 2) :
    (t.enter cause tval epc ldepth).level = t.level + 1 := by
  unfold Traps.enter
  split
  · next h0 => rw [h0]
  · show 2 = t.level + 1
    omega

@[simp] theorem killByTrap_run (s : State) (c cause tval epc : Nat) : ((killByTrap s c cause tval epc).ctx c).seq.run = .killed := by
  simp [killByTrap, markError, State.stopCtx]

@[simp] theorem killByTrap_traps (s : State) (c cause tval epc : Nat) :
    ((killByTrap s c cause tval epc).ctx c).traps = (s.ctx c).traps := by
  simp [killByTrap, markError, State.stopCtx]

theorem missing_of_dataArrived {x : Ctx} (h : DataArrived x) (t : Nat) : x.missing t = false := by
  simp only [Ctx.missing, List.any_eq_false, Bool.and_eq_true, not_and]
  intro f hf _
  cases hl : f.landing with
  | none => simp
  | some l => simp [h f hf l hl]

section
variable {s : State} {c : Nat} (cause tval epc lit : Nat) (hd : DataArrived (s.ctx c))
include hd

/-- With every landing access's data at hand, a trap that kills leaves the context killed, with its trap registers (R290, R299). -/
theorem takeTrap_of_kills (hk : (s.ctx c).trapKills = true) :
    ((takeTrap s c cause tval epc lit).ctx c).seq.run = .killed ∧
      ((takeTrap s c cause tval epc lit).ctx c).traps = (s.ctx c).traps := by
  unfold takeTrap
  by_cases hen : (s.ctx c).traps.tvec % 2 = 0
  · simp [hen]
  · have hrun : ((s.ctx c).runOn (s.landDraw c) (s.ctx c).lastLanding).trapKills = true := by rw [trapKills_congr (runOn_traps _ _ _), hk]
    simp [hen, missing_of_dataArrived hd, enterTrap, hrun]

/-- With every landing access's data at hand, a trap that does not kill enters the next level (R290, R295). -/
theorem takeTrap_of_enters (hk : (s.ctx c).trapKills = false) :
    ((takeTrap s c cause tval epc lit).ctx c).seq.run = (s.ctx c).seq.run ∧
      ((takeTrap s c cause tval epc lit).ctx c).traps.level = (s.ctx c).traps.level + 1 := by
  have hno : ¬ ((s.ctx c).traps.tvec % 2 = 0 ∨ 2 ≤ (s.ctx c).traps.level) := by rw [← trapKills_iff, hk]; exact Bool.false_ne_true
  have hen : (s.ctx c).traps.tvec % 2 ≠ 0 := fun h => hno (.inl h)
  have hlt : (s.ctx c).traps.level < 2 := Nat.lt_of_not_le fun h => hno (.inr h)
  have hrun : ((s.ctx c).runOn (s.landDraw c) (s.ctx c).lastLanding).trapKills = false := by rw [trapKills_congr (runOn_traps _ _ _), hk]
  simp [takeTrap, hen, missing_of_dataArrived hd, enterTrap, hrun, traps_enter_level, hlt]

/-- A context at one of the three levels stays at one of them. -/
theorem takeTrap_level_le (h : (s.ctx c).traps.level ≤ 2) : ((takeTrap s c cause tval epc lit).ctx c).traps.level ≤ 2 := by
  cases hk : (s.ctx c).trapKills with
  | true => rw [(takeTrap_of_kills cause tval epc lit hd hk).2]; exact h
  | false =>
    have hlt : ¬ 2 ≤ (s.ctx c).traps.level := fun h2 => by simp [(trapKills_iff _).2 (.inr h2)] at hk
    rw [(takeTrap_of_enters cause tval epc lit hd hk).2]; omega

end

/-! ## Returning -/

@[simp] theorem returnTrap_level (x : Ctx) : x.returnTrap.traps.level = x.traps.level - 1 := rfl

theorem finishCtx_level_tret (x : Ctx) (clock len k : Nat) (m : Sem) (hl : m.late = id) (ht : m.flow = .tret) :
    (finishCtx x clock len Header.none [(k, m)]).traps.level = x.traps.level - 1 := by
  unfold finishCtx; simp [ht, hl, Ctx.restart]

/-- Above level 0, a return meets no trap condition and no stall. -/
theorem tret_clear (s l : State) (h : 1 ≤ (s.ctx s.cur).traps.level) : Clear s (tretSem (begun s) l) := by
  have hlev : (me s).level ≠ 0 := by rw [Ctx.level, me_traps]; omega
  simp [Clear, tretSem, ctlSem, candIf, hlev]

/-- Above level 0, `tret` completes one level lower (R290, R298). -/
theorem tret_gives_level (s : State) (hi : CanIssue s) (h : 1 ≤ (s.ctx s.cur).traps.level) :
    Gives .tret s (fun t => (t.ctx s.cur).traps.level = (s.ctx s.cur).traps.level - 1) := by
  have hexec : exec .tret s = .next (afterSlot s 3 (tretSem (begun s) (begun s))) :=
    issueOne_go s 3 tretSem hi (semsOf_one 3 tretSem _ (by simp [tretSem, ctlSem])) (by simp [tretSem, ctlSem, phases])
      (tret_clear s _ h)
  refine ⟨_, hexec, ?_⟩
  dsimp only
  rw [after_ctx s 3 _ rfl (by simp [tretSem, ctlSem]), finishCtx_level_tret _ _ _ _ _ rfl rfl, held_traps]
  simp [tretSem, ctlSem]

/-- The level is the low two bits of tlevel. -/
theorem sysRead_tlevel_level (s : State) (c : Nat) (h : (s.ctx c).traps.level ≤ 2) :
    ∃ v, s.sysRead c 0x021 = some v ∧ v % 4 = (s.ctx c).traps.level :=
  ⟨_, rfl, by omega⟩

/-- Settles O27: a trap by whether it kills, the return at its level, and the read of tlevel. -/
theorem trapLevels : Obligations.TrapLevels := by
  unfold Obligations.TrapLevels
  intro s c cause tval epc lit hd
  have henters (hen : (s.ctx c).traps.tvec % 2 = 1) (hlt : (s.ctx c).traps.level < 2) :=
    takeTrap_of_enters cause tval epc lit hd (Bool.eq_false_iff.2 fun hk => by rcases (trapKills_iff _).1 hk with h | h <;> omega)
  have hkills (h : (s.ctx c).traps.tvec % 2 = 0 ∨ 2 ≤ (s.ctx c).traps.level) :=
    (takeTrap_of_kills cause tval epc lit hd ((trapKills_iff _).2 h)).1
  refine ⟨fun hen h0 => ?_, fun hen h1 => ?_, fun _ h2 => hkills (.inr h2.ge), fun hen => hkills (.inl hen),
    takeTrap_level_le cause tval epc lit hd, fun hc hi h1 => ?_, sysRead_tlevel_level s c⟩
  · obtain ⟨hrun, hlev⟩ := henters hen (by omega)
    exact ⟨by rw [hlev, h0], hrun⟩
  · obtain ⟨hrun, hlev⟩ := henters hen (by omega)
    exact ⟨by rw [hlev, h1], hrun⟩
  · subst hc
    exact tret_gives_level s hi h1

end Sys2Proof.Machine
end
